-- ==== Sys2Proof/Word.lean ====
section
/-! DEFINITION. Word.lean: the plainest types of the model. Bit vectors for what the manual adds, shifts or
masks; natural numbers for counts, indexes and the keys of sparse tables. -/
namespace Sys2Proof

/-- A byte of memory. -/
abbrev Byte := BitVec 8

/-- A 32-bit register access (R8), or a 32-bit lane of a vector register. -/
abbrev Word32 := BitVec 32

/-- A 64-bit register (R8), or a scalar register of a core. -/
abbrev Word64 := BitVec 64

/-- A sparse table: keys strictly rising, no entry equal to what an unlisted key reads as. -/
abbrev Table (α : Type) := List (Nat × α)

end Sys2Proof
end

