-- ==== Sys2Proof/Syntax.lean ====
section
/-! DEFINITION. Syntax.lean: the commands the module takes, one constructor per row of spec/opcode_table.json, and
the decoded operations of a 512-bit bundle (R77, R84-R89, R132, R142). A row that names one slot operation carries
that slot's fields and the bundle it stands in, whose same slot is replaced by it. -/
namespace Sys2Proof

/-- S-slot operations of format R that write RD (R85). -/
inductive ROp where
  | add | sub | mul | mulh | mulhu | div | divu | rem | remu
  | and | or | xor | sll | srl | sra | slt | sltu | min | max | minu | maxu | sel
  | fadd | fsub | fmul | fdiv | fsqrt | fmin | fmax | fma | fcvtIF | fcvtFI | feq | flt | fle
  deriving DecidableEq, Repr

/-- S-slot operations of format I. -/
inductive IOp where
  | addi | andi | ori | xori | slli | srli | srai | slti
  deriving DecidableEq, Repr

/-- Atomic operations of R84, AOP 0-6; `reserved` is AOP 7. -/
inductive AOp where
  | add | min | max | minu | maxu | swap | cas | reserved
  deriving DecidableEq, Repr

/-- The decoded S slot. `illegal` is any encoding the spec reserves. -/
inductive SOp where
  | nop
  | r (op : ROp) (rd rs1 rs2 rs3 : BitVec 5)
  | i (op : IOp) (rd rs1 : BitVec 5) (imm : BitVec 32)
  | li (rd : BitVec 5) (imm : BitVec 48)
  | lih (rd : BitVec 5) (imm : BitVec 48)
  | lds (rd rs1 : BitVec 5) (size : BitVec 2) (sx : Bool) (off : BitVec 32)
  | sts (rs2 rs1 : BitVec 5) (size : BitVec 2) (sx : Bool) (off : BitVec 32)
  | ldu (rd rs1 : BitVec 5) (size : BitVec 2) (sx : Bool) (off : BitVec 32)
  | stu (rs2 rs1 : BitVec 5) (size : BitVec 2) (sx : Bool) (off : BitVec 32)
  | rdgauge (rd : BitVec 5) (index : BitVec 8)
  | rdtick (rd rs1 rs2 rs3 : BitVec 5)
  | ldn (rd rs1 : BitVec 5) (size : BitVec 2) (sx : Bool) (off : BitVec 32)
  | stn (rs2 rs1 : BitVec 5) (size : BitVec 2) (sx : Bool) (off : BitVec 32)
  | amo (rd rs1 rs2 rs3 : BitVec 5) (aop : AOp) (ret : Bool)
  | iflush (rd rs1 rs2 rs3 : BitVec 5)
  | dinv (rd rs1 rs2 : BitVec 5)
  | rdtag (rd rs1 : BitVec 5) (imm : BitVec 32)
  | illegal
  deriving DecidableEq, Repr

/-- Comparisons of the conditional branches (R86). -/
inductive BCond where
  | eq | ne | lt | ge | ltu | geu
  deriving DecidableEq, Repr

/-- The decoded B slot (R86). Bits a format reserves are kept where they decide the encoding. -/
inductive BOp where
  | nop
  | bc (c : BCond) (rs1 rs2 : BitVec 5) (off : BitVec 14)
  | j (off : BitVec 24)
  | call (off : BitVec 24)
  | jr (rs1 : BitVec 5)
  | callr (rs1 : BitVec 5)
  | ret
  | loop (lc : BitVec 2) (rs1 : BitVec 5) (len : BitVec 17)
  | lend (lc : BitVec 2)
  | wait (rs1 : BitVec 5)
  | halt (code : BitVec 16)
  | brk (code : BitVec 16)
  | illegal
  deriving DecidableEq, Repr

/-- V-slot opcodes (R88). -/
inductive VCode where
  | vadd | vsub | vmul | vfma | vmin | vmax | vabs | vneg | vand | vor | vxor | vshl | vsra | vsrl
  | vexp | vrcp | vrsqrt | vcvt | vceq | vclt | vcle | vperm | vbcast | vsel | vmov
  | vrsum | vrmax | vrmin | vld | vst | mand | mor | mxor | mnot
  deriving DecidableEq, Repr

/-- The fields of a V-slot operation (R87). `vd`, `va`, `vb` keep all five bits, so that the bits a mask operation
or a compare reserves are visible. -/
structure VFields where
  vd : BitVec 5
  va : BitVec 5
  vb : BitVec 5
  vc : BitVec 5
  msk : BitVec 3
  mz : Bool
  ty : BitVec 3
  ty2 : BitVec 3
  sb : Bool
  sat : Bool
  imm : BitVec 32
  deriving DecidableEq, Repr

/-- The decoded V slot. -/
inductive VOp where
  | nop
  | op (code : VCode) (f : VFields)
  | illegal
  deriving DecidableEq, Repr

/-- M-slot commands (R132). Scratchpad addresses and strides are in 64-byte units; `M1` fields hold a count less
one. -/
inductive MOp where
  | nop
  | cfg (clrAcc clrFlags : Bool) (mode : BitVec 2) (bp : BitVec 8)
  | lda (src : BitVec 14) (rowsM1 : BitVec 4) (fmt : BitVec 2) (kuM1 : BitVec 9) (stride scaleSrc : BitVec 14)
      (scaleEn : Bool)
  | mmw (wsrc len : BitVec 14) (slabsM1 koff : BitVec 7)
  | mma (bsrc : BitVec 14) (bfmt : BitVec 2) (chM1 koff : BitVec 10)
  | rd (dst : BitVec 14) (ofmt : BitVec 2) (tscale clr : Bool) (oshift : BitVec 8) (stride : BitVec 14)
  | stf (dst : BitVec 14) (clr : Bool)
  | illegal
  deriving DecidableEq, Repr

/-- X-slot operations; each opens with its transfer tag (R89, R142, R193, R237, R241, R263, R271, R272, R318, R384,
R465). -/
inductive XOp where
  | nop
  | xfer (tag : BitVec 6) (toUnified : Bool) (rs : BitVec 5) (saddr len : BitVec 14)
  | scopy (tag : BitVec 6) (src dst len : BitVec 14)
  | assay (tag : BitVec 6) (nsrc rsrc : BitVec 14) (rowsM1 : BitVec 4) (layer : BitVec 8) (ord : BitVec 25)
  | asel (tag : BitVec 6) (dst : BitVec 14) (layer : BitVec 8) (obase : BitVec 16)
  | lmark (tag : BitVec 6) (layer : BitVec 8)
  | lwait (tag : BitVec 6) (layer : BitVec 8)
  | awalk (tag : BitVec 6) (desc dst : BitVec 14)
  | rkpost (tag : BitVec 6) (src : BitVec 14) (slot : BitVec 10) (gen : BitVec 8) (pair : BitVec 12)
      (pos : BitVec 20) (countM1 : BitVec 8)
  | bsend (tag : BitVec 6) (src : BitVec 14) (layer : BitVec 8) (half : Bool) (rowbase : BitVec 10)
      (count : BitVec 7) (total : BitVec 10)
  | bwait (tag : BitVec 6) (dst : BitVec 14) (layer : BitVec 8) (half side : Bool) (host : BitVec 12)
  | bret (tag : BitVec 6) (host : BitVec 12) (half : Bool)
  | xsamp (tag : BitVec 6) (desc dst : BitVec 14)
  | msg (tag : BitVec 6) (desc : BitVec 14)
  | gsnap (tag : BitVec 6) (dst : BitVec 14)
  | illegal
  deriving DecidableEq, Repr

/-- What a memory's check bits show on a read (R169). -/
inductive Ecc where
  | ok
  | corrected (bank row : Nat)
  | uncorrectable
  deriving DecidableEq, Repr

/-- What the surroundings of a bundle decide in the cycles of its accesses: the check bits of its scratchpad read,
those of its unified-range read, the 64-byte words of the scratchpad in which a write of a higher-numbered port
meets its stores (R164), and what T3 answers to the reads of its X-slot operation. -/
structure Surround where
  scr : Ecc
  mem : Ecc
  drop : List Nat
  far : List Byte
  deriving DecidableEq, Repr

/-- A decoded bundle (R77). -/
structure Bundle where
  s : SOp
  b : BOp
  v0 : VOp
  v1 : VOp
  m : MOp
  x : XOp
  env : Surround
  deriving DecidableEq, Repr

/-- The all-zero bundle (R77), in quiet surroundings. -/
def Bundle.nop : Bundle := ⟨.nop, .nop, .nop, .nop, .nop, .nop, ⟨.ok, .ok, [], []⟩⟩

/-- What a CXL.io request of a host asks of an LD outside its register pages and doorbells: its configuration space
(R393, R395), its MSI-X table (R410) and its HDM decoder (R398). -/
inductive CfgRequest where
  | read
  | msixEnable (on : Bool)
  | msixMask (vector : Fin 64) (masked : Bool)
  | hdmCommit (bytes : Nat) (ways : Nat)
  deriving DecidableEq, Repr

/-- A Buroth packet (R349): the common fields, bytes 8-31 of its header, and its payload. -/
structure Packet where
  dst : Nat
  src : Nat
  slice : Nat
  vc : Nat
  hop : Bool
  type : Nat
  head : List Byte
  payload : List Byte
  deriving DecidableEq, Repr

/-- A step message (R301): its header, and its body from byte 32 on (R302). -/
structure StepMsg where
  node : Nat
  convoy : Nat
  step : Nat
  inst : Nat
  count1 : Nat
  count2 : Nat
  body : List Byte
  deriving DecidableEq, Repr

/-- A dispatch or return part as it arrives (R268): the node that sent it, and its bytes. -/
structure Part where
  src : Nat
  bytes : List Byte
  deriving DecidableEq, Repr

/-- The commands of the module: what its pins, its host, its links, its firmware and its own units do to it, one
constructor per row of the table of operations and events. -/
inductive Instr where
  /-- Assertion of PWR_EN, once the 100 µs deglitch accepts it, starts the main conversion if the input is at or above
  53 V; otherwise the request is held until the input reaches 53 V (R29). -/
  | pwrEnAssert
  /-- Deassertion of PWR_EN turns the main conversion off at once, with no orderly halt (R29). -/
  | pwrEnDeassert
  /-- When PWR_EN has been held deasserted for 100 ms, a held re-assertion is acted on, the R20 shutdown latch clears
  and FAULT_L is released (R30). -/
  | pwrEnOffHoldExpiry
  /-- The input rises to 53 V while PWR_EN is asserted, and the held start of the main conversion proceeds (R29). -/
  | mainConversionPermitted
  /-- The input falls below 50 V and the main conversion is forced off, with no orderly halt (R18). -/
  | mainConversionForcedOff
  /-- The input rises above 44 V, the standby converter comes on, and the management domain is held in reset for 2 ms
  (R62). -/
  | standbyConverterOn
  /-- The input falls below 40 V; the standby converter goes off, the whole module loses power, and the latches and
  orphan detection clear (R18). -/
  | standbyConverterOff
  /-- The 2 ms management-domain reset ends, and the management domain begins to run (R62). -/
  | mgmtResetEnd
  /-- The MC watchdog goes 2 s without service and causes a management reset, which also resets the module domain
  (R62). -/
  | mcWatchdogExpiry
  /-- The input stays above 66 V for more than 10 µs; the main conversion turns off, the fault latches, PWR_GOOD goes
  low and FAULT_L asserts (R20). -/
  | overvoltageShutdown (mv ma10 : Nat)
  /-- The input current stays above 60 A for more than 10 µs, with the same latched shutdown as for overvoltage (R20).
  -/
  | overcurrentShutdown (mv ma10 : Nat)
  /-- Every main rail reaches regulation and PWR_GOOD is driven high (R39). -/
  | mainRailsInRegulation
  /-- A main rail leaves regulation and PWR_GOOD goes low within 20 µs (R39). -/
  | mainRailOutOfRegulation
  /-- PWR_GOOD has been high for 1 ms while PERST_L was left released, and the module starts the power-up sequence of
  R70 (R40). -/
  | pwrGoodHoldElapsed
  /-- Assertion of PERST_L holds every reset domain except the management domain in reset (R31). -/
  | perstLAssert
  /-- Release of PERST_L is accepted; the root PLL begins to lock and the CXL PHY begins training (R70). -/
  | perstLRelease
  /-- Assertion of CAP_ALERT_L revokes boost, loads every die with min(N, Nalert) and puts the alert cap into the
  limit in force (R442). -/
  | capAlertLAssert
  /-- Release of CAP_ALERT_L removes the alert cap at the next tick, after which the limit rises under the slew
  (R442). -/
  | capAlertLRelease
  /-- Assertion of COOLANT_FAULT_L puts a coolant fault in force, which applies the coolant cap (R444). -/
  | coolantFaultLAssert
  /-- Release of COOLANT_FAULT_L starts the 10 s before the coolant fault ends (R444). -/
  | coolantFaultLRelease
  /-- An external laser source is removed, or its bay interlock opens, and the links it feeds go DOWN with cause 5
  (R16). -/
  | elsRemoved (e : Fin 2)
  /-- An external laser source is seated and its interlock closes, so that it may emit light (R16). -/
  | elsInserted (e : Fin 2)
  /-- A fibre array is unmated and uncapped while its links are enabled; emission stops within 1 ms and the links go
  DOWN with cause 6 (R17). -/
  | fibreArrayUnmated (a : Fin 2)
  /-- The I3C controller assigns the module's dynamic address by ENTDAA (R34). -/
  | i3cEntdaa (addr : BitVec 7)
  /-- The rack manager's I3C SET_CAP sets the cap and counts as a heartbeat (R439). -/
  | setCap (watts : BitVec 16)
  /-- The I3C SET_ALERT_CAP sets PWR_ALERT_CAP.CAP (R440). -/
  | setAlertCap (watts : BitVec 16)
  /-- The I3C HEARTBEAT arms orphan detection, restarts its timeout and ends ORPHAN (R441). -/
  | heartbeat
  /-- The I3C SET_ORPHAN sets the orphan cap and the orphan timeout (R440). -/
  | setOrphan (watts timeout : BitVec 16)
  /-- The I3C READ_STATUS makes the following private read return the 16-byte status block (R440). -/
  | readStatus
  /-- The I3C WAKE command takes the module out of P3 and starts the full power-up (R60). -/
  | i3cWake
  /-- An I3C write with an unknown code, the wrong length or an argument out of range is ignored and counted (R440).
  -/
  | i3cInvalidWrite
  /-- The IDCODE instruction returns the stepping, part number and manufacturer identity (R487). -/
  | jtagIdcode
  /-- A boundary-scan instruction acts on the sideband and host-port contacts (R36). -/
  | jtagBoundaryScan (n : BitVec 16)
  /-- BYPASS, or an instruction that is not offered, passes data through the one-bit bypass register (R36). -/
  | jtagBypass (bits : List Bool)
  /-- The JTAG DBG_ACCESS instruction makes a register access under an open scope (R487). -/
  | dbgAccess (word : BitVec 72)
  /-- The JTAG SCAN_n instruction shifts scan chain n under the SCAN scope (R487). -/
  | scanN (chain : BitVec 8) (bits : List Bool)
  /-- The root PLL locks, the dividers run, TICK starts counting and the boot ROM starts (R50). -/
  | rootPllLock
  /-- SYS_REFCLK is lost after the root PLL has locked; EV_CLK_UNLOCK is raised and the main domain stops (R50). -/
  | sysRefclkLoss
  /-- The root PLL loses lock while the main domain runs, raising EV_CLK_UNLOCK (R50). -/
  | rootPllUnlock
  /-- Every condition of R51 holds for a die, and the ÷7 divider is granted at its next CORE_CLK edge (R51). -/
  | boostGrant (d : Fin 8)
  /-- A write of CLK_CTRL sets fixed-frequency mode, the boost enable and the boost margin; FIXED_FREQ revokes boost
  within 2 µs (R53). -/
  | clkCtrlWrite (req : Fin 18) (value : Word32)
  /-- LD0 writes P0 to DEV_PWR.TARGET, waking the module (R59). -/
  | devPwrTargetP0 (req : Fin 18) (autoWake : Bool)
  /-- LD0 writes P1, entered at once or at the first moment at which no step is in flight and no core is RUNNING
  (R56). -/
  | devPwrTargetP1 (req : Fin 18) (autoWake : Bool)
  /-- LD0 writes P2, which is entered only when every context is quiesced (R58). -/
  | devPwrTargetP2 (req : Fin 18) (autoWake : Bool)
  /-- LD0 writes P3, which turns the main conversion off while every context is quiesced (R60). -/
  | devPwrTargetP3 (req : Fin 18) (autoWake : Bool)
  /-- A deferred entry to P1 takes place at the first moment at which no step is in flight and no core is RUNNING
  (R56). -/
  | p1Entry
  /-- A power-state transition completes, clearing powered-off memories on a wake and acting on any held TARGET write
  (R59). -/
  | powerTransitionDone
  /-- LD0 writes 0x0000_A5E1 to RST_MODULE and resets the module domain (R63). -/
  | rstModuleWrite (req : Fin 18) (key : Word32)
  /-- LD0 requests a die reset, which is refused while the die holds any context's core or data (R63). -/
  | rstDieWrite (req : Fin 18) (dies : BitVec 8)
  /-- LD0 resets a link's Buroth link layer and its optical lanes (R62). -/
  | rstLinkWrite (req : Fin 18) (links : Word32)
  /-- LD0 requests an LD reset of LD n (R65). -/
  | rstLdWrite (req : Fin 18) (lds : BitVec 16)
  /-- LD0 requests a context reset of context n (R65). -/
  | rstCtxWrite (req : Fin 18) (ctxs : BitVec 16)
  /-- A CXL function-level reset of LD n starts an LD reset, merging with any LD reset already in progress (R64). -/
  | flr (n : Fin 16)
  /-- LD n writes LD_RESET.LD, which acts as an FLR of itself (R411). -/
  | ldResetLd (req : Fin 18) (ld : Fin 16)
  /-- LD n writes LD_RESET.CTX, which acts as a context reset of its own context (R411). -/
  | ldResetCtx (req : Fin 18) (ld : Fin 16)
  /-- A secondary bus reset of an LD's vPPB acts as an LD reset of that LD (R411). -/
  | secondaryBusReset (n : Fin 16)
  /-- A hot reset or a link-down of the host port acts as an LD reset of every LD (R411). -/
  | hostPortLinkDown
  /-- The 2 ms drain of a context or LD reset ends; what remains is abandoned and steps 4–6 of R65 follow (R65). -/
  | resetDrainEnd (n : Fin 16)
  /-- A reset of a die, link, LD or context completes and raises EV_RESET_DONE (R66). -/
  | resetDone (domain inst : Nat)
  /-- RESET_BUSY is still 1 50 ms into an LD reset; EV_LD_RESET_STUCK is raised and the module halts (R515). -/
  | ldResetStuck (n : Fin 16)
  /-- The image has been read from flash and is checked; an accepted image starts and a refused one sends the module
  into recovery wait (R68). -/
  | flashImageReadDone (readable : Bool)
  /-- Stack training ends; a stack that failed is excluded from capacity with EV_HBM_TRAIN_FAIL (R71). -/
  | hbmTrainingDone (failed : BitVec 32)
  /-- The HBM controllers complete the zero-fill of every stack (R61). -/
  | hbmZeroFillDone
  /-- Boot reaches ready; FW fields are written, memories are cleared, READY is set, Request Retry Status ends and
  EV_READY is raised (R70). -/
  | bootReady
  /-- BOOT_MBOX_CMD LOAD in recovery wait reads the image from host memory by DMA and checks it (R73). -/
  | load (req : Fin 18)
  /-- The recovery image has been read and checked; DONE resumes power-up from the HBM step, and FAIL keeps the wait
  (R73). -/
  | recoveryLoadDone (data : Option (List Byte))
  /-- BOOT_MBOX_CMD FLASH_WRITE writes the image from host memory to flash, and the image is then verified (R74). -/
  | flashWrite (req : Fin 18)
  /-- A write of 1 to BOOT_CTRL.SVN_COMMIT blows anti-rollback fuses up to the running image's SVN (R69). -/
  | svnCommit (req : Fin 18)
  /-- S-slot ADD (R85). -/
  | add (core : Fin 512) (rd rs1 rs2 rs3 : BitVec 5) (w : Bundle)
  /-- S-slot SUB (R85). -/
  | sub (core : Fin 512) (rd rs1 rs2 rs3 : BitVec 5) (w : Bundle)
  /-- S-slot MUL, the low 64 bits of the product (R85). -/
  | mul (core : Fin 512) (rd rs1 rs2 rs3 : BitVec 5) (w : Bundle)
  /-- S-slot MULH, the high 64 bits of the signed product (R85). -/
  | mulh (core : Fin 512) (rd rs1 rs2 rs3 : BitVec 5) (w : Bundle)
  /-- S-slot MULHU, the high 64 bits of the unsigned product (R85). -/
  | mulhu (core : Fin 512) (rd rs1 rs2 rs3 : BitVec 5) (w : Bundle)
  /-- S-slot signed DIV, with the division-by-zero result of R83 (R83). -/
  | div (core : Fin 512) (rd rs1 rs2 rs3 : BitVec 5) (w : Bundle)
  /-- S-slot unsigned DIVU (R83). -/
  | divu (core : Fin 512) (rd rs1 rs2 rs3 : BitVec 5) (w : Bundle)
  /-- S-slot signed REM (R85). -/
  | rem (core : Fin 512) (rd rs1 rs2 rs3 : BitVec 5) (w : Bundle)
  /-- S-slot unsigned REMU (R85). -/
  | remu (core : Fin 512) (rd rs1 rs2 rs3 : BitVec 5) (w : Bundle)
  /-- S-slot bitwise AND, OR and XOR (R85). -/
  | andOrXor (core : Fin 512) (k : Fin 3) (rd rs1 rs2 rs3 : BitVec 5) (w : Bundle)
  /-- S-slot shifts by a register amount (R85). -/
  | sllSrlSra (core : Fin 512) (k : Fin 3) (rd rs1 rs2 rs3 : BitVec 5) (w : Bundle)
  /-- S-slot set-less-than, signed and unsigned (R85). -/
  | sltSltu (core : Fin 512) (k : Fin 2) (rd rs1 rs2 rs3 : BitVec 5) (w : Bundle)
  /-- S-slot minimum and maximum, signed and unsigned (R85). -/
  | minMaxMinuMaxu (core : Fin 512) (k : Fin 4) (rd rs1 rs2 rs3 : BitVec 5) (w : Bundle)
  /-- S-slot select on RS3 (R85). -/
  | sel (core : Fin 512) (rd rs1 rs2 rs3 : BitVec 5) (w : Bundle)
  /-- S-slot add of an immediate (R85). -/
  | addi (core : Fin 512) (rd rs1 : BitVec 5) (imm : BitVec 32) (w : Bundle)
  /-- S-slot bitwise operations with an immediate (R85). -/
  | andiOriXori (core : Fin 512) (k : Fin 3) (rd rs1 : BitVec 5) (imm : BitVec 32) (w : Bundle)
  /-- S-slot shifts by an immediate amount (R85). -/
  | slliSrliSrai (core : Fin 512) (k : Fin 3) (rd rs1 : BitVec 5) (imm : BitVec 32) (w : Bundle)
  /-- S-slot signed set-less-than against an immediate (R85). -/
  | slti (core : Fin 512) (rd rs1 : BitVec 5) (imm : BitVec 32) (w : Bundle)
  /-- S-slot load of a sign-extended 48-bit immediate (R85). -/
  | li (core : Fin 512) (rd : BitVec 5) (imm : BitVec 48) (w : Bundle)
  /-- S-slot load of the high 16 bits, keeping bits [47:0] (R85). -/
  | lih (core : Fin 512) (rd : BitVec 5) (imm : BitVec 48) (w : Bundle)
  /-- S-slot FP32 arithmetic (R85). -/
  | faddFsubFmulFdiv (core : Fin 512) (k : Fin 4) (rd rs1 rs2 rs3 : BitVec 5) (w : Bundle)
  /-- S-slot FP32 square root (R85). -/
  | fsqrt (core : Fin 512) (rd rs1 rs2 rs3 : BitVec 5) (w : Bundle)
  /-- S-slot IEEE 754 minimum and maximum (R85). -/
  | fminFmax (core : Fin 512) (k : Fin 2) (rd rs1 rs2 rs3 : BitVec 5) (w : Bundle)
  /-- S-slot FP32 fused multiply-add (R85). -/
  | fma (core : Fin 512) (rd rs1 rs2 rs3 : BitVec 5) (w : Bundle)
  /-- S-slot saturating conversion of FP32 to a signed 64-bit integer (R85). -/
  | fcvtIf (core : Fin 512) (rd rs1 rs2 rs3 : BitVec 5) (w : Bundle)
  /-- S-slot conversion of a signed 64-bit integer to FP32 (R85). -/
  | fcvtFi (core : Fin 512) (rd rs1 rs2 rs3 : BitVec 5) (w : Bundle)
  /-- S-slot FP32 compares (R85). -/
  | feqFltFle (core : Fin 512) (k : Fin 3) (rd rs1 rs2 rs3 : BitVec 5) (w : Bundle)
  /-- S-slot scratchpad load (R84). -/
  | lds (core : Fin 512) (rd rs1 : BitVec 5) (size : BitVec 2) (sx : Bool) (off : BitVec 32) (w : Bundle)
  /-- S-slot scratchpad store through the store buffer (R84). -/
  | sts (core : Fin 512) (rs2 rs1 : BitVec 5) (size : BitVec 2) (off : BitVec 32) (w : Bundle)
  /-- S-slot unified-range load through the data cache; a miss is sent at X3 for T1 or T2, and at CM for T3 (R98). -/
  | ldu (core : Fin 512) (rd rs1 : BitVec 5) (size : BitVec 2) (sx : Bool) (off : BitVec 32) (w : Bundle)
  /-- S-slot write-through unified-range store, sent at CM (R98). -/
  | stu (core : Fin 512) (rs2 rs1 : BitVec 5) (size : BitVec 2) (off : BitVec 32) (w : Bundle)
  /-- S-slot read of a core Gauge, which returns 0 unless user reads are enabled (R464). -/
  | rdgauge (core : Fin 512) (rd : BitVec 5) (index : BitVec 8) (w : Bundle)
  /-- S-slot read of TICK at CM (R85). -/
  | rdtick (core : Fin 512) (rd : BitVec 5) (w : Bundle)
  /-- S-slot node load, sent at CM; the bundle waits for the answer (R374). -/
  | ldn (core : Fin 512) (rd rs1 : BitVec 5) (size : BitVec 2) (sx : Bool) (off : BitVec 32) (w : Bundle)
  /-- S-slot posted node store (R374). -/
  | stn (core : Fin 512) (rs2 rs1 : BitVec 5) (size : BitVec 2) (off : BitVec 32) (w : Bundle)
  /-- S-slot node atomic: ADD, MIN, MAX, MINU, MAXU, SWAP or CAS (R374). -/
  | amo (core : Fin 512) (rd rs1 rs2 rs3 : BitVec 5) (aop : AOp) (ret : Bool) (w : Bundle)
  /-- S-slot invalidation of the instruction cache and the instruction TLB (R85). -/
  | iflush (core : Fin 512) (w : Bundle)
  /-- S-slot invalidation of the data-cache lines of a range (R98). -/
  | dinv (core : Fin 512) (rs1 rs2 : BitVec 5) (w : Bundle)
  /-- S-slot read of the state of a transfer tag (R90). -/
  | rdtag (core : Fin 512) (rd : BitVec 5) (imm : BitVec 32) (w : Bundle)
  /-- B-slot conditional branch, resolved at X2 (R86). -/
  | beqBneBltBgeBltuBgeu (core : Fin 512) (c : BCond) (rs1 rs2 : BitVec 5) (off : BitVec 14) (w : Bundle)
  /-- B-slot jump (R86). -/
  | j (core : Fin 512) (off : BitVec 24) (w : Bundle)
  /-- B-slot call, writing s31 (R86). -/
  | call (core : Fin 512) (off : BitVec 24) (w : Bundle)
  /-- B-slot jump to a register (R86). -/
  | jr (core : Fin 512) (rs1 : BitVec 5) (w : Bundle)
  /-- B-slot call to a register (R86). -/
  | callr (core : Fin 512) (rs1 : BitVec 5) (w : Bundle)
  /-- B-slot return to s31 (R86). -/
  | ret (core : Fin 512) (w : Bundle)
  /-- B-slot set-up of a zero-overhead loop (R86). -/
  | loop (core : Fin 512) (lc : BitVec 2) (rs1 : BitVec 5) (len : BitVec 17) (w : Bundle)
  /-- B-slot loop end (R86). -/
  | lend (core : Fin 512) (lc : BitVec 2) (w : Bundle)
  /-- B-slot wait at D2 until the named transfer tags are no longer BUSY (R86). -/
  | wait (core : Fin 512) (rs1 : BitVec 5) (w : Bundle)
  /-- B-slot HALT, which returns the core to READY once its earlier M-slot and X-slot operations complete (R82). -/
  | halt (core : Fin 512) (w : Bundle)
  /-- A waiting HALT completes; the core goes READY and reports completion to its launch source, which completes a
  LAUNCH command (R82). -/
  | haltComplete (core : Fin 512)
  /-- B-slot BRK, which traps with BREAK, or halts the core under a CORE scope (R92). -/
  | brk (core : Fin 512) (code : BitVec 16) (w : Bundle)
  /-- Vector add, subtract and multiply (R88). -/
  | vaddVsubVmul (core : Fin 512) (slot : Fin 2) (k : Fin 3) (f : VFields) (w : Bundle)
  /-- Vector fused multiply-add (R88). -/
  | vfma (core : Fin 512) (slot : Fin 2) (f : VFields) (w : Bundle)
  /-- Vector minimum and maximum (R88). -/
  | vminVmax (core : Fin 512) (slot : Fin 2) (k : Fin 2) (f : VFields) (w : Bundle)
  /-- Vector absolute value and negation (R88). -/
  | vabsVneg (core : Fin 512) (slot : Fin 2) (k : Fin 2) (f : VFields) (w : Bundle)
  /-- Vector bitwise operations (R88). -/
  | vandVorVxor (core : Fin 512) (slot : Fin 2) (k : Fin 3) (f : VFields) (w : Bundle)
  /-- Vector shifts (R88). -/
  | vshlVsraVsrl (core : Fin 512) (slot : Fin 2) (k : Fin 3) (f : VFields) (w : Bundle)
  /-- Vector exponential (R88). -/
  | vexp (core : Fin 512) (slot : Fin 2) (f : VFields) (w : Bundle)
  /-- Vector reciprocal (R88). -/
  | vrcp (core : Fin 512) (slot : Fin 2) (f : VFields) (w : Bundle)
  /-- Vector reciprocal square root (R88). -/
  | vrsqrt (core : Fin 512) (slot : Fin 2) (f : VFields) (w : Bundle)
  /-- Vector conversion to TYPE2 (R88). -/
  | vcvt (core : Fin 512) (slot : Fin 2) (f : VFields) (w : Bundle)
  /-- Vector compare into a mask (R88). -/
  | vceqVcltVcle (core : Fin 512) (slot : Fin 2) (k : Fin 3) (f : VFields) (w : Bundle)
  /-- Vector permute (R88). -/
  | vperm (core : Fin 512) (slot : Fin 2) (f : VFields) (w : Bundle)
  /-- Vector broadcast of a scalar (R88). -/
  | vbcast (core : Fin 512) (slot : Fin 2) (f : VFields) (w : Bundle)
  /-- Vector select by mask (R88). -/
  | vsel (core : Fin 512) (slot : Fin 2) (f : VFields) (w : Bundle)
  /-- Vector move (R88). -/
  | vmov (core : Fin 512) (slot : Fin 2) (f : VFields) (w : Bundle)
  /-- Vector reduction into a scalar register (R88). -/
  | vrsumVrmaxVrmin (core : Fin 512) (slot : Fin 2) (k : Fin 3) (f : VFields) (w : Bundle)
  /-- Vector scratchpad load of 256 bytes (R88). -/
  | vld (core : Fin 512) (slot : Fin 2) (f : VFields) (w : Bundle)
  /-- Vector scratchpad store under a mask (R88). -/
  | vst (core : Fin 512) (slot : Fin 2) (f : VFields) (w : Bundle)
  /-- Operations on whole masks (R88). -/
  | mandMorMxorMnot (core : Fin 512) (slot : Fin 2) (k : Fin 4) (f : VFields) (w : Bundle)
  /-- The matrix engine executes MX_CFG, setting the mode and PAN_BP and clearing accumulators or flags (R116). -/
  | mxCfg (core : Fin 512)
  /-- The matrix engine loads activation rows and token scales (R123). -/
  | mxLda (core : Fin 512) (ecc : Ecc)
  /-- The matrix engine multiplies a weight-slab stream into the accumulators; a mode error or a bad block ends it
  with a context-ending event (R121). -/
  | mxMmw (core : Fin 512) (ecc : Ecc)
  /-- The matrix engine multiplies activations by B chunks (R128). -/
  | mxMma (core : Fin 512) (ecc : Ecc)
  /-- The matrix engine reads the accumulators out to scratchpad, rounding once (R130). -/
  | mxRd (core : Fin 512) (drop : List Nat)
  /-- The matrix engine writes the flags record and may clear the sticky flags (R131). -/
  | mxStf (core : Fin 512) (drop : List Nat)
  /-- An X-slot transfer between the unified range and the scratchpad is dispatched (R89). -/
  | xXfer (core : Fin 512) (tag : BitVec 6) (toUnified : Bool) (rs : BitVec 5) (saddr len : BitVec 14) (w : Bundle)
  /-- An X-slot copy within the scratchpad is dispatched (R89). -/
  | xScopy (core : Fin 512) (tag : BitVec 6) (src dst len : BitVec 14) (w : Bundle)
  /-- An X_XFER or X_SCOPY finishes writing its destination; its tag clears BUSY and records STATUS and WCOLL (R90).
  -/
  | transferComplete (core : Fin 512) (tag : BitVec 6) (data : List Byte) (failed : Bool) (drop : List Nat) (ecc : Ecc)
  /-- The data of an outstanding LDU miss arrive; the stalled bundle proceeds, and any run-ahead ends (R101). -/
  | lduDataReturn (core : Fin 512) (rd : BitVec 5) (data : List Byte)
  /-- A bundle has waited RUNAHEAD_THRESH cycles on an LDU miss, and the core enters run-ahead (R99). -/
  | runaheadEntry (core : Fin 512) (w : Bundle)
  /-- Run-ahead reaches RUNAHEAD_MAX × 16 bundles or its store buffer is full, and issue stops until the data arrive
  (R102). -/
  | runaheadLimit (core : Fin 512)
  /-- A parity error in the core's pipeline or engine state fences the core (R107). -/
  | pipelineParityError (core : Fin 512)
  /-- A RUNNING core retires nothing for CORE_WDOG.LIMIT TICKs without an outside wait, and is fenced (R107). -/
  | coreWatchdogExpiry (core : Fin 512)
  /-- A write of CORE_FENCE.FENCE fences the core with cause COMMAND (R108). -/
  | fence (req : Fin 18) (core : Fin 512)
  /-- The fenced core's scratchpad clear ends, or its failure is recorded (R108). -/
  | fenceClearDone (core : Fin 512) (failed : Bool)
  /-- A write of CORE_FENCE.UNFENCE after a passing BIST returns the core to IDLE and clears its scratchpad (R110). -/
  | unfence (req : Fin 18) (core : Fin 512)
  /-- An X-slot request that the Assay compare a narrow tile with its reference (R143). -/
  | xAssay (core : Fin 512) (tag : BitVec 6) (nsrc rsrc : BitVec 14) (rowsM1 : BitVec 4) (layer : BitVec 8) (ord : BitVec 25) (w : Bundle)
  /-- The Assay unit finishes a granted comparison, records E and completes the tag (R145). -/
  | assayCompareDone (die : Fin 8) (ecc : Ecc)
  /-- An X-slot request for the sample-selection record of a block of ordinals (R142). -/
  | xAsel (core : Fin 512) (tag : BitVec 6) (dst : BitVec 14) (layer : BitVec 8) (obase : BitVec 16) (w : Bundle)
  /-- A write of ASSAY_LSTATE.CLEAR at the helm returns the layer to NARROW at the next boundary (R152). -/
  | clear (req : Fin 18) (ctx : Fin 16) (layer : Fin 256)
  /-- A write of ASSAY_LSTATE.FORCE_WIDEN at the helm makes a widen request with the greatest overshoot (R150). -/
  | forceWiden (req : Fin 18) (ctx : Fin 16) (layer : Fin 256)
  /-- The patrol scrubber reads a line in an idle cycle, correcting or attributing errors (R174). -/
  | basinScrubRead (die : Fin 8) (line : BitVec 18) (ecc : Ecc) (again : Bool)
  /-- A scratchpad or Basin clear completes and held requests proceed; a failed read-back is recorded (R175). -/
  | clearDone (die : Fin 8) (core : Option (Fin 64)) (failed : Bool)
  /-- A Sluice subpage transfer completes; the copy advances its state, or a stale fill restarts (R183). -/
  | sluiceTransferDone (ctx : Fin 16) (sub : BitVec 32) (data : List Byte) (failed ue : Bool)
  /-- A RELEASING copy is freed once no reader holds the old epoch and the dies have acknowledged (R189). -/
  | copyRelease (ctx : Fin 16)
  /-- A write of SLUICE_CTRL.LST_RELOAD rereads the layer schedule table (R191). -/
  | lstReload (req : Fin 18) (ctx : Fin 16) (far : List Byte)
  /-- An X-slot layer mark starts staging for the layers that lead it (R193). -/
  | xLmark (core : Fin 512) (tag : BitVec 6) (layer : BitVec 8) (w : Bundle)
  /-- An X-slot wait until the layer's ranges are readable from T1 or T2 (R193). -/
  | xLwait (core : Fin 512) (tag : BitVec 6) (layer : BitVec 8) (w : Bundle)
  /-- A layer's ranges become readable and the X_LWAIT tag completes (R193). -/
  | lwaitComplete (core : Fin 512) (tag : BitVec 6)
  /-- An X_LWAIT exceeds SLUICE_TIER_WAIT_MAX; EV_SLUICE_LATE is raised and the wait continues (R194). -/
  | sluiceLate (ctx : Fin 16) (layer : BitVec 8)
  /-- A KV page read or transfer from T3 is late, and every request that maps the page ends with TIER_FAULT (R199). -/
  | tierWaitExpiry (ctx : Fin 16) (sub : BitVec 32)
  /-- Every 100 ms a write-back that is stuck after failing is retried (R203). -/
  | writebackRetry (ctx : Fin 16)
  /-- SLUICE_CMD STAGE makes copies in T1 or T2, optionally pinned (R204). -/
  | stage (req : Fin 18) (ctx : Fin 16) (tier : BitVec 2) (pin : Bool)
  /-- SLUICE_CMD EVICT writes back copies and switches them to their homes (R204). -/
  | evict (req : Fin 18) (ctx : Fin 16) (tier : BitVec 2) (pin : Bool)
  /-- SLUICE_CMD MOVE re-homes subpages to another tier with an epoch switch (R204). -/
  | move (req : Fin 18) (ctx : Fin 16) (tier : BitVec 2) (pin : Bool)
  /-- SLUICE_CMD WRITEBACK writes back dirty copies and keeps them mapped (R204). -/
  | writeback (req : Fin 18) (ctx : Fin 16) (tier : BitVec 2) (pin : Bool)
  /-- XLAT_UQ_OP ALLOC queues the allocation of zeroed homes (R221). -/
  | alloc (req : Fin 18) (ctx : Fin 16) (tier : BitVec 2) (count : BitVec 24)
  /-- XLAT_UQ_OP MAP_POOLED queues homing of subpages in pooled T3 (R221). -/
  | mapPooled (req : Fin 18) (ctx : Fin 16) (tier : BitVec 2) (count : BitVec 24)
  /-- XLAT_UQ_OP FREE queues the release of homes and copies (R221). -/
  | free (req : Fin 18) (ctx : Fin 16) (tier : BitVec 2) (count : BitVec 24)
  /-- XLAT_UQ_OP PERM queues a rewrite of permissions (R221). -/
  | perm (req : Fin 18) (ctx : Fin 16) (tier : BitVec 2) (count : BitVec 24)
  /-- XLAT_UQ_OP SEQ_SET queues the writing of a sequence range descriptor (R221). -/
  | seqSet (req : Fin 18) (ctx : Fin 16) (tier : BitVec 2) (count : BitVec 24)
  /-- XLAT_UQ_OP SEQ_CLEAR queues the clearing of a descriptor (R221). -/
  | seqClear (req : Fin 18) (ctx : Fin 16) (tier : BitVec 2) (count : BitVec 24)
  /-- XLAT_UQ_OP INV_NOW in host-assisted mode invalidates TLB entries at once (R227). -/
  | invNow (req : Fin 18) (ctx : Fin 16) (tier : BitVec 2) (count : BitVec 24)
  /-- Every die has acknowledged INV_NOW, and XLAT_UQ_RESULT.DONE is set (R227). -/
  | invNowAcknowledged (ctx : Fin 16)
  /-- A write of XLAT_CTRL.ADVANCE asks that the queue be applied for a context that runs no steps (R226). -/
  | advance (req : Fin 18) (ctx : Fin 16)
  /-- No core of the context is RUNNING, so the pending ADVANCE applies the queue and advances the epoch (R226). -/
  | advanceApply (ctx : Fin 16)
  /-- An epoch below the current one retires once no access or private copy holds it (R224). -/
  | epochRetire (ctx : Fin 16)
  /-- A page-table walk completes and installs its leaf table, unless an invalidation intervened (R213). -/
  | pageWalkDone (die : Fin 8) (ctx : Fin 16) (page : BitVec 27) (ecc : Ecc)
  /-- A write of ATTN_CTRL.MAP_RELOAD reads the pair map, for use from the next boundary (R233). -/
  | mapReload (req : Fin 18) (ctx : Fin 16) (far : List Byte)
  /-- An X-slot attention walk request (R237). -/
  | xAwalk (core : Fin 512) (tag : BitVec 6) (desc dst : BitVec 14) (w : Bundle)
  /-- The walker grants a walk, reads its descriptor and starts selecting pages (R239). -/
  | awalkGrant (die : Fin 8) (far : List Byte) (ecc : Ecc)
  /-- A walk delivers its pages and record and completes its tag, or ends early with a fault status (R238). -/
  | awalkComplete (core : Fin 512) (tag : BitVec 6) (far : List Byte) (k : Fin 8) (off : BitVec 16) (ecc : Ecc) (drop : List Nat)
  /-- An X-slot post of new KV rows to the Rake staging buffer (R241). -/
  | xRkpost (core : Fin 512) (tag : BitVec 6) (src : BitVec 14) (slot : BitVec 10) (gen : BitVec 8) (pair : BitVec 12) (pos : BitVec 20) (countM1 : BitVec 8) (w : Bundle)
  /-- The posted rows have been copied and the post's tag completes (R241). -/
  | rkpostCopyDone (core : Fin 512) (tag : BitVec 6) (ecc : Ecc)
  /-- RAKE_CMD FORK shares a prefix's pages with another sequence at the next boundary (R253). -/
  | fork (req : Fin 18) (ctx : Fin 16)
  /-- The Rakes finish scattering a committed step's rows and summaries and submit allocations and copy-on-writes
  (R244). -/
  | scatterComplete (ctx : Fin 16)
  /-- The member applies staging checks and the translation queue, advances the epoch and sends SCATTERED (R188). -/
  | stepBoundary (ctx : Fin 16) (far : List Byte)
  /-- A write of BARGE_CTRL.TAB_RELOAD rereads the barge tables at the next boundary (R260). -/
  | tabReload (req : Fin 18) (ctx : Fin 16)
  /-- An X-slot hand-off of route records as rows of a half (R263). -/
  | xBsend (core : Fin 512) (tag : BitVec 6) (src : BitVec 14) (layer : BitVec 8) (half : Bool) (rowbase : BitVec 10) (count : BitVec 7) (total : BitVec 10) (w : Bundle)
  /-- A half closes and takes a free tag; replicas are chosen, gates renormalised, headers written and dispatch parts
  sent (R265). -/
  | bargeClose (ctx : Fin 16) (layer : BitVec 8) (half : Bool) (far : List Byte)
  /-- A host's Barge engine receives a dispatch part and drops, writes or holds it (R270). -/
  | dispatchPart (p : Part)
  /-- An X-slot wait for a half, on the sender side or the host side (R271). -/
  | xBwait (core : Fin 512) (tag : BitVec 6) (dst : BitVec 14) (layer : BitVec 8) (half side : Bool) (host : BitVec 12) (w : Bundle)
  /-- The awaited parts have all arrived; the wait record is written and the tag completes (R271). -/
  | bwaitComplete (core : Fin 512) (tag : BitVec 6) (drop : List Nat)
  /-- An X-slot return of a replica's outputs to the senders (R272). -/
  | xBret (core : Fin 512) (tag : BitVec 6) (host : BitVec 12) (half : Bool) (w : Bundle)
  /-- A sender receives a return part, which is accepted, consumed on a DRAINING tag, or refused (R275). -/
  | returnPart (p : Part)
  /-- Parts are still missing BARGE_RET_TIMEOUT after close or wait; waits complete with status 1, EV_BARGE_TIMEOUT is
  raised and REPLAY is sent (R277). -/
  | bargeRetTimeout (ctx : Fin 16) (layer : BitVec 8) (half side : Bool)
  /-- A DRAINING barge becomes FREE BARGE_DRAIN_MAX after its abandonment (R276). -/
  | bargeDrainMax (ctx : Fin 16) (tag : BitVec 12)
  /-- A write of BARGE_DOWN_CLR at the helm removes down-list entries at the next boundary (R278). -/
  | bargeDownClr (req : Fin 18) (ctx : Fin 16) (bits : BitVec 16)
  /-- A rebalance epoch ends after STEPS committed steps; the helm sums load and may revise placement (R281). -/
  | rebalanceEpoch (ctx : Fin 16) (others spares : List (Nat × Nat × Nat))
  /-- A new replica's weights are copied, and it enters the directories at the next boundary (R282). -/
  | replicaCopyDone (ctx : Fin 16) (layer : BitVec 8) (expert : BitVec 12) (index : Fin 8) (data : List Byte) (failed : Bool)
  /-- An ADMIT command's admission record is read and checked, and the entry enters PREFILL (R290). -/
  | sqAdmit (ld : Fin 16) (cid : BitVec 16) (rec' far : List Byte) (failed : Bool)
  /-- A CANCEL command from the ring sets CANCEL_PENDING on the entry (R309). -/
  | sqCancel (ld : Fin 16) (cid : BitVec 16)
  /-- MANI_CMD CANCEL sets CANCEL_PENDING on the entry (R309). -/
  | maniCancel (req : Fin 18) (ctx : Fin 16)
  /-- MANI_CMD DRAFT_SET sets DRAFT_MAX and DRAFT_LEN and clears DRAFT_OFF (R313). -/
  | draftSet (req : Fin 18) (ctx : Fin 16)
  /-- A member receives a step broadcast, writes its buffer and prepares the launch (R300). -/
  | bcast (m : StepMsg)
  /-- Every core of the context is READY, and the member launches them at STEP_ENTRY_PC (R300). -/
  | stepLaunch (ctx : Fin 16)
  /-- Every core has returned from the step's launch, and the member sends READY with its faults and Assay reports
  (R244). -/
  | memberReady (ctx : Fin 16)
  /-- The helm receives a READY message for the current instance (R244). -/
  | ready (m : StepMsg)
  /-- Once the last READY is in and the rings have room, the helm settles entries, charges Tolls, writes tokens and
  ends, and sends COMMIT (R303). -/
  | helmCommit (ctx : Fin 16) (far : List Byte)
  /-- A member receives COMMIT, after which the step is never replayed and its Rakes begin the scatter (R244). -/
  | commit (m : StepMsg)
  /-- The helm receives SCATTERED; on the last one it frees slots, refills Tolls, applies boundary changes and builds
  and broadcasts the next step (R293). -/
  | scattered (m : StepMsg) (resident failed : List Nat)
  /-- The helm receives REPLAY before COMMIT and issues the next instance of the step (R305). -/
  | replay (m : StepMsg)
  /-- Receipt of a convoy-end message ends the context (R508). -/
  | convoyEnd (m : StepMsg)
  /-- Every 100 µs, while the Tolls hold out every eligible entry, the step builder runs again (R294). -/
  | buildRetry (ctx : Fin 16)
  /-- The last READY has not arrived READY_TIMEOUT after the broadcast; EV_STEP_STALL is raised (R306). -/
  | readyTimeout (ctx : Fin 16)
  /-- A write of a Toll LEVEL sets the integer part, zeroes the fraction and reruns a held builder (R298). -/
  | tollLevelWrite (req : Fin 18) (ctx : Fin 16) (decode : Bool) (level : Word32)
  /-- An X-slot sample request to the Crystalliser (R318). -/
  | xXsamp (core : Fin 512) (tag : BitVec 6) (desc dst : BitVec 14) (w : Bundle)
  /-- A sample request is granted to a lane, or completes at once with STATUS 4 or 7 (R320). -/
  | xsampGrant (die : Fin 8)
  /-- A lane finishes a draw, writes the result record and sends the result to the helm (R321). -/
  | xsampDrawDone (core : Fin 512) (tag : BitVec 6) (faults : Nat) (far : List Byte) (drop : List Nat)
  /-- A write of LINK_EN enables links, which start training, or disables them, which go DOWN with cause 8 (R341). -/
  | linkEnWrite (req : Fin 18) (inst : Fin 2) (value : BitVec 16)
  /-- A link completes training and goes UP or MISCABLED with its peer recorded (R338). -/
  | linkTrainingDone (k : Fin 32) (light : BitVec 8) (node : BitVec 12) (slice : BitVec 8) (member : BitVec 3) (plane : Bool) (plan : BitVec 2) (peerLink : BitVec 5)
  /-- A link has not finished training by 300 ms; EV_LINK_TRAIN_FAIL is raised and it retries each second (R338). -/
  | linkTrainingTimeout (k : Fin 32) (light : BitVec 8)
  /-- Light or FEC lock is lost on a wavelength for more than 1 µs, and the link goes DOWN (R339). -/
  | lossOfLight (k : Fin 32) (light : BitVec 8)
  /-- Uncorrectable FEC codewords exceed FEC_UE_MAX within 1 ms, and the link goes DOWN (R339). -/
  | fecUeThreshold (k : Fin 32)
  /-- Flit replays exceed REPLAY_MAX within 1 ms, and the link goes DOWN (R339). -/
  | replayThreshold (k : Fin 32)
  /-- There has been no acknowledgement progress for 50 µs with flits outstanding, and the link goes DOWN (R339). -/
  | ackProgressTimeout (k : Fin 32)
  /-- RETRAIN_DELAY after going DOWN, a link re-enters TRAINING (R341). -/
  | retrainDelayExpiry (k : Fin 32)
  /-- A flit arrives and is checked by CRC and sequence; it is accepted or NAKed, and its credits and acknowledgements
  are taken (R345). -/
  | flitReceive (k : Fin 32) (hdr : Word64) (data : List Byte) (crc : Word64) (ce ue : BitVec 8)
  /-- A packet passes the Lock checks and is delivered, forwarded on a chosen port, or dropped (R357). -/
  | packetArrival (k : Fin 32) (p : Packet) (env : Surround) (sub2 sub3 : BitVec 4)
  /-- A peer's IDENT identity packet is received (R351). -/
  | ident (k : Fin 32) (node : BitVec 12) (slice : BitVec 8) (member : BitVec 3) (plane : Bool) (plan : BitVec 2) (peerLink : BitVec 5)
  /-- LINK_MGMT DOWN_NOTICE takes the link DOWN at once with the cause carried (R351). -/
  | downNotice (k : Fin 32) (cause : BitVec 4)
  /-- LINK_MGMT RETRAIN_REQUEST starts training of a DOWN link when AUTO_RETRAIN is 1 (R351). -/
  | retrainRequest (k : Fin 32)
  /-- A transit query is answered from the committed grants and pins them on a yes (R361). -/
  | transitQuery (k : Fin 32) (qid : BitVec 16) (slice : BitVec 8) (ranges : List (BitVec 12 × BitVec 12))
  /-- An answer to this module's transit query is received (R361). -/
  | transitAnswer (k : Fin 32) (qid : BitVec 16) (yes : Bool)
  /-- The pins made by an earlier answer are released (R351). -/
  | pinRelease (k : Fin 32) (qid : BitVec 16)
  /-- A time source answers a time request with TIME_RESP (R364). -/
  | timeReq (p : Packet) (sub2 sub3 : BitVec 4)
  /-- A member takes a time answer, computes offset and delay, trims its rate and judges alignment (R364). -/
  | timeResp (p : Packet) (sub : BitVec 4)
  /-- Each PERIOD × 100 µs the member sends a time request, and after 16 periods without a valid exchange it reports
  itself unaligned (R364). -/
  | timeExchangePeriod (sub : BitVec 4)
  /-- LOCK_CMD LOAD reads a Lock image by DMA and checks it locally (R359). -/
  | lockLoad (req : Fin 18) (far : List Byte)
  /-- Once transit queries are answered or 10 ms have passed, the configuration is refused or swapped in at once
  (R360). -/
  | lockCommit
  /-- LOCK_CMD ISOLATE sets the slice tag to 0, drops traffic and withdraws grants and pins (R362). -/
  | isolate (req : Fin 18)
  /-- A destination receives a LOAD, STORE or AMO request and takes it in SEQ order, answers a duplicate, or drops it
  (R376). -/
  | nodeRequest (p : Packet) (env : Surround)
  /-- A home agent applies one slot of operations to a line, combining non-returning arithmetic operations (R381). -/
  | homeAgentSlot (line : BitVec 34) (env : Surround)
  /-- The source receives a response and delivers data or status, or drops it for an old generation (R372). -/
  | resp (p : Packet) (env : Surround)
  /-- A destination creates or replaces a pair's state and sends RESYNC_ACK (R377). -/
  | resync (p : Packet) (env : Surround)
  /-- The source receives RESYNC_ACK and resends the pair's unanswered requests (R377). -/
  | resyncAck (p : Packet) (env : Surround)
  /-- The oldest request of a pair, or a RESYNC, waits MSF_REQ_TIMEOUT and is resent; after MSF_RETRY the requests end
  with TIMEOUT (R376). -/
  | msfReqTimeout (node : BitVec 12)
  /-- A write of MSF_CTRL.IMP_RELOAD rereads the import table (R370). -/
  | impReload (req : Fin 18) (ctx : Fin 16) (far : List Byte)
  /-- MSF_EXP_CMD SET writes or replaces an exported region (R369). -/
  | msfExpSet (req : Fin 18) (ctx : Fin 16)
  /-- MSF_EXP_CMD CLEAR removes an exported region (R369). -/
  | msfExpClear (req : Fin 18) (ctx : Fin 16)
  /-- An X-slot PUT, GET or SEND takes an identifier and sends its packets (R384). -/
  | xMsg (core : Fin 512) (tag : BitVec 6) (desc : BitVec 14) (w : Bundle)
  /-- A destination receives a PUT packet, judges it against its record and places it (R385). -/
  | put (p : Packet) (env : Surround)
  /-- A destination receives a GET and returns GET_DATA (R385). -/
  | get (p : Packet) (env : Surround)
  /-- The source receives GET_DATA and writes it locally (R385). -/
  | getData (p : Packet) (env : Surround)
  /-- A destination receives a SEND packet and reserves or fills a queue slot, or refuses it with QFULL (R386). -/
  | send (p : Packet) (env : Surround)
  /-- The source receives MSG_ACK; the message completes, writes its descriptor and frees its identifier (R385). -/
  | msgAck (p : Packet) (env : Surround)
  /-- No MSG_ACK arrives MSG_TIMEOUT after the last packet; the message is resent, or ends with TIMEOUT (R390). -/
  | msgTimeout (id : BitVec 12)
  /-- The destination abandons an unfinished use after MSG_TIMEOUT × (MSG_RETRY + 2) (R390). -/
  | msgUseAbandon (node id : BitVec 12)
  /-- The host port trains to the best configuration both partners support and records UIO and the flit type (R392).
  -/
  | hostLinkTrain (offers : BitVec 4) (lopt uio reversed : Bool)
  /-- A write of WHARF_CTRL.RETRAIN retrains the host link (R400). -/
  | retrain (req : Fin 18)
  /-- A write of WHARF_LD_EN enables or disables LDs, refusing the disabling of a context that is not quiesced (R395).
  -/
  | wharfLdEnWrite (req : Fin 18) (en : BitVec 16)
  /-- The host writes a ring doorbell, which is taken, or ignored with DB_ERR (R403). -/
  | doorbellWrite (ld : Fin 16) (k : Fin 4) (value : Word32) (size : BitVec 4)
  /-- With room in the CQ and fewer than 64 outstanding, the module fetches the next SQ entry and starts it in order
  (R404). -/
  | sqFetch (ld : Fin 16) (entry : List Byte)
  /-- SQ NOP command (R405). -/
  | nop (ld : Fin 16) (cid : BitVec 16)
  /-- An SQ LAUNCH starts a READY core of the context (R405). -/
  | sqLaunch (ld : Fin 16) (cid : BitVec 16)
  /-- An SQ COPY moves data between host memory and the unified range (R405). -/
  | copy (ld : Fin 16) (cid : BitVec 16)
  /-- A COPY finishes or fails and writes its completion (R406). -/
  | copyDone (ld : Fin 16) (cid : BitVec 16) (data : List Byte) (ecc : Ecc)
  /-- A CXL.mem read of HBM through the HDM window, refused outside the LD's holdings (R398). -/
  | cxlMemRead (ld : Fin 16) (dpa : BitVec 40) (k : BitVec 7) (ecc : Ecc)
  /-- A CXL.mem write of HBM, which counts as a subpage write (R399). -/
  | cxlMemWrite (ld : Fin 16) (dpa : BitVec 40) (data : List Byte)
  /-- A UIO completion for a pooled T3 access arrives, completing or failing the transfer (R400). -/
  | uioCompletion (ctx : Fin 16) (sub : BitVec 32) (write : Bool) (n : BitVec 17) (data : List Byte) (ok last : Bool)
  /-- A write of LD_CTRL.RINGS_EN from 0 to 1 zeroes every ring index (R413). -/
  | ringsEnWrite (req : Fin 18) (ld : Fin 16) (enabled : Bool)
  /-- TIME µs pass after the first unsignalled ring entry, and the MSI-X message is sent (R410). -/
  | irqTimer (ld : Fin 16) (ring : Fin 4)
  /-- Room returns in the EVQ after drops, and one EV_LD_EVQ_OVERFLOW record is written (R409). -/
  | evqOverflowRecord (ld : Fin 16)
  /-- The link partner starts a loopback in which the module follows (R501). -/
  | pcsLoopbackFollower
  /-- SPDM GET_VERSION on LD0 (R477). -/
  | getVersion
  /-- SPDM GET_CAPABILITIES (R477). -/
  | getCapabilities
  /-- SPDM NEGOTIATE_ALGORITHMS (R477). -/
  | negotiateAlgorithms
  /-- SPDM GET_DIGESTS (R477). -/
  | getDigests
  /-- SPDM GET_CERTIFICATE, which returns the chain and the certificate built at boot (R477). -/
  | getCertificate (slot : BitVec 3) (offset length : BitVec 16)
  /-- SPDM CHALLENGE, signed with the key that it certifies (R479). -/
  | challenge (transcript : List Byte)
  /-- SPDM GET_MEASUREMENTS, which digests the measurements when served (R478). -/
  | getMeasurements (index : BitVec 8) (signed : Bool) (transcript : List Byte)
  /-- The mailbox command Identify Memory Device (R396). -/
  | identifyMemoryDevice (ld : Fin 16)
  /-- The mailbox command Get Partition Info (R396). -/
  | getPartitionInfo (ld : Fin 16)
  /-- The mailbox command Get Supported Logs (R396). -/
  | getSupportedLogs (ld : Fin 16)
  /-- The mailbox command Get Log for the Command Effects Log (R396). -/
  | getLog (ld : Fin 16) (commandEffects : Bool)
  /-- The FM API command Get LD Info (R393). -/
  | getLdInfo
  /-- The FM API command Get LD Allocations (R393). -/
  | getLdAllocations
  /-- CTX_CMD ENABLE assigns the requested cores and makes the context ACTIVE (R417). -/
  | enable (req : Fin 18) (ctx : Fin 16)
  /-- CTX_CMD QUIESCE stops new work and makes the context QUIESCING (R416). -/
  | quiesce (req : Fin 18) (ctx : Fin 16)
  /-- Nothing of the context remains in flight, and it becomes QUIESCED (R415). -/
  | ctxQuiesced (ctx : Fin 16)
  /-- CTX_CMD RESUME returns the context to ACTIVE (R417). -/
  | ctxResume (req : Fin 18) (ctx : Fin 16)
  /-- CTX_CMD DISABLE resets the context, releases its cores and zeroes its quotas (R417). -/
  | disable (req : Fin 18) (ctx : Fin 16)
  /-- CTX_CMD SET_CORES makes the core set equal CTX_CORES_REQ (R417). -/
  | setCores (req : Fin 18) (ctx : Fin 16)
  /-- A write of CTX_ACCT_CTRL.SNAP copies the accounting counters and TICK into the snapshot registers (R422). -/
  | snap (req : Fin 18) (ctx : Fin 16)
  /-- The module posts a duty request once the request ring has room (R424). -/
  | dutyRequestPost (ctx : Fin 16)
  /-- The host advances DUTY_ANS_TAIL, and answers are read and matched to outstanding requests (R427). -/
  | dutyAnsTailWrite (req : Fin 18) (ctx : Fin 16) (tail : Word32) (far : List Byte)
  /-- A duty request times out; it is handled, EV_DUTY_TIMEOUT is raised and the duty may fall back (R428). -/
  | dutyTimeout (ctx : Fin 16) (k : BitVec 13)
  /-- A write that changes CTRL.DUTY_MODE withdraws the outstanding requests of the earlier mode (R423). -/
  | dutyModeWrite (req : Fin 18) (duty : Fin 7) (inst : Fin 16) (assisted : Bool)
  /-- Every 10 µs the Weir loop computes the limit, power and N per die, boost and FLOOR (R436). -/
  | controlTick (pest matrix : Nat) (issued : List Nat)
  /-- Each 1 ms sample judges divergence and over-cap and attributes the sample's energy (R449). -/
  | powerSample (mv ma10 : Nat) (shares : List (Nat × Nat)) (other : Nat)
  /-- Every 100 ms firmware recalibrates G (R433). -/
  | gainUpdate
  /-- The 10 µs average input exceeds 2,400 W; N is halved, boost revoked and the hold starts (R438). -/
  | currentGuardTrip (avg : Nat)
  /-- The 100 µs hold ends and the ceiling NG no longer applies (R438). -/
  | currentHoldEnd
  /-- LD0 writes PWR_CAP.CAP, which takes effect at the next control tick (R439). -/
  | pwrCapWrite (req : Fin 18) (cap : BitVec 12)
  /-- No heartbeat for the orphan timeout; the module enters ORPHAN and applies the orphan cap (R441). -/
  | orphanTimeout
  /-- Every 100 µs the sensors are sampled and NT per die is updated (R443). -/
  | tempSample (dies iods hbms oes : List Int) (inlet outlet : Int)
  /-- The trip halt completes, or 2 ms pass, and THERM_TRIP_L asserts (R42). -/
  | tripHaltComplete
  /-- 5 ms after THERM_TRIP_L, the main conversion turns off (R42). -/
  | tripPowerOff
  /-- The inlet has read above INLET_MAX for 1 s, and a coolant fault is in force (R444). -/
  | coolantInletHigh
  /-- The outlet has read above THERM_OUTLET_MAX for 1 s, and a coolant fault is in force (R444). -/
  | coolantOutletHigh
  /-- 10 s after its conditions clear, the coolant fault ends (R444). -/
  | coolantFaultEnd
  /-- The input stays below 54 V for 50 µs; the module enters SAG and applies the alert cap (R446). -/
  | inputSag (mv : Nat)
  /-- After 10 ms at or above 54.5 V, the module leaves SAG (R446). -/
  | sagClear
  /-- In host-assisted power policy, a KIND 6 duty request is posted every 100 ms (R451). -/
  | powerPolicyPeriod
  /-- A write of GAUGE_CTRL.FREEZE freezes the die's core Gauges (R460). -/
  | gaugeFreeze (req : Fin 18) (die : Fin 8) (frozen : Bool)
  /-- GAUGE_CTRL.SNAP takes a snapshot of the die's core Gauges (R461). -/
  | gaugeSnap (req : Fin 18) (die : Fin 8)
  /-- GAUGE_MCTRL.FREEZE freezes the module Gauges (R460). -/
  | gaugeMfreeze (req : Fin 18) (frozen : Bool)
  /-- GAUGE_MCTRL.SNAP takes a snapshot of the module Gauges (R461). -/
  | gaugeMsnap (req : Fin 18)
  /-- GAUGE_MCTRL.FREEZE_ALL freezes every Gauge in the same cycle (R460). -/
  | freezeAll (req : Fin 18) (frozen : Bool)
  /-- GAUGE_MCTRL.SNAP_ALL takes a snapshot of every Gauge (R461). -/
  | snapAll (req : Fin 18)
  /-- A write of GAUGE_CLR clears core Gauges (R462). -/
  | gaugeClr (req : Fin 18) (die : Fin 8) (bits : BitVec 16) (all : Bool)
  /-- A write of GAUGE_MCLR clears module Gauges (R462). -/
  | gaugeMclr (req : Fin 18) (bits : BitVec 64)
  /-- A write of GAUGE_SEL_ALL sets one programmable selection on all 64 cores of the die (R457). -/
  | gaugeSelAll (req : Fin 18) (die : Fin 8) (event : BitVec 8) (index : Fin 8)
  /-- A Gauge counts past 2^48 − 1, wraps and sets its overflow bit, raising EV_GAUGE_OVF if enabled (R459). -/
  | gaugeWrap (inst : Fin 9) (core gauge : Fin 64) (amount : BitVec 48)
  /-- An X-slot write of the core's sixteen Gauges to scratchpad (R465). -/
  | xGsnap (core : Fin 512) (tag : BitVec 6) (dst : BitVec 14) (w : Bundle)
  /-- SEC_CMD SUBMIT reads a token by DMA and checks it (R482). -/
  | submit (req : Fin 18) (far : List Byte)
  /-- An accepted OPEN token opens debug scopes after any clearing (R484). -/
  | tokenOpen
  /-- An accepted TRANSITION token clears as required and blows lifecycle fuses (R469). -/
  | tokenTransition
  /-- An accepted ENROLL token enrols a key into an owner slot (R483). -/
  | tokenEnroll
  /-- An accepted REVOKE token blows REVOKED for a slot (R483). -/
  | tokenRevoke
  /-- An accepted PROVISION token writes the device secret and blows lifecycle fuse 1 (R469). -/
  | tokenProvision
  /-- SEC_CMD PUBKEY writes the identity public key to host memory (R491). -/
  | pubkey (req : Fin 18)
  /-- SEC_CMD CERT_WRITE stores the certificate chain once, in PROVISIONED (R476). -/
  | certWrite (req : Fin 18) (far : List Byte)
  /-- The clearing a scope needs completes and the scope opens (R484). -/
  | scopeClearDone
  /-- A write of DBG_CLOSE closes every scope and resumes halted cores (R486). -/
  | dbgClose (req : Fin 18)
  /-- DBG_CORE_CMD HALT stops the selected core at a bundle boundary (R488). -/
  | dbgHalt (req : Fin 18)
  /-- DBG_CORE_CMD RESUME returns a halted core to RUNNING (R488). -/
  | dbgResume (req : Fin 18)
  /-- DBG_CORE_CMD STEP retires one bundle and halts again (R488). -/
  | dbgStep (req : Fin 18)
  /-- A read or write of DBG_REG_DATA reads or sets a word of a halted core's register (R488). -/
  | dbgRegDataAccess (req : Fin 18) (write : Bool) (data : BitVec 64)
  /-- DBG_MEM_CMD READ makes one aligned 8-byte read under MEM or CORE (R485). -/
  | dbgMemRead (req : Fin 18) (ecc : Ecc)
  /-- DBG_MEM_CMD WRITE makes one aligned 8-byte write (R485). -/
  | dbgMemWrite (req : Fin 18) (ecc : Ecc)
  /-- BIST_CMD START checks the selection and starts a run (R494). -/
  | bistStart (req : Fin 18)
  /-- BIST_CMD ABORT stops running items and skips the rest (R495). -/
  | bistAbort (req : Fin 18)
  /-- The head item starts once concurrency, die and power allow (R496). -/
  | bistItemStart
  /-- An item ends; its record is written and a FAIL fences, retires or excludes (R498). -/
  | bistItemEnd (cls : BitVec 4) (inst : BitVec 5) (fail : BitVec 64) (subs : List (Fin 512)) (sig stored : BitVec 64)
  /-- A head item that cannot start within 1 s for power ends SKIPPED (R496). -/
  | bistPowerSkip
  /-- LOOP_CMD START runs a loop-back on one interface at one depth (R500). -/
  | loopStart (req : Fin 18)
  /-- LOOP_CMD STOP ends a running loop (R504). -/
  | loopStop (req : Fin 18)
  /-- The loop's DURATION expires; the result is recorded and EV_LOOP_DONE is raised (R504). -/
  | loopEnd (errs : List (BitVec 16)) (light dark : BitVec 8) (pass : Bool)
  /-- A write of FAULT_CTRL.CLEAR with HALTED at 0 releases FAULT_L and clears the fatal flags (R512). -/
  | faultCtrlClear (req : Fin 18)
  /-- A write of 1 to CTRL.CFG_LOCK locks the page's named registers (R522). -/
  | cfgLockSet (req : Fin 18) (page : BitVec 13)
  /-- A write of EVENT_FORCE sets EVENT bits only (R524). -/
  | eventForce (req : Fin 18) (page : BitVec 13) (bits : BitVec 6)
  /-- A read of ERRLOG_ADDR latches the held record for the requester (R525). -/
  | errlogAddrRead (req : Fin 18) (page : BitVec 13)
  /-- A read of ERRLOG_INFO returns the latched record and clears the log if it is still held (R525). -/
  | errlogInfoRead (req : Fin 18) (page : BitVec 13)
  /-- A read of the low half of a 64-bit register latches its high half for the requester (R533). -/
  | reg64LowHalfRead (req : Fin 18) (addr : BitVec 25)
  /-- A read of an RC field returns it and clears it (R3). -/
  | rcRegisterRead (req : Fin 18) (addr : BitVec 25)
  /-- A write of a register with no row of its own acts by its access type, lock and reserved-encoding rules (R3). -/
  | registerWrite (req : Fin 18) (addr : BitVec 25) (value : Word32) (be : BitVec 4) (far : List Byte) (ecc : Ecc)
  /-- A CXL.io configuration request reaches an LD and is answered with Request Retry Status, with the LD's header
  when disabled, or normally (R395). -/
  | configurationRequest (ld : Fin 16) (r : CfgRequest)
  /-- A completion for a module-issued UIO or CXL.io read does not arrive within the completion timeout, failing the
  transfer or the command with HOST_READ (R400). -/
  | completionTimeout (ld : Fin 16) (uio : Bool) (sub : BitVec 32) (cid : BitVec 16)
  /-- A FLASH_WRITE finishes writing and verifying the flash image, and BOOT_MBOX_STATUS leaves BUSY (R74). -/
  | flashWriteDone (data : Option (List Byte))
  /-- A bundle whose slot holds a reserved opcode reaches EX and raises ILLEGAL_BUNDLE, trapping the core (R79). -/
  | illegalBundle (core : Fin 512) (w : Bundle)
  /-- A bundle fetch whose address does not translate, lacks execute permission or maps to T3 raises FETCH_XLAT (R92).
  -/
  | fetchXlat (core : Fin 512) (w : Bundle)
  /-- A link that failed training re-enters TRAINING when its one-second retry interval expires (R341). -/
  | linkTrainingRetry (k : Fin 32)
  /-- The link partner exits the PCS loopback, and the module leaves follower mode and releases held LD traffic
  (R501). -/
  | pcsLoopbackExit
  /-- A fibre array is mated or capped again, so that its links may emit once more (R17). -/
  | fibreArrayMated (a : Fin 2)
  /-- SYS_REFCLK is lost while only the management domain runs; the management PLL runs free and SYSREF_OK goes to 0
  (R49). -/
  | mgmtPllFreeRun
  /-- SYS_REFCLK appears while only the management domain runs; the management PLL locks and SYSREF_OK goes to 1
  (R49). -/
  | sysRefclkReturn
  deriving DecidableEq, Repr

end Sys2Proof
end

