-- ==== Sys2Proof/Decode.lean ====
section
/-! DEFINITION. Decode.lean: the decoding of a 512-bit bundle into its six operations (R77, R79, R84-R89, R132, R142,
R193, R237, R241, R262, R271, R272, R318, R384, R464, R465), total on any bits, and the command that a word of the
table of operations spells: the table gives no row any bits, so no word spells one. -/
namespace Sys2Proof

/-- The command that a word spells by the table's bits: none, as the table lists none. -/
def decodeTableWord (_nbits _w : Nat) : Option Instr := none

/-! ### The S slot (R84, R85) -/

/-- R-format opcodes. -/
def rCode : Nat → Option ROp
  | 0x01 => some .add | 0x02 => some .sub | 0x03 => some .mul | 0x04 => some .mulh | 0x05 => some .mulhu
  | 0x06 => some .div | 0x07 => some .divu | 0x08 => some .rem | 0x09 => some .remu
  | 0x0A => some .and | 0x0B => some .or | 0x0C => some .xor
  | 0x0D => some .sll | 0x0E => some .srl | 0x0F => some .sra | 0x10 => some .slt | 0x11 => some .sltu
  | 0x12 => some .min | 0x13 => some .max | 0x14 => some .minu | 0x15 => some .maxu | 0x16 => some .sel
  | 0x28 => some .fadd | 0x29 => some .fsub | 0x2A => some .fmul | 0x2B => some .fdiv | 0x2C => some .fsqrt
  | 0x2D => some .fmin | 0x2E => some .fmax | 0x2F => some .fma | 0x30 => some .fcvtIF | 0x31 => some .fcvtFI
  | 0x32 => some .feq | 0x33 => some .flt | 0x34 => some .fle
  | _ => none

/-- I-format opcodes. -/
def iCode : Nat → Option IOp
  | 0x18 => some .addi | 0x19 => some .andi | 0x1A => some .ori | 0x1B => some .xori
  | 0x1C => some .slli | 0x1D => some .srli | 0x1E => some .srai | 0x1F => some .slti
  | _ => none

/-- Whether an I-format operation shifts: its IMM[31:6] are reserved. -/
def IOp.isShift : IOp → Bool
  | .slli | .srli | .srai => true
  | _ => false

def aCode : Nat → AOp
  | 0 => .add | 1 => .min | 2 => .max | 3 => .minu | 4 => .maxu | 5 => .swap | 6 => .cas | _ => .reserved

/-- Keeps a decoded operation if its reserved bits are 0. -/
def okS (b : Bool) (op : SOp) : SOp := if b then op else .illegal

/-- The S slot. -/
def decodeS (x : BitVec 64) : SOp :=
  let op := (x.extractLsb' 0 8).toNat
  let rd := x.extractLsb' 8 5
  let rs1 := x.extractLsb' 13 5
  let rs2 := x.extractLsb' 18 5
  let rs3 := x.extractLsb' 23 5
  let rOk := decide (x.extractLsb' 28 36 = 0#36)
  let imm := x.extractLsb' 18 32
  let iOk := decide (x.extractLsb' 50 14 = 0#14)
  let size := x.extractLsb' 18 2
  let sx := x.getLsbD 20
  let off := x.extractLsb' 21 32
  let mOk := decide (x.extractLsb' 53 11 = 0#11)
  let limm := x.extractLsb' 16 48
  let lOk := decide (x.extractLsb' 13 3 = 0#3)
  match rCode op with
  | some r => okS rOk (.r r rd rs1 rs2 rs3)
  | none =>
    match iCode op with
    | some i => okS (iOk && (!i.isShift || decide (imm.extractLsb' 6 26 = 0#26))) (.i i rd rs1 imm)
    | none =>
      match op with
      | 0x00 => .nop
      | 0x20 => okS lOk (.li rd limm)
      | 0x21 => okS (lOk && decide (limm.extractLsb' 16 32 = 0#32)) (.lih rd limm)
      | 0x38 => okS mOk (.lds rd rs1 size sx off)
      | 0x39 => okS (mOk && !sx) (.sts rd rs1 size sx off)
      | 0x3A => okS mOk (.ldu rd rs1 size sx off)
      | 0x3B => okS (mOk && !sx) (.stu rd rs1 size sx off)
      | 0x3C => okS (decide (x.extractLsb' 21 43 = 0#43) && decide ((x.extractLsb' 13 8).toNat < 16))
          (.rdgauge rd (x.extractLsb' 13 8))
      | 0x3D => okS (rOk && decide (rs1 = 0#5 ∧ rs2 = 0#5 ∧ rs3 = 0#5)) (.rdtick rd rs1 rs2 rs3)
      | 0x3E => okS mOk (.ldn rd rs1 size sx off)
      | 0x3F => okS (mOk && !sx) (.stn rd rs1 size sx off)
      | 0x40 =>
        let a := aCode (x.extractLsb' 28 3).toNat
        let ret := x.getLsbD 31
        okS (decide (x.extractLsb' 32 32 = 0#32) && decide (a ≠ .reserved) && !(decide (a = .cas) && !ret))
          (.amo rd rs1 rs2 rs3 a ret)
      | 0x41 => okS (rOk && decide (rd = 0#5 ∧ rs1 = 0#5 ∧ rs2 = 0#5 ∧ rs3 = 0#5)) (.iflush rd rs1 rs2 rs3)
      | 0x42 => okS (rOk && decide (rd = 0#5)) (.dinv rd rs1 rs2)
      | 0x43 => okS (iOk && decide (rs1 = 0#5) && decide (imm.extractLsb' 6 26 = 0#26)) (.rdtag rd rs1 imm)
      | _ => .illegal

/-! ### The B slot (R86) -/

def bCode : Nat → Option BCond
  | 0x01 => some .eq | 0x02 => some .ne | 0x03 => some .lt | 0x04 => some .ge | 0x05 => some .ltu | 0x06 => some .geu
  | _ => none

def okB (b : Bool) (op : BOp) : BOp := if b then op else .illegal

/-- The B slot. -/
def decodeB (x : BitVec 32) : BOp :=
  let op := (x.extractLsb' 0 8).toNat
  let rs1 := x.extractLsb' 8 5
  let lc := x.extractLsb' 8 2
  let hi13 := decide (x.extractLsb' 13 19 = 0#19)
  match bCode op with
  | some c => .bc c rs1 (x.extractLsb' 13 5) (x.extractLsb' 18 14)
  | none =>
    match op with
    | 0x00 => .nop
    | 0x08 => .j (x.extractLsb' 8 24)
    | 0x09 => .call (x.extractLsb' 8 24)
    | 0x0A => okB hi13 (.jr rs1)
    | 0x0B => okB hi13 (.callr rs1)
    | 0x0C => okB (decide (x.extractLsb' 8 24 = 0#24)) .ret
    | 0x10 => okB (decide (x.extractLsb' 15 17 ≠ 0#17)) (.loop lc (x.extractLsb' 10 5) (x.extractLsb' 15 17))
    | 0x11 => okB (decide (x.extractLsb' 10 22 = 0#22)) (.lend lc)
    | 0x18 => okB hi13 (.wait rs1)
    | 0x19 => okB (decide (x.extractLsb' 8 24 = 0#24)) (.halt (x.extractLsb' 8 16))
    | 0x1A => okB (decide (x.extractLsb' 24 8 = 0#8)) (.brk (x.extractLsb' 8 16))
    | _ => .illegal

/-! ### The V slots (R87, R88) -/

def vCode : Nat → Option VCode
  | 0x01 => some .vadd | 0x02 => some .vsub | 0x03 => some .vmul | 0x04 => some .vfma | 0x05 => some .vmin
  | 0x06 => some .vmax | 0x07 => some .vabs | 0x08 => some .vneg | 0x09 => some .vand | 0x0A => some .vor
  | 0x0B => some .vxor | 0x0C => some .vshl | 0x0D => some .vsra | 0x0E => some .vsrl | 0x10 => some .vexp
  | 0x11 => some .vrcp | 0x12 => some .vrsqrt | 0x13 => some .vcvt | 0x18 => some .vceq | 0x19 => some .vclt
  | 0x1A => some .vcle | 0x20 => some .vperm | 0x21 => some .vbcast | 0x22 => some .vsel | 0x23 => some .vmov
  | 0x28 => some .vrsum | 0x29 => some .vrmax | 0x2A => some .vrmin | 0x30 => some .vld | 0x31 => some .vst
  | 0x38 => some .mand | 0x39 => some .mor | 0x3A => some .mxor | 0x3B => some .mnot
  | _ => none

/-- What an operation writes or reads besides vector registers. -/
def VCode.isCompare : VCode → Bool
  | .vceq | .vclt | .vcle => true
  | _ => false

def VCode.isMask : VCode → Bool
  | .mand | .mor | .mxor | .mnot => true
  | _ => false

/-- A TYPE that the table lists for an operation (R88). Mask operations list none, and take 0. -/
def VCode.typeOk (c : VCode) (ty : Nat) : Bool :=
  match c with
  | .vfma => decide (ty ≤ 2)
  | .vand | .vor | .vxor | .vshl | .vsra | .vsrl => decide (ty = 2 ∨ ty = 3)
  | .vexp | .vrcp | .vrsqrt => decide (ty = 0)
  | .mand | .mor | .mxor | .mnot => decide (ty = 0)
  | _ => decide (ty ≤ 3)

/-- The encoding of a V-slot operation holds no reserved value (R87). -/
def vLegal (c : VCode) (f : VFields) : Bool :=
  c.typeOk f.ty.toNat &&
  (if c = .vcvt then decide (f.ty2.toNat ≤ 3) else decide (f.ty2 = 0#3)) &&
  (decide (c = .vld ∨ c = .vst) || decide (f.imm = 0#32)) &&
  (!(c.isCompare || c.isMask) || decide (f.vd.extractLsb' 3 2 = 0#2)) &&
  (!c.isMask || decide (f.va.extractLsb' 3 2 = 0#2 ∧ f.vb.extractLsb' 3 2 = 0#2))

/-- The fields of a V slot. -/
def vFields (x : BitVec 96) : VFields :=
  { vd := x.extractLsb' 8 5, va := x.extractLsb' 13 5, vb := x.extractLsb' 18 5, vc := x.extractLsb' 23 5,
    msk := x.extractLsb' 28 3, mz := x.getLsbD 31, ty := x.extractLsb' 32 3, ty2 := x.extractLsb' 35 3,
    sb := x.getLsbD 38, sat := x.getLsbD 39, imm := x.extractLsb' 64 32 }

/-- A V slot. -/
def decodeV (x : BitVec 96) : VOp :=
  if x.extractLsb' 0 8 = 0#8 then .nop
  else
    match vCode (x.extractLsb' 0 8).toNat with
    | none => .illegal
    | some c => if vLegal c (vFields x) && decide (x.extractLsb' 40 24 = 0#24) then .op c (vFields x) else .illegal

/-! ### The M slot (R132) -/

def okM (b : Bool) (op : MOp) : MOp := if b then op else .illegal

/-- Bytes of an activation element (R123). -/
def fmtBytes (fmt : Nat) : Nat := if fmt = 3 then 2 else 1

/-- The M slot. -/
def decodeM (x : BitVec 128) : MOp :=
  let a14 := x.extractLsb' 8 14
  match (x.extractLsb' 0 8).toNat with
  | 0x00 => .nop
  | 0x10 =>
    let mode := (x.extractLsb' 10 2).toNat
    let bp := (x.extractLsb' 12 8).toNat
    okM (decide (x.extractLsb' 20 108 = 0#108) &&
        ((decide (mode = 0) && decide (bp ≤ 127)) || (decide (mode = 1) && decide (bp = 0)) || decide (mode = 2)))
      (.cfg (x.getLsbD 8) (x.getLsbD 9) (x.extractLsb' 10 2) (x.extractLsb' 12 8))
  | 0x11 =>
    okM (decide (x.extractLsb' 66 62 = 0#62) &&
        decide (((x.extractLsb' 28 9).toNat + 1) * 32 * fmtBytes (x.extractLsb' 26 2).toNat ≤ 16384))
      (.lda a14 (x.extractLsb' 22 4) (x.extractLsb' 26 2) (x.extractLsb' 28 9) (x.extractLsb' 37 14)
        (x.extractLsb' 51 14) (x.getLsbD 65))
  | 0x12 =>
    okM (decide (x.extractLsb' 50 78 = 0#78) && decide (x.extractLsb' 22 14 ≠ 0#14) &&
        decide ((x.extractLsb' 43 7).toNat + (x.extractLsb' 36 7).toNat + 1 ≤ 128))
      (.mmw a14 (x.extractLsb' 22 14) (x.extractLsb' 36 7) (x.extractLsb' 43 7))
  | 0x13 =>
    okM (decide (x.extractLsb' 44 84 = 0#84) && decide (x.extractLsb' 22 2 ≠ 0#2) &&
        decide ((x.extractLsb' 34 10).toNat + (x.extractLsb' 24 10).toNat + 1 ≤ 1024))
      (.mma a14 (x.extractLsb' 22 2) (x.extractLsb' 24 10) (x.extractLsb' 34 10))
  | 0x14 =>
    okM (decide (x.extractLsb' 48 80 = 0#80) && decide (x.extractLsb' 22 2 ≠ 3#2))
      (.rd a14 (x.extractLsb' 22 2) (x.getLsbD 24) (x.getLsbD 25) (x.extractLsb' 26 8) (x.extractLsb' 34 14))
  | 0x15 => okM (decide (x.extractLsb' 23 105 = 0#105)) (.stf a14 (x.getLsbD 22))
  | _ => .illegal

/-! ### The X slot -/

def okX (b : Bool) (op : XOp) : XOp := if b then op else .illegal

/-- The X slot. -/
def decodeX (x : BitVec 96) : XOp :=
  let tag := x.extractLsb' 8 6
  let f14 := x.extractLsb' 14 14
  let g14 := x.extractLsb' 28 14
  match (x.extractLsb' 0 8).toNat with
  | 0x00 => .nop
  | 0x30 =>
    let len := x.extractLsb' 34 14
    okX (decide (x.extractLsb' 48 48 = 0#48) && decide (1 ≤ len.toNat ∧ len.toNat ≤ 12288))
      (.xfer tag (x.getLsbD 14) (x.extractLsb' 15 5) (x.extractLsb' 20 14) len)
  | 0x31 =>
    let len := x.extractLsb' 42 14
    okX (decide (x.extractLsb' 56 40 = 0#40) && decide (1 ≤ len.toNat ∧ len.toNat ≤ 12288)) (.scopy tag f14 g14 len)
  | 0x40 => okX (decide (x.extractLsb' 79 17 = 0#17))
      (.assay tag f14 g14 (x.extractLsb' 42 4) (x.extractLsb' 46 8) (x.extractLsb' 54 25))
  | 0x41 => okX (decide (x.extractLsb' 52 44 = 0#44)) (.asel tag f14 (x.extractLsb' 28 8) (x.extractLsb' 36 16))
  | 0x44 => okX (decide (x.extractLsb' 22 74 = 0#74)) (.lmark tag (x.extractLsb' 14 8))
  | 0x45 => okX (decide (x.extractLsb' 22 74 = 0#74)) (.lwait tag (x.extractLsb' 14 8))
  | 0x48 => okX (decide (x.extractLsb' 42 54 = 0#54)) (.awalk tag f14 g14)
  | 0x49 =>
    let pos := x.extractLsb' 58 20
    let cnt := x.extractLsb' 78 8
    okX (decide (x.extractLsb' 86 10 = 0#10) && decide (pos.toNat % 256 + cnt.toNat + 1 ≤ 256))
      (.rkpost tag f14 (x.extractLsb' 28 10) (x.extractLsb' 38 8) (x.extractLsb' 46 12) pos cnt)
  | 0x4C =>
    let rowbase := x.extractLsb' 37 10
    let count := x.extractLsb' 47 7
    let total := x.extractLsb' 54 10
    okX (decide (x.extractLsb' 64 32 = 0#32) && decide (count.toNat ≤ 64 ∧ total.toNat ≤ 512) &&
        decide (rowbase.toNat + count.toNat ≤ total.toNat))
      (.bsend tag f14 (x.extractLsb' 28 8) (x.getLsbD 36) rowbase count total)
  | 0x4D => okX (decide (x.extractLsb' 50 46 = 0#46))
      (.bwait tag f14 (x.extractLsb' 28 8) (x.getLsbD 36) (x.getLsbD 37) (x.extractLsb' 38 12))
  | 0x4E => okX (decide (x.extractLsb' 27 69 = 0#69)) (.bret tag (x.extractLsb' 14 12) (x.getLsbD 26))
  | 0x50 => okX (decide (x.extractLsb' 42 54 = 0#54)) (.xsamp tag f14 g14)
  | 0x54 => okX (decide (x.extractLsb' 28 68 = 0#68)) (.msg tag f14)
  | 0x58 => okX (decide (x.extractLsb' 28 68 = 0#68)) (.gsnap tag f14)
  | _ => .illegal

/-! ### Operations that some word encodes -/

/-- An S-slot operation holds no reserved value (R84, R85, R464). -/
def sLegal : SOp → Bool
  | .i op _ _ imm => !op.isShift || decide (imm.extractLsb' 6 26 = 0#26)
  | .lih _ imm => decide (imm.extractLsb' 16 32 = 0#32)
  | .sts _ _ _ sx _ | .stu _ _ _ sx _ | .stn _ _ _ sx _ => !sx
  | .rdgauge _ index => decide (index.toNat < 16)
  | .rdtick _ rs1 rs2 rs3 => decide (rs1 = 0#5 ∧ rs2 = 0#5 ∧ rs3 = 0#5)
  | .amo _ _ _ _ aop ret => decide (aop ≠ .reserved) && !(decide (aop = .cas) && !ret)
  | .iflush rd rs1 rs2 rs3 => decide (rd = 0#5 ∧ rs1 = 0#5 ∧ rs2 = 0#5 ∧ rs3 = 0#5)
  | .dinv rd _ _ => decide (rd = 0#5)
  | .rdtag _ rs1 imm => decide (rs1 = 0#5) && decide (imm.extractLsb' 6 26 = 0#26)
  | .illegal => false
  | _ => true

/-- A B-slot operation holds no reserved value (R86). -/
def bLegal : BOp → Bool
  | .loop _ _ len => decide (len ≠ 0#17)
  | .halt code => decide (code = 0#16)
  | .illegal => false
  | _ => true

/-- An X-slot operation holds no reserved value (R89, R241, R263). -/
def xLegal : XOp → Bool
  | .xfer _ _ _ _ len | .scopy _ _ _ len => decide (1 ≤ len.toNat ∧ len.toNat ≤ 12288)
  | .rkpost _ _ _ _ _ pos countM1 => decide (pos.toNat % 256 + countM1.toNat + 1 ≤ 256)
  | .bsend _ _ _ _ rowbase count total =>
    decide (count.toNat ≤ 64 ∧ total.toNat ≤ 512) && decide (rowbase.toNat + count.toNat ≤ total.toNat)
  | .illegal => false
  | _ => true

/-- An M-slot operation holds no reserved value (R123, R132). -/
def mLegal : MOp → Bool
  | .cfg _ _ mode bp => (decide (mode = 0#2) && decide (bp.toNat ≤ 127)) || (decide (mode = 1#2) && decide (bp = 0#8)) || decide (mode = 2#2)
  | .lda _ _ fmt kuM1 _ _ _ => decide ((kuM1.toNat + 1) * 32 * fmtBytes fmt.toNat ≤ 16384)
  | .mmw _ len slabsM1 koff => decide (len ≠ 0#14) && decide (koff.toNat + slabsM1.toNat + 1 ≤ 128)
  | .mma _ bfmt chM1 koff => decide (bfmt ≠ 0#2) && decide (koff.toNat + chM1.toNat + 1 ≤ 1024)
  | .rd _ ofmt _ _ _ _ => decide (ofmt ≠ 3#2)
  | .illegal => false
  | _ => true

/-- A V-slot operation holds no reserved value (R87). -/
def vOpLegal : VOp → Bool
  | .nop => true
  | .op c f => vLegal c f
  | .illegal => false

/-- No slot of a bundle holds a reserved value (R79). -/
def bundleLegal (w : Bundle) : Bool :=
  sLegal w.s && bLegal w.b && vOpLegal w.v0 && vOpLegal w.v1 && mLegal w.m && xLegal w.x

/-! ### Encoding, from the same tables -/

/-- Fields at their lowest bits. -/
def pack (l : List (Nat × Nat)) : Nat := (l.map fun f => f.2 * 2 ^ f.1).sum

/-- R-format opcodes (R85). -/
def rNum : ROp → Nat
  | .add => 0x01 | .sub => 0x02 | .mul => 0x03 | .mulh => 0x04 | .mulhu => 0x05 | .div => 0x06 | .divu => 0x07
  | .rem => 0x08 | .remu => 0x09 | .and => 0x0A | .or => 0x0B | .xor => 0x0C | .sll => 0x0D | .srl => 0x0E
  | .sra => 0x0F | .slt => 0x10 | .sltu => 0x11 | .min => 0x12 | .max => 0x13 | .minu => 0x14 | .maxu => 0x15
  | .sel => 0x16 | .fadd => 0x28 | .fsub => 0x29 | .fmul => 0x2A | .fdiv => 0x2B | .fsqrt => 0x2C | .fmin => 0x2D
  | .fmax => 0x2E | .fma => 0x2F | .fcvtIF => 0x30 | .fcvtFI => 0x31 | .feq => 0x32 | .flt => 0x33 | .fle => 0x34

/-- I-format opcodes (R85). -/
def iNum : IOp → Nat
  | .addi => 0x18 | .andi => 0x19 | .ori => 0x1A | .xori => 0x1B | .slli => 0x1C | .srli => 0x1D | .srai => 0x1E
  | .slti => 0x1F

/-- AOP codes (R84). -/
def aNum : AOp → Nat
  | .add => 0 | .min => 1 | .max => 2 | .minu => 3 | .maxu => 4 | .swap => 5 | .cas => 6 | .reserved => 7

/-- A load's or store's word (R84). -/
def memNum (op : Nat) (r rs1 : BitVec 5) (size : BitVec 2) (sx : Bool) (off : BitVec 32) : Nat :=
  pack [(0, op), (8, r.toNat), (13, rs1.toNat), (18, size.toNat), (20, sx.toNat), (21, off.toNat)]

/-- The word of an S-slot operation (R84, R85); a reserved encoding has the word of the reserved opcode 0xFF. -/
def encodeS (op : SOp) : BitVec 64 :=
  BitVec.ofNat 64 (match op with
  | .nop => 0
  | .r op rd rs1 rs2 rs3 => pack [(0, rNum op), (8, rd.toNat), (13, rs1.toNat), (18, rs2.toNat), (23, rs3.toNat)]
  | .i op rd rs1 imm => pack [(0, iNum op), (8, rd.toNat), (13, rs1.toNat), (18, imm.toNat)]
  | .li rd imm => pack [(0, 0x20), (8, rd.toNat), (16, imm.toNat)]
  | .lih rd imm => pack [(0, 0x21), (8, rd.toNat), (16, imm.toNat)]
  | .lds rd rs1 size sx off => memNum 0x38 rd rs1 size sx off
  | .sts rs2 rs1 size sx off => memNum 0x39 rs2 rs1 size sx off
  | .ldu rd rs1 size sx off => memNum 0x3A rd rs1 size sx off
  | .stu rs2 rs1 size sx off => memNum 0x3B rs2 rs1 size sx off
  | .rdgauge rd index => pack [(0, 0x3C), (8, rd.toNat), (13, index.toNat)]
  | .rdtick rd rs1 rs2 rs3 => pack [(0, 0x3D), (8, rd.toNat), (13, rs1.toNat), (18, rs2.toNat), (23, rs3.toNat)]
  | .ldn rd rs1 size sx off => memNum 0x3E rd rs1 size sx off
  | .stn rs2 rs1 size sx off => memNum 0x3F rs2 rs1 size sx off
  | .amo rd rs1 rs2 rs3 aop ret => pack [(0, 0x40), (8, rd.toNat), (13, rs1.toNat), (18, rs2.toNat), (23, rs3.toNat),
      (28, aNum aop), (31, ret.toNat)]
  | .iflush rd rs1 rs2 rs3 => pack [(0, 0x41), (8, rd.toNat), (13, rs1.toNat), (18, rs2.toNat), (23, rs3.toNat)]
  | .dinv rd rs1 rs2 => pack [(0, 0x42), (8, rd.toNat), (13, rs1.toNat), (18, rs2.toNat)]
  | .rdtag rd rs1 imm => pack [(0, 0x43), (8, rd.toNat), (13, rs1.toNat), (18, imm.toNat)]
  | .illegal => 0xFF)

/-- Opcodes of the conditional branches (R86). -/
def bNum : BCond → Nat
  | .eq => 0x01 | .ne => 0x02 | .lt => 0x03 | .ge => 0x04 | .ltu => 0x05 | .geu => 0x06

/-- The word of a B-slot operation (R86). -/
def encodeB (op : BOp) : BitVec 32 :=
  BitVec.ofNat 32 (match op with
  | .nop => 0
  | .bc c rs1 rs2 off => pack [(0, bNum c), (8, rs1.toNat), (13, rs2.toNat), (18, off.toNat)]
  | .j off => pack [(0, 0x08), (8, off.toNat)]
  | .call off => pack [(0, 0x09), (8, off.toNat)]
  | .jr rs1 => pack [(0, 0x0A), (8, rs1.toNat)]
  | .callr rs1 => pack [(0, 0x0B), (8, rs1.toNat)]
  | .ret => 0x0C
  | .loop lc rs1 len => pack [(0, 0x10), (8, lc.toNat), (10, rs1.toNat), (15, len.toNat)]
  | .lend lc => pack [(0, 0x11), (8, lc.toNat)]
  | .wait rs1 => pack [(0, 0x18), (8, rs1.toNat)]
  | .halt code => pack [(0, 0x19), (8, code.toNat)]
  | .brk code => pack [(0, 0x1A), (8, code.toNat)]
  | .illegal => 0xFF)

/-- V-slot opcodes (R88). -/
def vNum : VCode → Nat
  | .vadd => 0x01 | .vsub => 0x02 | .vmul => 0x03 | .vfma => 0x04 | .vmin => 0x05 | .vmax => 0x06 | .vabs => 0x07
  | .vneg => 0x08 | .vand => 0x09 | .vor => 0x0A | .vxor => 0x0B | .vshl => 0x0C | .vsra => 0x0D | .vsrl => 0x0E
  | .vexp => 0x10 | .vrcp => 0x11 | .vrsqrt => 0x12 | .vcvt => 0x13 | .vceq => 0x18 | .vclt => 0x19 | .vcle => 0x1A
  | .vperm => 0x20 | .vbcast => 0x21 | .vsel => 0x22 | .vmov => 0x23 | .vrsum => 0x28 | .vrmax => 0x29
  | .vrmin => 0x2A | .vld => 0x30 | .vst => 0x31 | .mand => 0x38 | .mor => 0x39 | .mxor => 0x3A | .mnot => 0x3B

/-- The word of a V-slot operation (R87, R88). -/
def encodeV (op : VOp) : BitVec 96 :=
  BitVec.ofNat 96 (match op with
  | .nop => 0
  | .op c f => pack [(0, vNum c), (8, f.vd.toNat), (13, f.va.toNat), (18, f.vb.toNat), (23, f.vc.toNat), (28, f.msk.toNat),
      (31, f.mz.toNat), (32, f.ty.toNat), (35, f.ty2.toNat), (38, f.sb.toNat), (39, f.sat.toNat), (64, f.imm.toNat)]
  | .illegal => 0xFF)

/-- The word of an M-slot operation (R132). -/
def encodeM (op : MOp) : BitVec 128 :=
  BitVec.ofNat 128 (match op with
  | .nop => 0
  | .cfg ca cf mode bp => pack [(0, 0x10), (8, ca.toNat), (9, cf.toNat), (10, mode.toNat), (12, bp.toNat)]
  | .lda src rows fmt ku stride sc en => pack [(0, 0x11), (8, src.toNat), (22, rows.toNat), (26, fmt.toNat), (28, ku.toNat),
      (37, stride.toNat), (51, sc.toNat), (65, en.toNat)]
  | .mmw src len slabs koff => pack [(0, 0x12), (8, src.toNat), (22, len.toNat), (36, slabs.toNat), (43, koff.toNat)]
  | .mma src fmt ch koff => pack [(0, 0x13), (8, src.toNat), (22, fmt.toNat), (24, ch.toNat), (34, koff.toNat)]
  | .rd dst fmt ts clr sh stride => pack [(0, 0x14), (8, dst.toNat), (22, fmt.toNat), (24, ts.toNat), (25, clr.toNat),
      (26, sh.toNat), (34, stride.toNat)]
  | .stf dst clr => pack [(0, 0x15), (8, dst.toNat), (22, clr.toNat)]
  | .illegal => 0xFF)

/-- The word of an X-slot operation (R89, R142, R193, R237, R241, R263, R271, R272, R318, R384, R465). -/
def encodeX (op : XOp) : BitVec 96 :=
  BitVec.ofNat 96 (match op with
  | .nop => 0
  | .xfer tag tu rs sa len => pack [(0, 0x30), (8, tag.toNat), (14, tu.toNat), (15, rs.toNat), (20, sa.toNat), (34, len.toNat)]
  | .scopy tag src dst len => pack [(0, 0x31), (8, tag.toNat), (14, src.toNat), (28, dst.toNat), (42, len.toNat)]
  | .assay tag a b rows layer ord => pack [(0, 0x40), (8, tag.toNat), (14, a.toNat), (28, b.toNat), (42, rows.toNat),
      (46, layer.toNat), (54, ord.toNat)]
  | .asel tag dst layer ob => pack [(0, 0x41), (8, tag.toNat), (14, dst.toNat), (28, layer.toNat), (36, ob.toNat)]
  | .lmark tag layer => pack [(0, 0x44), (8, tag.toNat), (14, layer.toNat)]
  | .lwait tag layer => pack [(0, 0x45), (8, tag.toNat), (14, layer.toNat)]
  | .awalk tag desc dst => pack [(0, 0x48), (8, tag.toNat), (14, desc.toNat), (28, dst.toNat)]
  | .rkpost tag src slot gen pair pos n => pack [(0, 0x49), (8, tag.toNat), (14, src.toNat), (28, slot.toNat), (38, gen.toNat),
      (46, pair.toNat), (58, pos.toNat), (78, n.toNat)]
  | .bsend tag src layer half rb n tot => pack [(0, 0x4C), (8, tag.toNat), (14, src.toNat), (28, layer.toNat), (36, half.toNat),
      (37, rb.toNat), (47, n.toNat), (54, tot.toNat)]
  | .bwait tag dst layer half side host => pack [(0, 0x4D), (8, tag.toNat), (14, dst.toNat), (28, layer.toNat), (36, half.toNat),
      (37, side.toNat), (38, host.toNat)]
  | .bret tag host half => pack [(0, 0x4E), (8, tag.toNat), (14, host.toNat), (26, half.toNat)]
  | .xsamp tag desc dst => pack [(0, 0x50), (8, tag.toNat), (14, desc.toNat), (28, dst.toNat)]
  | .msg tag desc => pack [(0, 0x54), (8, tag.toNat), (14, desc.toNat)]
  | .gsnap tag dst => pack [(0, 0x58), (8, tag.toNat), (14, dst.toNat)]
  | .illegal => 0xFF)

/-- The bits of a bundle (R77). -/
def encodeBundle (w : Bundle) : BitVec 512 :=
  BitVec.ofNat 512 (pack [(0, (encodeS w.s).toNat), (64, (encodeB w.b).toNat), (96, (encodeV w.v0).toNat),
    (192, (encodeV w.v1).toNat), (288, (encodeM w.m).toNat), (416, (encodeX w.x).toNat)])

/-- A bundle with its S, B or X slot replaced; an operation with a reserved value is a reserved encoding. -/
def withS (w : Bundle) (op : SOp) : Bundle := { w with s := if sLegal op then op else .illegal }
def withB (w : Bundle) (op : BOp) : Bundle := { w with b := if bLegal op then op else .illegal }
def withX (w : Bundle) (op : XOp) : Bundle := { w with x := if xLegal op then op else .illegal }

/-- A bundle with one of its V slots replaced. -/
def withV (w : Bundle) (slot : Fin 2) (code : VCode) (f : VFields) : Bundle :=
  let op := if vLegal code f then VOp.op code f else .illegal
  if slot = 0 then { w with v0 := op } else { w with v1 := op }

/-- A bundle, in surroundings that the bits do not hold (R77). -/
def decodeBundle (w : BitVec 512) (env : Surround) : Bundle :=
  { s := decodeS (w.extractLsb' 0 64)
    b := decodeB (w.extractLsb' 64 32)
    v0 := decodeV (w.extractLsb' 96 96)
    v1 := decodeV (w.extractLsb' 192 96)
    m := decodeM (w.extractLsb' 288 128)
    x := decodeX (w.extractLsb' 416 96)
    env := env }

end Sys2Proof
end

