-- ==== Sys2Proof/Config.lean ====
section
/-! DEFINITION. Config.lean: what an implementation fixes and the spec leaves open, as constants without a body.
No proof can see their values, so every claim holds whatever they are (log entries 1-4). -/
namespace Sys2Proof

/-- Free values: element `i` of the `n`-th draw. The state's counter `free` supplies `n` and moves on with each
draw, so no two draws are tied to each other. -/
opaque Config.free : Nat → Nat → Word64

/-- The value of the `n`-th draw. -/
def Config.freeValue (n : Nat) : Word64 := Config.free n 0

/-- Which of the results within one unit in the last place VEXP, VRCP and VRSQRT give for an input (R88: the same
bits for the same input on every core and at every clock). The first argument is the operation's opcode. -/
opaque Config.ulpChoice : Nat → Word32 → BitVec 2

/-- Whether an ECDSA signature on P-521 verifies: public key, signed bytes, signature (R67, R68, R479, R482). -/
opaque Config.ecdsaVerify : List Byte → List Byte → List Byte → Bool

/-- An ECDSA signature: private secret, signed bytes (R475, R479). -/
opaque Config.ecdsaSign : List Byte → List Byte → List Byte

/-- The public key of a private secret. -/
opaque Config.ecdsaPublic : List Byte → List Byte

/-- The SHA-512 digest of bytes. -/
opaque Config.sha512 : List Byte → List Byte

/-- The key derivation of R472 and R475: a secret, a label's bytes. -/
opaque Config.kdf : List Byte → List Byte → List Byte

/-- The DER certificate that a private secret signs for a public key (R475). -/
opaque Config.certify : List Byte → List Byte → List Byte

/-- The public key in the last certificate of a DER chain (R476). -/
opaque Config.certKey : List Byte → List Byte

/-- The contents of the boot ROM (R478). -/
opaque Config.bootRom : List Byte

end Sys2Proof
end

