-- ==== Sys2Proof/Machine/Regs.lean ====
section
/-! DEFINITION. Machine/Regs.lean: the register pages of the module, transcribed from the field maps of the
chapters of spec/ and from the page map (R519-R533, 22_register_pages.md). A page kind, its registers, and one
named constant per field, spelt as the manual spells the field (`R.CORE_CFG.RUNAHEAD_THRESH`). -/
namespace Sys2Proof.Machine

/-- A page kind of R527-R530. `gauge` is a die instance of the GAUGE page and `gaugeM` its module instance (R466). -/
inductive Page where
  | dev | clk | rst | boot | wharf | fault | sec | dbg | weir | pwr | therm | bist | loop | route | lock | link | mx | scr | basin | gauge | gaugeM | core | ctx | ld | duty | mani | step | toll | xtal | assay | sluice | xlat | attn | rake | barge | msf | msg
  deriving DecidableEq, Repr

/-- A field of a register: its page, the offset of entry 0 of its register, the distance between entries of an
array, its lowest bit, its width and its value after a reset (R7; a Reset entry of FW reads 0 until boot writes it). -/
structure Fd where
  page : Page
  off : Nat
  stride : Nat
  lo : Nat
  width : Nat
  rst : Nat
  deriving DecidableEq, Repr

/-- The access types of R3. -/
inductive Acc where
  | ro | rw | w1c | w1s | wo | rc
  deriving DecidableEq, Repr

/-- One row of a field map. `ok` lists the ranges of legal encodings; empty where every encoding is legal (R5). -/
structure FieldDef where
  name : String
  lo : Nat
  width : Nat
  acc : Acc
  rst : Nat
  ok : List (Nat × Nat)
  deriving DecidableEq, Repr

/-- One register of a page: `count` entries `stride` bytes apart; `b64` a 64-bit register (R8); `view` a register
whose value is computed from other state; `locked` a register that `CTRL.CFG_LOCK` locks (R522); `ld0Only` one
that LD n may not write (R531); `helmOnly` one whose fields act only at the helm (R316); `dom` a reset domain
other than the page's. -/
structure RegDef where
  name : String
  off : Nat
  stride : Nat
  count : Nat
  b64 : Bool
  view : Bool
  locked : Bool
  ld0Only : Bool
  helmOnly : Bool
  dom : Option Nat
  flds : List FieldDef
  deriving DecidableEq, Repr

/-- Block type codes of R527. A core page adds its die number. -/
def typeCode : Page → Nat
  | .dev => 0x0001
  | .clk => 0x0002
  | .rst => 0x0003
  | .boot => 0x0004
  | .wharf => 0x0050
  | .fault => 0x0075
  | .sec => 0x0071
  | .dbg => 0x0072
  | .weir => 0x0060
  | .pwr => 0x0061
  | .therm => 0x0062
  | .bist => 0x0073
  | .loop => 0x0074
  | .route => 0x0041
  | .lock => 0x0042
  | .link => 0x0040
  | .mx => 0x0011
  | .scr => 0x0020
  | .basin => 0x0021
  | .gauge => 0x0070
  | .gaugeM => 0x0070
  | .core => 0x0100
  | .ctx => 0x0052
  | .ld => 0x0051
  | .duty => 0x0053
  | .mani => 0x0033
  | .step => 0x0034
  | .toll => 0x0035
  | .xtal => 0x0036
  | .assay => 0x0012
  | .sluice => 0x0022
  | .xlat => 0x0023
  | .attn => 0x0030
  | .rake => 0x0031
  | .barge => 0x0032
  | .msf => 0x0043
  | .msg => 0x0044

/-- Reset domain of a page's header (R526, R528, R530): 0 management, 1 module, 2 die, 3 LD, 4 context. -/
def pageDomain : Page → Nat
  | .dev => 1
  | .clk => 1
  | .rst => 0
  | .boot => 0
  | .wharf => 1
  | .fault => 0
  | .sec => 0
  | .dbg => 0
  | .weir => 1
  | .pwr => 1
  | .therm => 1
  | .bist => 1
  | .loop => 1
  | .route => 1
  | .lock => 1
  | .link => 1
  | .mx => 2
  | .scr => 2
  | .basin => 2
  | .gauge => 2
  | .gaugeM => 1
  | .core => 2
  | .ctx => 4
  | .ld => 3
  | .duty => 4
  | .mani => 4
  | .step => 4
  | .toll => 4
  | .xtal => 4
  | .assay => 4
  | .sluice => 4
  | .xlat => 4
  | .attn => 4
  | .rake => 4
  | .barge => 4
  | .msf => 4
  | .msg => 4

/-- Registers of the DEV page (spec/02_clocks_reset_and_boot.md, R56,R58,R70). -/
def regsDev : List RegDef := [
  ⟨"DEV_PWR", 0x100, 0, 1, false, false, false, false, false, none,
    [⟨"TARGET", 0, 2, .rw, 0, []⟩, ⟨"CURRENT", 4, 2, .ro, 0, []⟩, ⟨"AUTO_WAKE", 8, 1, .rw, 1, []⟩, ⟨"BUSY", 9, 1, .ro, 0, []⟩]⟩]

/-- Registers of the CLK page (spec/02_clocks_reset_and_boot.md, R51,R53,R55). -/
def regsClk : List RegDef := [
  ⟨"CLK_CTRL", 0x100, 0, 1, false, false, false, false, false, none,
    [⟨"FIXED_FREQ", 0, 1, .rw, 0, []⟩, ⟨"BOOST_EN", 1, 1, .rw, 1, []⟩, ⟨"BOOST_MARGIN", 8, 12, .rw, 100, [(0, 2000)]⟩]⟩,
  ⟨"CLK_STATUS", 0x104, 0, 1, false, false, false, false, false, none,
    [⟨"ROOT_LOCK", 0, 1, .ro, 0, []⟩, ⟨"SYSREF_OK", 1, 1, .ro, 0, []⟩, ⟨"BOOST_ACTIVE", 8, 8, .ro, 0, []⟩, ⟨"FIXED_ACTIVE", 16, 1, .ro, 0, []⟩]⟩,
  ⟨"CLK_TICK", 0x108, 0, 1, true, true, false, false, false, none,
    [⟨"TICK", 0, 64, .ro, 0, []⟩]⟩]

/-- Registers of the RST page (spec/02_clocks_reset_and_boot.md, R66). -/
def regsRst : List RegDef := [
  ⟨"RST_LD", 0x100, 0, 1, false, false, false, false, false, none,
    [⟨"BITS", 0, 16, .wo, 0, []⟩]⟩,
  ⟨"RST_CTX", 0x104, 0, 1, false, false, false, false, false, none,
    [⟨"BITS", 0, 16, .wo, 0, []⟩]⟩,
  ⟨"RST_DIE", 0x108, 0, 1, false, false, false, false, false, none,
    [⟨"BITS", 0, 8, .wo, 0, []⟩]⟩,
  ⟨"RST_LINK", 0x10C, 0, 1, false, false, false, false, false, none,
    [⟨"BITS", 0, 32, .wo, 0, []⟩]⟩,
  ⟨"RST_MODULE", 0x110, 0, 1, false, false, false, false, false, none,
    [⟨"KEY", 0, 32, .wo, 0, []⟩]⟩,
  ⟨"RST_STATUS", 0x114, 0, 1, false, false, false, false, false, none,
    [⟨"LD", 0, 16, .ro, 0, []⟩, ⟨"DIE", 16, 8, .ro, 0, []⟩]⟩,
  ⟨"RST_LINK_STATUS", 0x118, 0, 1, false, false, false, false, false, none,
    [⟨"LINK", 0, 32, .ro, 0, []⟩]⟩]

/-- Registers of the BOOT page (spec/02_clocks_reset_and_boot.md, R74). -/
def regsBoot : List RegDef := [
  ⟨"BOOT_STATUS", 0x100, 0, 1, false, false, false, false, false, none,
    [⟨"STAGE", 0, 4, .ro, 0, []⟩, ⟨"FAIL_CAUSE", 8, 4, .ro, 0, []⟩, ⟨"SVN_FUSED", 16, 7, .ro, 0, []⟩, ⟨"SVN_IMAGE", 24, 7, .ro, 0, []⟩]⟩,
  ⟨"BOOT_CTRL", 0x104, 0, 1, false, false, false, false, false, none,
    [⟨"FORCE_RECOVERY", 0, 1, .rw, 0, []⟩, ⟨"SVN_COMMIT", 1, 1, .wo, 0, []⟩]⟩,
  ⟨"BOOT_MBOX_ADDR", 0x108, 0, 1, true, false, false, false, false, none,
    [⟨"ADDR", 0, 64, .rw, 0, []⟩]⟩,
  ⟨"BOOT_MBOX_LEN", 0x110, 0, 1, false, false, false, false, false, none,
    [⟨"LEN", 0, 23, .rw, 0, []⟩]⟩,
  ⟨"BOOT_MBOX_CMD", 0x114, 0, 1, false, false, false, false, false, none,
    [⟨"CMD", 0, 4, .wo, 0, [(1, 2)]⟩]⟩,
  ⟨"BOOT_MBOX_STATUS", 0x118, 0, 1, false, false, false, false, false, none,
    [⟨"STATE", 0, 2, .ro, 0, []⟩, ⟨"CAUSE", 8, 4, .ro, 0, []⟩]⟩]

/-- Registers of the WHARF page (spec/15_host_port_and_logical_devices.md, R412). -/
def regsWharf : List RegDef := [
  ⟨"WHARF_CTRL", 0x100, 0, 1, false, false, true, false, false, none,
    [⟨"UIO_EN", 0, 1, .rw, 1, []⟩, ⟨"LOPT_EN", 1, 1, .rw, 1, []⟩, ⟨"RETRAIN", 2, 1, .wo, 0, []⟩]⟩,
  ⟨"WHARF_LINK", 0x104, 0, 1, false, false, false, false, false, none,
    [⟨"RATE", 0, 2, .ro, 0, []⟩, ⟨"WIDTH", 2, 4, .ro, 0, []⟩, ⟨"LOPT", 6, 1, .ro, 0, []⟩, ⟨"UIO", 7, 1, .ro, 0, []⟩, ⟨"REVERSED", 8, 1, .ro, 0, []⟩]⟩,
  ⟨"WHARF_LD_EN", 0x108, 0, 1, false, false, true, false, false, none,
    [⟨"LD0", 0, 1, .ro, 1, []⟩, ⟨"EN", 1, 15, .rw, 0, []⟩]⟩,
  ⟨"WHARF_UIO_RD_BYTES", 0x110, 0, 1, true, false, false, false, false, none,
    [⟨"COUNT", 0, 64, .ro, 0, []⟩]⟩,
  ⟨"WHARF_UIO_WR_BYTES", 0x118, 0, 1, true, false, false, false, false, none,
    [⟨"COUNT", 0, 64, .ro, 0, []⟩]⟩,
  ⟨"WHARF_UIO_ERRORS", 0x120, 0, 1, false, false, false, false, false, none,
    [⟨"COUNT", 0, 32, .ro, 0, []⟩]⟩,
  ⟨"WHARF_LINK_DOWNS", 0x124, 0, 1, false, false, false, false, false, none,
    [⟨"COUNT", 0, 32, .ro, 0, []⟩]⟩,
  ⟨"WHARF_MEM_REFUSED", 0x128, 0, 1, false, false, false, false, false, none,
    [⟨"COUNT", 0, 32, .ro, 0, []⟩]⟩]

/-- Registers of the FAULT page (spec/21_faults_fencing_recovery.md, R518). -/
def regsFault : List RegDef := [
  ⟨"FAULT_CTRL", 0x100, 0, 1, false, false, false, false, false, none,
    [⟨"CLEAR", 0, 1, .wo, 0, []⟩]⟩,
  ⟨"FAULT_STATUS", 0x104, 0, 1, false, false, false, false, false, none,
    [⟨"HALTED", 0, 1, .ro, 0, []⟩, ⟨"FAULT_L", 1, 1, .ro, 0, []⟩, ⟨"FATAL_VALID", 2, 1, .ro, 0, []⟩, ⟨"FATAL_COUNT", 8, 8, .ro, 0, []⟩]⟩,
  ⟨"FAULT_FATAL_CODE", 0x108, 0, 1, false, false, false, false, false, none,
    [⟨"CODE", 0, 16, .ro, 0, []⟩, ⟨"BLOCK", 16, 16, .ro, 0, []⟩]⟩,
  ⟨"FAULT_FATAL_INST", 0x10C, 0, 1, false, false, false, false, false, none,
    [⟨"INSTANCE", 0, 8, .ro, 0, []⟩]⟩,
  ⟨"FAULT_FATAL_TICK", 0x110, 0, 1, true, false, false, false, false, none,
    [⟨"TICK", 0, 64, .ro, 0, []⟩]⟩,
  ⟨"FAULT_FATAL_INFO0", 0x118, 0, 1, true, false, false, false, false, none,
    [⟨"INFO", 0, 64, .ro, 0, []⟩]⟩,
  ⟨"FAULT_FATAL_INFO1", 0x120, 0, 1, true, false, false, false, false, none,
    [⟨"INFO", 0, 64, .ro, 0, []⟩]⟩,
  ⟨"FAULT_CTX", 0x140, 4, 16, false, false, false, false, false, some 1,
    [⟨"ENDED", 0, 1, .ro, 0, []⟩, ⟨"CODE", 16, 16, .ro, 0, []⟩]⟩,
  ⟨"FAULT_COUNT", 0x180, 4, 6, false, false, false, false, false, some 1,
    [⟨"COUNT", 0, 32, .ro, 0, []⟩]⟩]

/-- Registers of the SEC page (spec/19_lifecycle_security_debug.md, R491). -/
def regsSec : List RegDef := [
  ⟨"SEC_LIFECYCLE", 0x100, 0, 1, false, false, false, false, false, none,
    [⟨"STATE", 0, 3, .ro, 0, []⟩, ⟨"ENROLLED", 8, 4, .ro, 0, []⟩, ⟨"REVOKED", 12, 4, .ro, 0, []⟩, ⟨"FW_SIGN", 16, 4, .ro, 0, []⟩, ⟨"DEBUG_SIGN", 20, 4, .ro, 0, []⟩, ⟨"SECRET_VALID", 24, 1, .ro, 0, []⟩]⟩,
  ⟨"SEC_DEVICE_ID", 0x108, 0, 1, true, false, false, false, false, none,
    [⟨"ID", 0, 64, .ro, 0, []⟩]⟩,
  ⟨"SEC_NONCE", 0x110, 4, 8, false, false, false, false, false, none,
    [⟨"NONCE", 0, 32, .ro, 0, []⟩]⟩,
  ⟨"SEC_TOKEN_ADDR", 0x130, 0, 1, true, false, false, false, false, none,
    [⟨"ADDR", 6, 46, .rw, 0, []⟩]⟩,
  ⟨"SEC_CMD", 0x138, 0, 1, false, false, false, false, false, none,
    [⟨"OP", 0, 2, .wo, 0, [(1, 3)]⟩]⟩,
  ⟨"SEC_RESULT", 0x13C, 0, 1, false, false, false, false, false, none,
    [⟨"RESULT", 0, 4, .ro, 0, []⟩, ⟨"BUSY", 4, 1, .ro, 0, []⟩, ⟨"OP", 5, 3, .ro, 0, []⟩]⟩,
  ⟨"SEC_CERT_LEN", 0x140, 0, 1, false, false, false, false, false, none,
    [⟨"LEN", 0, 15, .rw, 0, []⟩]⟩,
  ⟨"SEC_FW_SLOT", 0x144, 0, 1, false, false, false, false, false, none,
    [⟨"SLOT", 0, 3, .ro, 0, []⟩]⟩,
  ⟨"SEC_TOKENS_REFUSED", 0x148, 0, 1, false, false, false, false, false, none,
    [⟨"COUNT", 0, 32, .ro, 0, []⟩]⟩]

/-- Registers of the DBG page (spec/19_lifecycle_security_debug.md, R491). -/
def regsDbg : List RegDef := [
  ⟨"DBG_SCOPE", 0x100, 0, 1, false, false, false, false, false, none,
    [⟨"SCOPES", 0, 8, .ro, 0, []⟩, ⟨"MASK", 16, 16, .ro, 0, []⟩]⟩,
  ⟨"DBG_HISTORY", 0x104, 0, 1, false, false, false, false, false, none,
    [⟨"SCOPES", 0, 8, .ro, 0, []⟩]⟩,
  ⟨"DBG_CLOSE", 0x108, 0, 1, false, false, false, false, false, none,
    [⟨"CLOSE", 0, 1, .wo, 0, []⟩]⟩,
  ⟨"DBG_CORE_SEL", 0x10C, 0, 1, false, false, false, false, false, none,
    [⟨"CORE", 0, 9, .rw, 0, []⟩]⟩,
  ⟨"DBG_CORE_CMD", 0x110, 0, 1, false, false, false, false, false, none,
    [⟨"CMD", 0, 2, .wo, 0, [(1, 3)]⟩]⟩,
  ⟨"DBG_STATUS", 0x114, 0, 1, false, false, false, false, false, none,
    [⟨"BUSY", 0, 1, .ro, 0, []⟩, ⟨"RESULT", 1, 3, .ro, 0, []⟩]⟩,
  ⟨"DBG_REG_SEL", 0x118, 0, 1, false, false, false, false, false, none,
    [⟨"FILE", 0, 2, .rw, 0, []⟩, ⟨"INDEX", 2, 5, .rw, 0, []⟩, ⟨"WORD", 7, 5, .rw, 0, []⟩]⟩,
  ⟨"DBG_REG_DATA", 0x120, 0, 1, true, false, false, false, false, none,
    [⟨"DATA", 0, 64, .rw, 0, []⟩]⟩,
  ⟨"DBG_MEM_ADDR", 0x128, 0, 1, true, false, false, false, false, none,
    [⟨"ADDR", 0, 40, .rw, 0, []⟩, ⟨"SPACE", 62, 2, .rw, 0, [(0, 2)]⟩]⟩,
  ⟨"DBG_MEM_DATA", 0x130, 0, 1, true, false, false, false, false, none,
    [⟨"DATA", 0, 64, .rw, 0, []⟩]⟩,
  ⟨"DBG_MEM_CMD", 0x138, 0, 1, false, false, false, false, false, none,
    [⟨"CMD", 0, 2, .wo, 0, [(1, 2)]⟩]⟩]

/-- Registers of the WEIR page (spec/17_weir_power_and_thermal.md, R452). -/
def regsWeir : List RegDef := [
  ⟨"WEIR_CTRL", 0x100, 0, 1, false, false, true, false, false, none,
    [⟨"HYST", 0, 8, .rw, 20, []⟩]⟩,
  ⟨"WEIR_STATUS", 0x104, 0, 1, false, false, false, false, false, none,
    [⟨"FLOOR", 0, 1, .ro, 0, []⟩, ⟨"CURRENT_HOLD", 1, 1, .ro, 0, []⟩]⟩,
  ⟨"WEIR_DIE", 0x200, 4, 8, false, false, false, false, false, none,
    [⟨"N", 0, 7, .ro, 64, []⟩, ⟨"NT", 8, 7, .ro, 64, []⟩, ⟨"NH", 16, 7, .rw, 64, [(1, 64)]⟩, ⟨"I", 24, 7, .ro, 0, []⟩]⟩]

/-- Registers of the PWR page (spec/17_weir_power_and_thermal.md, R452). -/
def regsPwr : List RegDef := [
  ⟨"PWR_CAP", 0x100, 0, 1, false, false, false, false, false, some 0,
    [⟨"CAP", 0, 12, .rw, 2000, [(700, 2000)]⟩, ⟨"SRC", 12, 2, .ro, 0, []⟩]⟩,
  ⟨"PWR_ALERT_CAP", 0x104, 0, 1, false, false, true, false, false, some 0,
    [⟨"CAP", 0, 12, .rw, 1000, [(700, 2000)]⟩]⟩,
  ⟨"PWR_ORPHAN", 0x108, 0, 1, false, false, true, false, false, some 0,
    [⟨"CAP", 0, 12, .rw, 1200, [(700, 2000)]⟩, ⟨"EN", 12, 1, .rw, 1, []⟩, ⟨"TIMEOUT", 16, 16, .rw, 200, [(1, 65535)]⟩]⟩,
  ⟨"PWR_SLEW", 0x10C, 0, 1, false, false, true, false, false, some 0,
    [⟨"SLEW", 0, 12, .rw, 100, [(1, 2000)]⟩]⟩,
  ⟨"PWR_LIMIT", 0x110, 0, 1, false, false, false, false, false, none,
    [⟨"L", 0, 12, .ro, 2000, []⟩]⟩,
  ⟨"PWR_STATUS", 0x114, 0, 1, false, false, false, false, false, none,
    [⟨"REASONS", 0, 5, .ro, 0, []⟩, ⟨"ORPHAN", 5, 1, .ro, 0, []⟩, ⟨"SAG", 6, 1, .ro, 0, []⟩, ⟨"ALERT_PIN", 7, 1, .ro, 0, []⟩, ⟨"DIVERGED", 8, 1, .ro, 0, []⟩, ⟨"FLOOR", 9, 1, .ro, 0, []⟩]⟩,
  ⟨"PWR_MEAS", 0x118, 0, 1, false, false, false, false, false, none,
    [⟨"MEAS", 0, 16, .ro, 0, []⟩, ⟨"EST", 16, 16, .ro, 0, []⟩]⟩,
  ⟨"PWR_VIN", 0x11C, 0, 1, false, false, false, false, false, none,
    [⟨"VIN", 0, 16, .ro, 0, []⟩, ⟨"IIN", 16, 16, .ro, 0, []⟩]⟩,
  ⟨"PWR_GAIN", 0x120, 0, 1, false, false, false, false, false, none,
    [⟨"G", 0, 16, .ro, 16384, []⟩]⟩,
  ⟨"PWR_ENERGY", 0x128, 0, 1, true, false, false, false, false, none,
    [⟨"COUNT", 0, 64, .ro, 0, []⟩]⟩,
  ⟨"PWR_ENERGY_UNATTR", 0x130, 0, 1, true, false, false, false, false, none,
    [⟨"COUNT", 0, 64, .ro, 0, []⟩]⟩,
  ⟨"PWR_OVER_CAP", 0x138, 0, 1, true, false, false, false, false, none,
    [⟨"COUNT", 0, 64, .ro, 0, []⟩]⟩,
  ⟨"PWR_THR_TIME", 0x140, 8, 5, true, false, false, false, false, none,
    [⟨"COUNT", 0, 64, .ro, 0, []⟩]⟩,
  ⟨"PWR_I3C_ERRORS", 0x168, 0, 1, false, false, false, false, false, none,
    [⟨"COUNT", 0, 32, .ro, 0, []⟩]⟩,
  ⟨"PWR_ALERTS", 0x16C, 0, 1, false, false, false, false, false, none,
    [⟨"COUNT", 0, 32, .ro, 0, []⟩]⟩,
  ⟨"PWR_DIVERGES", 0x170, 0, 1, false, false, false, false, false, none,
    [⟨"COUNT", 0, 32, .ro, 0, []⟩]⟩,
  ⟨"PWR_CAP_UNMET", 0x174, 0, 1, false, false, false, false, false, none,
    [⟨"COUNT", 0, 32, .ro, 0, []⟩]⟩,
  ⟨"PWR_CURRENT_EVENTS", 0x178, 0, 1, false, false, false, false, false, none,
    [⟨"COUNT", 0, 32, .ro, 0, []⟩]⟩]

/-- Registers of the THERM page (spec/17_weir_power_and_thermal.md, R452). -/
def regsTherm : List RegDef := [
  ⟨"THERM_CFG", 0x100, 0, 1, false, false, true, false, false, none,
    [⟨"THROTTLE", 0, 8, .rw, 95, [(70, 95)]⟩, ⟨"INLET_MAX", 8, 8, .rw, 42, [(20, 45)]⟩, ⟨"COOLANT_CAP", 16, 12, .rw, 900, [(700, 2000)]⟩]⟩,
  ⟨"THERM_OUTLET_MAX", 0x104, 0, 1, false, false, true, false, false, none,
    [⟨"MAX", 0, 8, .rw, 65, [(40, 70)]⟩]⟩,
  ⟨"THERM_STATUS", 0x108, 0, 1, false, false, false, false, false, none,
    [⟨"TRIP", 0, 1, .ro, 0, []⟩, ⟨"COOLANT", 1, 1, .ro, 0, []⟩, ⟨"COOLANT_PIN", 2, 1, .ro, 0, []⟩, ⟨"INLET_HIGH", 3, 1, .ro, 0, []⟩, ⟨"OUTLET_HIGH", 4, 1, .ro, 0, []⟩, ⟨"TRIP_SRC", 5, 3, .ro, 0, []⟩, ⟨"TRIP_INST", 8, 6, .ro, 0, []⟩]⟩,
  ⟨"THERM_COOLANT", 0x10C, 0, 1, false, false, false, false, false, none,
    [⟨"INLET", 0, 12, .ro, 0, []⟩, ⟨"OUTLET", 16, 12, .ro, 0, []⟩]⟩,
  ⟨"THERM_DIE", 0x200, 4, 8, false, false, false, false, false, none,
    [⟨"HOT", 0, 12, .ro, 0, []⟩, ⟨"PEAK", 16, 12, .rc, 0, []⟩]⟩,
  ⟨"THERM_IOD", 0x220, 4, 2, false, false, false, false, false, none,
    [⟨"HOT", 0, 12, .ro, 0, []⟩, ⟨"PEAK", 16, 12, .rc, 0, []⟩]⟩,
  ⟨"THERM_HBM", 0x240, 4, 32, false, false, false, false, false, none,
    [⟨"TEMP", 0, 12, .ro, 0, []⟩]⟩,
  ⟨"THERM_OE", 0x2C0, 4, 16, false, false, false, false, false, none,
    [⟨"TEMP", 0, 12, .ro, 0, []⟩]⟩]

/-- Registers of the BIST page (spec/20_bist_and_loopbacks.md, R505). -/
def regsBist : List RegDef := [
  ⟨"BIST_CMD", 0x100, 0, 1, false, false, false, false, false, none,
    [⟨"OP", 0, 2, .wo, 0, [(1, 2)]⟩]⟩,
  ⟨"BIST_SEL", 0x104, 0, 1, false, false, false, false, false, none,
    [⟨"SET", 0, 1, .rw, 0, []⟩, ⟨"CLASSES", 8, 8, .rw, 0, []⟩, ⟨"DIES", 16, 8, .rw, 0, []⟩]⟩,
  ⟨"BIST_CFG", 0x108, 0, 1, false, false, true, false, false, none,
    [⟨"MAX_CONC", 0, 4, .rw, 2, [(1, 8)]⟩, ⟨"MARGIN", 16, 12, .rw, 50, [(0, 500)]⟩]⟩,
  ⟨"BIST_STATUS", 0x10C, 0, 1, false, false, false, false, false, none,
    [⟨"BUSY", 0, 1, .ro, 0, []⟩, ⟨"RESULT", 1, 3, .ro, 0, []⟩, ⟨"RUNNING", 4, 4, .ro, 0, []⟩, ⟨"DONE", 8, 8, .ro, 0, []⟩, ⟨"FAILED", 16, 8, .ro, 0, []⟩]⟩,
  ⟨"BIST_LOG_ADDR", 0x110, 0, 1, true, false, false, false, false, none,
    [⟨"ADDR", 5, 47, .rw, 0, []⟩]⟩,
  ⟨"BIST_RUNS", 0x118, 0, 1, false, false, false, false, false, none,
    [⟨"COUNT", 0, 32, .ro, 0, []⟩]⟩,
  ⟨"BIST_FAILS", 0x11C, 0, 1, false, false, false, false, false, none,
    [⟨"COUNT", 0, 32, .ro, 0, []⟩]⟩]

/-- Registers of the LOOP page (spec/20_bist_and_loopbacks.md, R505). -/
def regsLoop : List RegDef := [
  ⟨"LOOP_SEL", 0x100, 0, 1, false, false, false, false, false, none,
    [⟨"IF", 0, 2, .rw, 0, [(0, 2)]⟩, ⟨"INST", 4, 5, .rw, 0, []⟩, ⟨"DEPTH", 9, 3, .rw, 1, []⟩]⟩,
  ⟨"LOOP_CMD", 0x104, 0, 1, false, false, false, false, false, none,
    [⟨"OP", 0, 2, .wo, 0, [(1, 2)]⟩]⟩,
  ⟨"LOOP_CFG", 0x108, 0, 1, false, false, true, false, false, none,
    [⟨"DURATION", 0, 16, .rw, 100, [(1, 65535)]⟩, ⟨"ERR_MAX", 16, 16, .rw, 0, []⟩]⟩,
  ⟨"LOOP_STATUS", 0x10C, 0, 1, false, false, false, false, false, none,
    [⟨"BUSY", 0, 1, .ro, 0, []⟩, ⟨"RESULT", 1, 3, .ro, 0, []⟩, ⟨"LIGHT", 4, 8, .ro, 0, []⟩]⟩,
  ⟨"LOOP_ERR", 0x110, 4, 8, false, false, false, false, false, none,
    [⟨"ERR", 0, 16, .ro, 0, []⟩]⟩,
  ⟨"LOOP_CXL", 0x130, 0, 1, false, false, false, false, false, none,
    [⟨"FOLLOW_DIS", 0, 1, .rw, 0, []⟩, ⟨"ENTRIES", 16, 16, .ro, 0, []⟩]⟩]

/-- Registers of the ROUTE page (spec/13_optical_fabric_and_slices.md, R366). -/
def regsRoute : List RegDef := [
  ⟨"ROUTE_IDX", 0x100, 0, 1, false, false, false, false, false, none,
    [⟨"NODE", 0, 12, .rw, 0, []⟩]⟩,
  ⟨"ROUTE_PRI", 0x104, 0, 1, false, true, false, false, false, none,
    [⟨"PRI", 0, 32, .ro, 0, []⟩]⟩,
  ⟨"ROUTE_ALT", 0x108, 0, 1, false, true, false, false, false, none,
    [⟨"ALT", 0, 32, .ro, 0, []⟩]⟩,
  ⟨"ROUTE_FLAGS", 0x10C, 0, 1, false, true, false, false, false, none,
    [⟨"V", 0, 1, .ro, 0, []⟩, ⟨"PRI_TRANSIT", 1, 1, .ro, 0, []⟩, ⟨"ALT_TRANSIT", 2, 1, .ro, 0, []⟩, ⟨"RACK", 3, 1, .ro, 0, []⟩, ⟨"SLICE", 8, 8, .ro, 0, []⟩]⟩,
  ⟨"ROUTE_PORTS_UP", 0x110, 0, 1, false, true, false, false, false, none,
    [⟨"UP", 0, 32, .ro, 0, []⟩]⟩,
  ⟨"ROUTE_UNREACHABLE", 0x114, 0, 1, false, false, false, false, false, none,
    [⟨"COUNT", 0, 32, .ro, 0, []⟩]⟩,
  ⟨"ROUTE_MISROUTED", 0x118, 0, 1, false, false, false, false, false, none,
    [⟨"COUNT", 0, 32, .ro, 0, []⟩]⟩,
  ⟨"ROUTE_ALT_USED", 0x11C, 0, 1, false, false, false, false, false, none,
    [⟨"COUNT", 0, 32, .ro, 0, []⟩]⟩,
  ⟨"ROUTE_REFUSED", 0x120, 0, 1, false, false, false, false, false, none,
    [⟨"COUNT", 0, 32, .ro, 0, []⟩]⟩]

/-- Registers of the LOCK page (spec/13_optical_fabric_and_slices.md, R366). -/
def regsLock : List RegDef := [
  ⟨"LOCK_IMG_ADDR", 0x100, 0, 1, true, false, true, false, false, none,
    [⟨"ADDR", 12, 40, .rw, 0, []⟩]⟩,
  ⟨"LOCK_CMD", 0x108, 0, 1, false, false, true, false, false, none,
    [⟨"OP", 0, 2, .wo, 0, [(1, 2)]⟩]⟩,
  ⟨"LOCK_RESULT", 0x10C, 0, 1, false, false, false, false, false, none,
    [⟨"RESULT", 0, 4, .ro, 0, []⟩, ⟨"BUSY", 4, 1, .ro, 0, []⟩, ⟨"INDEX", 8, 12, .ro, 0, []⟩]⟩,
  ⟨"LOCK_SELF", 0x110, 0, 1, false, false, false, false, false, none,
    [⟨"NODE", 0, 12, .ro, 0, []⟩, ⟨"SLICE", 12, 8, .ro, 0, []⟩, ⟨"GRANTS", 20, 5, .ro, 0, []⟩, ⟨"CFGGEN", 25, 7, .ro, 0, []⟩]⟩,
  ⟨"LOCK_DROP_INGRESS", 0x118, 0, 1, false, false, false, false, false, none,
    [⟨"COUNT", 0, 32, .ro, 0, []⟩]⟩,
  ⟨"LOCK_DROP_TRANSIT", 0x11C, 0, 1, false, false, false, false, false, none,
    [⟨"COUNT", 0, 32, .ro, 0, []⟩]⟩,
  ⟨"LOCK_DROP_DEST", 0x120, 0, 1, false, false, false, false, false, none,
    [⟨"COUNT", 0, 32, .ro, 0, []⟩]⟩,
  ⟨"LOCK_LAST_DROP", 0x124, 0, 1, false, false, false, false, false, none,
    [⟨"SRC", 0, 12, .ro, 0, []⟩, ⟨"SLICE", 12, 8, .ro, 0, []⟩, ⟨"PORT", 20, 6, .ro, 0, []⟩, ⟨"VC", 26, 3, .ro, 0, []⟩, ⟨"CHECK", 29, 3, .ro, 0, []⟩]⟩,
  ⟨"LOCK_TRANSIT", 0x200, 8, 16, true, false, false, false, false, none,
    [⟨"GRANT", 0, 64, .ro, 0, []⟩]⟩]

/-- Registers of the LINK page (spec/13_optical_fabric_and_slices.md, R366). -/
def regsLink : List RegDef := [
  ⟨"LINK_PLAN", 0x100, 0, 1, false, false, true, false, false, none,
    [⟨"PLAN", 0, 2, .ro, 0, []⟩, ⟨"MEMBER", 4, 3, .rw, 0, []⟩]⟩,
  ⟨"LINK_CFG", 0x104, 0, 1, false, false, true, false, false, none,
    [⟨"AUTO_RETRAIN", 0, 1, .rw, 1, []⟩, ⟨"RETRAIN_DELAY", 8, 8, .rw, 10, [(1, 255)]⟩, ⟨"FEC_UE_MAX", 16, 8, .rw, 16, []⟩, ⟨"REPLAY_MAX", 24, 8, .rw, 64, [(1, 255)]⟩]⟩,
  ⟨"LINK_EN", 0x108, 0, 1, false, false, true, false, false, none,
    [⟨"EN", 0, 16, .rw, 65535, []⟩]⟩,
  ⟨"LINK_UPMAP", 0x10C, 0, 1, false, true, false, false, false, none,
    [⟨"UP", 0, 16, .ro, 0, []⟩]⟩,
  ⟨"LINK_STATE", 0x200, 32, 16, false, false, false, false, false, none,
    [⟨"STATE", 0, 3, .ro, 0, []⟩, ⟨"LIGHT", 4, 8, .ro, 0, []⟩, ⟨"DOWN_CAUSE", 12, 4, .ro, 0, []⟩]⟩,
  ⟨"LINK_PEER", 0x204, 32, 16, false, false, false, false, false, none,
    [⟨"NODE", 0, 12, .ro, 0, []⟩, ⟨"SLICE", 12, 8, .ro, 0, []⟩, ⟨"MEMBER", 20, 3, .ro, 0, []⟩, ⟨"PLANE", 23, 1, .ro, 0, []⟩, ⟨"PEER_LINK", 24, 5, .ro, 0, []⟩, ⟨"VALID", 31, 1, .ro, 0, []⟩]⟩,
  ⟨"LINK_REPLAYS", 0x208, 32, 16, false, false, false, false, false, none,
    [⟨"COUNT", 0, 32, .ro, 0, []⟩]⟩,
  ⟨"LINK_FEC_CE", 0x20C, 32, 16, false, false, false, false, false, none,
    [⟨"COUNT", 0, 32, .ro, 0, []⟩]⟩,
  ⟨"LINK_FEC_UE", 0x210, 32, 16, false, false, false, false, false, none,
    [⟨"COUNT", 0, 32, .ro, 0, []⟩]⟩,
  ⟨"LINK_DOWNS", 0x214, 32, 16, false, false, false, false, false, none,
    [⟨"COUNT", 0, 32, .ro, 0, []⟩]⟩,
  ⟨"LINK_TIME_CFG", 0x400, 0, 1, false, false, true, false, false, none,
    [⟨"SOURCE", 0, 12, .rw, 0, []⟩, ⟨"MASTER", 12, 1, .rw, 0, []⟩, ⟨"EN", 13, 1, .rw, 0, []⟩, ⟨"PERIOD", 16, 8, .rw, 10, [(1, 255)]⟩]⟩,
  ⟨"LINK_TIME_STATUS", 0x404, 0, 1, false, false, false, false, false, none,
    [⟨"ALIGNED", 0, 1, .ro, 0, []⟩, ⟨"FREQ_LOCK", 1, 1, .ro, 0, []⟩, ⟨"NO_PATH", 2, 1, .ro, 0, []⟩]⟩,
  ⟨"LINK_TIME_OFFSET", 0x408, 0, 1, false, false, false, false, false, none,
    [⟨"THETA", 0, 32, .ro, 0, []⟩]⟩,
  ⟨"LINK_TIME_DELAY", 0x40C, 0, 1, false, false, false, false, false, none,
    [⟨"DELTA", 0, 32, .ro, 0, []⟩]⟩,
  ⟨"LINK_TIME_TRIM", 0x410, 0, 1, false, false, false, false, false, none,
    [⟨"TRIM", 0, 32, .ro, 0, []⟩]⟩]

/-- Registers of the MX page (spec/04_matrix_engine_and_pan_arithmetic.md, R136). -/
def regsMx : List RegDef := [
  ⟨"MX_DIE_CTRL", 0x100, 0, 1, false, false, true, false, false, none,
    [⟨"LOSS_EVT_EN", 0, 1, .rw, 0, []⟩, ⟨"OVF_EVT_EN", 1, 1, .rw, 1, []⟩]⟩,
  ⟨"MX_DIE_STATUS", 0x104, 0, 1, false, true, false, false, false, none,
    [⟨"ANY_LOSS", 0, 1, .ro, 0, []⟩, ⟨"ANY_OVF", 1, 1, .ro, 0, []⟩, ⟨"ANY_NAN", 2, 1, .ro, 0, []⟩, ⟨"ANY_ERR", 3, 1, .ro, 0, []⟩]⟩,
  ⟨"MX_FLAGS", 0x200, 4, 64, false, false, false, false, false, none,
    [⟨"PAN_LOSS", 0, 1, .w1c, 0, []⟩, ⟨"PAN_OVF", 1, 1, .w1c, 0, []⟩, ⟨"PAN_NAN", 2, 1, .w1c, 0, []⟩, ⟨"ACC_INF", 3, 1, .w1c, 0, []⟩, ⟨"RD_SAT", 4, 1, .w1c, 0, []⟩, ⟨"WCOLL", 5, 1, .w1c, 0, []⟩, ⟨"MODE_ERR", 8, 1, .w1c, 0, []⟩, ⟨"BAD_BLOCK", 9, 1, .w1c, 0, []⟩]⟩,
  ⟨"MX_STATE", 0x300, 4, 64, false, true, false, false, false, none,
    [⟨"MODE", 0, 2, .ro, 0, []⟩, ⟨"BP", 2, 8, .ro, 0, []⟩, ⟨"AFMT", 10, 2, .ro, 0, []⟩, ⟨"QDEPTH", 12, 5, .ro, 0, []⟩, ⟨"BUSY", 17, 1, .ro, 0, []⟩]⟩]

/-- Registers of the SCR page (spec/06_scratchpads_and_basin.md, R176). -/
def regsScr : List RegDef := [
  ⟨"SCR_DIE_CTRL", 0x100, 0, 1, false, false, true, false, false, none,
    [⟨"WCOLL_EVT_EN", 0, 1, .rw, 0, []⟩, ⟨"CE_EVT_EN", 1, 1, .rw, 1, []⟩]⟩,
  ⟨"SCR_DIE_STATUS", 0x104, 0, 1, false, true, false, false, false, none,
    [⟨"ANY_WCOLL", 0, 1, .ro, 0, []⟩, ⟨"ANY_CE", 1, 1, .ro, 0, []⟩, ⟨"CLEAR_BUSY", 2, 1, .ro, 0, []⟩]⟩,
  ⟨"SCR_WCOLL", 0x200, 4, 64, false, false, false, false, false, none,
    [⟨"P0", 0, 1, .w1c, 0, []⟩, ⟨"P1", 1, 1, .w1c, 0, []⟩, ⟨"P2", 2, 1, .w1c, 0, []⟩, ⟨"COUNT", 16, 16, .rc, 0, []⟩]⟩,
  ⟨"SCR_CE", 0x300, 4, 64, false, false, false, false, false, none,
    [⟨"COUNT", 0, 16, .rc, 0, []⟩, ⟨"LAST_BANK", 16, 5, .ro, 0, []⟩, ⟨"LAST_ROW", 21, 9, .ro, 0, []⟩]⟩]

/-- Registers of the BASIN page (spec/06_scratchpads_and_basin.md, R176). -/
def regsBasin : List RegDef := [
  ⟨"BASIN_CTRL", 0x100, 0, 1, false, false, true, false, false, none,
    [⟨"SCRUB_EN", 0, 1, .rw, 1, []⟩, ⟨"CE_EVT_EN", 1, 1, .rw, 1, []⟩, ⟨"SCRUB_PERIOD", 8, 16, .rw, 400, [(100, 65535)]⟩]⟩,
  ⟨"BASIN_STATUS", 0x104, 0, 1, false, false, false, false, false, none,
    [⟨"CLEAR_BUSY", 0, 1, .ro, 0, []⟩, ⟨"SCRUB_ACTIVE", 1, 1, .ro, 0, []⟩, ⟨"RETIRED", 16, 10, .ro, 0, []⟩]⟩,
  ⟨"BASIN_CE_COUNT", 0x108, 0, 1, false, false, false, false, false, none,
    [⟨"COUNT", 0, 32, .rc, 0, []⟩]⟩,
  ⟨"BASIN_UE_COUNT", 0x10C, 0, 1, false, false, false, false, false, none,
    [⟨"COUNT", 0, 32, .rc, 0, []⟩]⟩,
  ⟨"BASIN_SCRUB_PASSES", 0x110, 0, 1, false, false, false, false, false, none,
    [⟨"COUNT", 0, 32, .ro, 0, []⟩]⟩,
  ⟨"BASIN_UE_LAST", 0x118, 0, 1, true, false, false, false, false, none,
    [⟨"LINE", 0, 18, .ro, 0, []⟩, ⟨"OUTCOME", 18, 3, .ro, 0, []⟩, ⟨"SCRUB", 21, 1, .ro, 0, []⟩, ⟨"CTX", 24, 4, .ro, 0, []⟩, ⟨"TICK_LO", 32, 32, .ro, 0, []⟩]⟩,
  ⟨"BASIN_RETIRED", 0x200, 4, 16, false, false, false, false, false, none,
    [⟨"SUBPAGE", 0, 32, .ro, 0, []⟩]⟩]

/-- Registers of the GAUGE page (spec/18_gauges.md, R466). -/
def regsGauge : List RegDef := [
  ⟨"GAUGE_CTRL", 0x100, 0, 1, false, false, false, false, false, none,
    [⟨"FREEZE", 0, 1, .rw, 0, []⟩, ⟨"SNAP", 1, 1, .wo, 0, []⟩, ⟨"OVF_EVT_EN", 2, 1, .rw, 0, []⟩]⟩,
  ⟨"GAUGE_STATUS", 0x104, 0, 1, false, true, false, false, false, none,
    [⟨"FROZEN", 0, 1, .ro, 0, []⟩]⟩,
  ⟨"GAUGE_CORE_SEL", 0x108, 0, 1, false, false, false, false, false, none,
    [⟨"CORE", 0, 6, .rw, 0, []⟩]⟩,
  ⟨"GAUGE_SEL_ALL", 0x10C, 0, 1, false, false, false, false, false, none,
    [⟨"EVENT", 0, 8, .wo, 0, []⟩, ⟨"INDEX", 8, 3, .wo, 0, []⟩]⟩,
  ⟨"GAUGE_OVF_ANY", 0x110, 0, 1, true, true, false, false, false, none,
    [⟨"ANY", 0, 64, .ro, 0, []⟩]⟩,
  ⟨"GAUGE_EVSEL", 0x140, 4, 8, false, true, false, false, false, none,
    [⟨"EVENT", 0, 8, .rw, 0, []⟩]⟩,
  ⟨"GAUGE_OVF", 0x180, 0, 1, false, true, false, false, false, none,
    [⟨"OVF", 0, 16, .w1c, 0, []⟩]⟩,
  ⟨"GAUGE_CLR", 0x184, 0, 1, false, false, false, false, false, none,
    [⟨"BITS", 0, 16, .wo, 0, []⟩, ⟨"ALL", 16, 1, .wo, 0, []⟩]⟩,
  ⟨"GAUGE_VAL", 0x200, 8, 16, true, true, false, false, false, none,
    [⟨"COUNT", 0, 48, .ro, 0, []⟩]⟩,
  ⟨"GAUGE_SNAP", 0x280, 8, 16, true, true, false, false, false, none,
    [⟨"COUNT", 0, 48, .ro, 0, []⟩, ⟨"OVF", 63, 1, .ro, 0, []⟩]⟩,
  ⟨"GAUGE_SNAP_TICK", 0x300, 0, 1, true, false, false, false, false, none,
    [⟨"TICK", 0, 64, .ro, 0, []⟩]⟩]

/-- Registers of the GAUGEM page (spec/18_gauges.md, R466). -/
def regsGaugeM : List RegDef := [
  ⟨"GAUGE_MCTRL", 0x100, 0, 1, false, false, false, false, false, none,
    [⟨"FREEZE", 0, 1, .rw, 0, []⟩, ⟨"SNAP", 1, 1, .wo, 0, []⟩, ⟨"FREEZE_ALL", 2, 1, .rw, 0, []⟩, ⟨"SNAP_ALL", 3, 1, .wo, 0, []⟩, ⟨"OVF_EVT_EN", 4, 1, .rw, 0, []⟩, ⟨"STEP_SNAP", 5, 1, .rw, 0, []⟩, ⟨"STEP_CTX", 8, 4, .rw, 0, []⟩]⟩,
  ⟨"GAUGE_MSTATUS", 0x104, 0, 1, false, true, false, false, false, none,
    [⟨"FROZEN", 0, 1, .ro, 0, []⟩]⟩,
  ⟨"GAUGE_USER_EN", 0x108, 0, 1, false, false, true, false, false, none,
    [⟨"EN", 0, 16, .rw, 0, []⟩]⟩,
  ⟨"GAUGE_MOVF", 0x110, 0, 1, true, false, false, false, false, none,
    [⟨"OVF", 0, 64, .w1c, 0, []⟩]⟩,
  ⟨"GAUGE_MCLR", 0x118, 0, 1, true, false, false, false, false, none,
    [⟨"CLR", 0, 64, .wo, 0, []⟩]⟩,
  ⟨"GAUGE_MSNAP_TICK", 0x120, 0, 1, true, false, false, false, false, none,
    [⟨"TICK", 0, 64, .ro, 0, []⟩]⟩,
  ⟨"GAUGE_MSEL", 0x200, 4, 64, false, false, false, false, false, none,
    [⟨"EVENT", 0, 8, .rw, 0, []⟩, ⟨"INST", 8, 6, .rw, 0, []⟩, ⟨"CTX", 16, 4, .rw, 0, []⟩, ⟨"CTX_EN", 20, 1, .rw, 0, []⟩]⟩,
  ⟨"GAUGE_MVAL", 0x400, 8, 64, true, false, false, false, false, none,
    [⟨"COUNT", 0, 48, .ro, 0, []⟩]⟩,
  ⟨"GAUGE_MSNAP", 0x600, 8, 64, true, false, false, false, false, none,
    [⟨"COUNT", 0, 48, .ro, 0, []⟩, ⟨"OVF", 63, 1, .ro, 0, []⟩]⟩]

/-- Registers of the CORE page (spec/03_suina_core.md, R112). -/
def regsCore : List RegDef := [
  ⟨"CORE_CFG", 0x100, 0, 1, false, false, true, false, false, none,
    [⟨"RUNAHEAD_THRESH", 0, 10, .rw, 64, []⟩, ⟨"RUNAHEAD_MAX", 12, 8, .rw, 64, [(1, 255)]⟩, ⟨"BPRED_EN", 24, 1, .rw, 1, []⟩]⟩,
  ⟨"CORE_STATE", 0x104, 0, 1, false, false, false, false, false, none,
    [⟨"STATE", 0, 3, .ro, 0, []⟩, ⟨"RA_ACTIVE", 3, 1, .ro, 0, []⟩, ⟨"CTX", 8, 4, .ro, 0, []⟩]⟩,
  ⟨"CORE_FENCE", 0x108, 0, 1, false, false, false, false, false, some 1,
    [⟨"FENCE", 0, 1, .wo, 0, []⟩, ⟨"UNFENCE", 1, 1, .wo, 0, []⟩, ⟨"PARITY", 8, 1, .ro, 0, []⟩, ⟨"SCR_UE", 9, 1, .ro, 0, []⟩, ⟨"WDOG", 10, 1, .ro, 0, []⟩, ⟨"BIST", 11, 1, .ro, 0, []⟩, ⟨"COMMAND", 12, 1, .ro, 0, []⟩]⟩,
  ⟨"CORE_WDOG", 0x10C, 0, 1, false, false, true, false, false, none,
    [⟨"LIMIT", 0, 24, .rw, 1000, [(100, 16777215)]⟩]⟩,
  ⟨"CORE_ECAUSE", 0x110, 0, 1, false, false, false, false, false, none,
    [⟨"CAUSE", 0, 8, .ro, 0, []⟩, ⟨"SLOT", 8, 3, .ro, 0, []⟩]⟩,
  ⟨"CORE_EPC", 0x118, 0, 1, true, false, false, false, false, none,
    [⟨"PC", 0, 48, .ro, 0, []⟩]⟩,
  ⟨"CORE_EADDR", 0x120, 0, 1, true, false, false, false, false, none,
    [⟨"ADDR", 0, 64, .ro, 0, []⟩]⟩,
  ⟨"CORE_PC", 0x128, 0, 1, true, false, false, false, false, none,
    [⟨"PC", 0, 48, .ro, 0, []⟩]⟩]

/-- Registers of the CTX page (spec/16_contexts_shares_and_duty_modes.md, R430). -/
def regsCtx : List RegDef := [
  ⟨"CTX_CMD", 0x100, 0, 1, false, false, false, false, false, none,
    [⟨"OP", 0, 3, .wo, 0, []⟩]⟩,
  ⟨"CTX_STATUS", 0x104, 0, 1, false, false, false, false, false, none,
    [⟨"STATE", 0, 3, .ro, 0, []⟩, ⟨"BUSY", 3, 1, .ro, 0, []⟩, ⟨"CORES", 16, 10, .ro, 0, []⟩]⟩,
  ⟨"CTX_CMD_RESULT", 0x108, 0, 1, false, false, false, false, false, none,
    [⟨"RESULT", 0, 4, .ro, 0, []⟩]⟩,
  ⟨"CTX_SHARES_A", 0x10C, 0, 1, false, false, true, true, false, none,
    [⟨"HBM", 0, 10, .rw, 100, [(1, 1000)]⟩, ⟨"FABRIC", 16, 10, .rw, 100, [(1, 1000)]⟩]⟩,
  ⟨"CTX_SHARES_B", 0x110, 0, 1, false, false, true, true, false, none,
    [⟨"HOST", 0, 10, .rw, 100, [(1, 1000)]⟩, ⟨"XTAL", 16, 10, .rw, 100, [(1, 1000)]⟩]⟩,
  ⟨"CTX_SHARES_C", 0x114, 0, 1, false, false, true, true, false, none,
    [⟨"SLUICE", 0, 10, .rw, 100, [(1, 1000)]⟩]⟩,
  ⟨"CTX_ACCT_CTRL", 0x118, 0, 1, false, false, false, false, false, none,
    [⟨"SNAP", 0, 1, .wo, 0, []⟩]⟩,
  ⟨"CTX_CORES_REQ", 0x140, 4, 16, false, false, false, true, false, none,
    [⟨"BITS", 0, 32, .rw, 0, []⟩]⟩,
  ⟨"CTX_CORES", 0x180, 4, 16, false, false, false, false, false, none,
    [⟨"BITS", 0, 32, .ro, 0, []⟩]⟩,
  ⟨"CTX_ACCT_BUSY", 0x200, 0, 1, true, false, false, false, false, none,
    [⟨"COUNT", 0, 64, .ro, 0, []⟩]⟩,
  ⟨"CTX_ACCT_BITMAC", 0x208, 0, 1, true, false, false, false, false, none,
    [⟨"COUNT", 0, 64, .ro, 0, []⟩]⟩,
  ⟨"CTX_ACCT_HBM", 0x210, 0, 1, true, false, false, false, false, none,
    [⟨"COUNT", 0, 64, .ro, 0, []⟩]⟩,
  ⟨"CTX_ACCT_FABRIC", 0x218, 0, 1, true, false, false, false, false, none,
    [⟨"COUNT", 0, 64, .ro, 0, []⟩]⟩,
  ⟨"CTX_ACCT_ENERGY", 0x220, 0, 1, true, false, false, false, false, none,
    [⟨"COUNT", 0, 64, .ro, 0, []⟩]⟩,
  ⟨"CTX_SNAP", 0x240, 8, 5, true, false, false, false, false, none,
    [⟨"COUNT", 0, 64, .ro, 0, []⟩]⟩,
  ⟨"CTX_SNAP_TICK", 0x268, 0, 1, true, false, false, false, false, none,
    [⟨"TICK", 0, 64, .ro, 0, []⟩]⟩]

/-- Registers of the LD page (spec/15_host_port_and_logical_devices.md, R413). -/
def regsLd : List RegDef := [
  ⟨"LD_CTRL", 0x100, 0, 1, false, false, false, false, false, none,
    [⟨"RINGS_EN", 0, 1, .rw, 0, []⟩]⟩,
  ⟨"LD_STATUS", 0x104, 0, 1, false, false, false, false, false, none,
    [⟨"ENABLED", 0, 1, .ro, 0, []⟩, ⟨"RESET_BUSY", 1, 1, .ro, 0, []⟩, ⟨"DB_ERR", 2, 1, .w1c, 0, []⟩, ⟨"EVQ_OVF", 3, 1, .w1c, 0, []⟩]⟩,
  ⟨"LD_SQ_BASE", 0x108, 0, 1, true, false, false, false, false, none,
    [⟨"ADDR", 12, 40, .rw, 0, []⟩]⟩,
  ⟨"LD_CQ_BASE", 0x110, 0, 1, true, false, false, false, false, none,
    [⟨"ADDR", 12, 40, .rw, 0, []⟩]⟩,
  ⟨"LD_TOK_BASE", 0x118, 0, 1, true, false, false, false, false, none,
    [⟨"ADDR", 12, 40, .rw, 0, []⟩]⟩,
  ⟨"LD_EVQ_BASE", 0x120, 0, 1, true, false, false, false, false, none,
    [⟨"ADDR", 12, 40, .rw, 0, []⟩]⟩,
  ⟨"LD_STATUS_ADDR", 0x128, 0, 1, true, false, false, false, false, none,
    [⟨"ADDR", 6, 46, .rw, 0, []⟩]⟩,
  ⟨"LD_RING_SIZES", 0x130, 0, 1, false, false, false, false, false, none,
    [⟨"SQ", 0, 8, .rw, 10, [(4, 16)]⟩, ⟨"CQ", 8, 8, .rw, 10, [(4, 16)]⟩, ⟨"TOK", 16, 8, .rw, 10, [(4, 20)]⟩, ⟨"EVQ", 24, 8, .rw, 10, [(4, 16)]⟩]⟩,
  ⟨"LD_IRQ_CQ", 0x134, 0, 1, false, false, false, false, false, none,
    [⟨"VECTOR", 0, 6, .rw, 0, []⟩, ⟨"EN", 6, 1, .rw, 0, []⟩, ⟨"COUNT", 8, 8, .rw, 1, [(1, 255)]⟩, ⟨"TIME", 16, 16, .rw, 0, []⟩]⟩,
  ⟨"LD_IRQ_TOK", 0x138, 0, 1, false, false, false, false, false, none,
    [⟨"VECTOR", 0, 6, .rw, 1, []⟩, ⟨"EN", 6, 1, .rw, 0, []⟩, ⟨"COUNT", 8, 8, .rw, 1, [(1, 255)]⟩, ⟨"TIME", 16, 16, .rw, 0, []⟩]⟩,
  ⟨"LD_IRQ_EVQ", 0x13C, 0, 1, false, false, false, false, false, none,
    [⟨"VECTOR", 0, 6, .rw, 2, []⟩, ⟨"EN", 6, 1, .rw, 0, []⟩, ⟨"COUNT", 8, 8, .rw, 1, [(1, 255)]⟩, ⟨"TIME", 16, 16, .rw, 0, []⟩]⟩,
  ⟨"LD_RESET", 0x140, 0, 1, false, false, false, false, false, none,
    [⟨"LD", 0, 1, .wo, 0, []⟩, ⟨"CTX", 1, 1, .wo, 0, []⟩]⟩,
  ⟨"LD_SQ_HEAD", 0x144, 0, 1, false, false, false, false, false, none,
    [⟨"INDEX", 0, 32, .ro, 0, []⟩]⟩,
  ⟨"LD_CQ_TAIL", 0x148, 0, 1, false, false, false, false, false, none,
    [⟨"INDEX", 0, 32, .ro, 0, []⟩]⟩,
  ⟨"LD_TOK_TAIL", 0x14C, 0, 1, false, false, false, false, false, none,
    [⟨"INDEX", 0, 32, .ro, 0, []⟩]⟩,
  ⟨"LD_EVQ_TAIL", 0x150, 0, 1, false, false, false, false, false, none,
    [⟨"INDEX", 0, 32, .ro, 0, []⟩]⟩,
  ⟨"LD_CMDS", 0x158, 0, 1, true, false, false, false, false, none,
    [⟨"COUNT", 0, 64, .ro, 0, []⟩]⟩,
  ⟨"LD_RING_WAITS", 0x160, 0, 1, false, false, false, false, false, none,
    [⟨"COUNT", 0, 32, .ro, 0, []⟩]⟩,
  ⟨"LD_CQ_DROPPED", 0x164, 0, 1, false, false, false, false, false, none,
    [⟨"COUNT", 0, 32, .ro, 0, []⟩]⟩,
  ⟨"LD_EVQ_DROPPED", 0x168, 0, 1, false, false, false, false, false, none,
    [⟨"COUNT", 0, 32, .ro, 0, []⟩]⟩,
  ⟨"LD_MEM_REFUSED", 0x16C, 0, 1, false, false, false, false, false, none,
    [⟨"COUNT", 0, 32, .ro, 0, []⟩]⟩]

/-- Registers of the DUTY page (spec/16_contexts_shares_and_duty_modes.md, R430). -/
def regsDuty : List RegDef := [
  ⟨"DUTY_CTRL", 0x100, 0, 1, false, false, false, false, false, none,
    [⟨"RING_EN", 0, 1, .rw, 0, []⟩]⟩,
  ⟨"DUTY_STATUS", 0x104, 0, 1, false, false, false, false, false, none,
    [⟨"RING_FULL", 0, 1, .ro, 0, []⟩, ⟨"OUTSTANDING", 16, 13, .ro, 0, []⟩]⟩,
  ⟨"DUTY_REQ_BASE", 0x108, 0, 1, true, false, false, false, false, none,
    [⟨"ADDR", 12, 40, .rw, 0, []⟩]⟩,
  ⟨"DUTY_ANS_BASE", 0x110, 0, 1, true, false, false, false, false, none,
    [⟨"ADDR", 12, 40, .rw, 0, []⟩]⟩,
  ⟨"DUTY_RING_SIZES", 0x118, 0, 1, false, false, false, false, false, none,
    [⟨"REQ", 0, 4, .rw, 8, [(4, 12)]⟩, ⟨"ANS", 8, 4, .rw, 8, [(4, 12)]⟩]⟩,
  ⟨"DUTY_REQ_HEAD", 0x11C, 0, 1, false, false, false, false, false, none,
    [⟨"INDEX", 0, 32, .rw, 0, []⟩]⟩,
  ⟨"DUTY_REQ_TAIL", 0x120, 0, 1, false, false, false, false, false, none,
    [⟨"INDEX", 0, 32, .ro, 0, []⟩]⟩,
  ⟨"DUTY_ANS_TAIL", 0x124, 0, 1, false, false, false, false, false, none,
    [⟨"INDEX", 0, 32, .rw, 0, []⟩]⟩,
  ⟨"DUTY_ANS_HEAD", 0x128, 0, 1, false, false, false, false, false, none,
    [⟨"INDEX", 0, 32, .ro, 0, []⟩]⟩,
  ⟨"DUTY_IRQ", 0x12C, 0, 1, false, false, false, false, false, none,
    [⟨"VECTOR", 0, 6, .rw, 3, []⟩, ⟨"EN", 6, 1, .rw, 0, []⟩, ⟨"COUNT", 8, 8, .rw, 1, [(1, 255)]⟩, ⟨"TIME", 16, 16, .rw, 0, []⟩]⟩,
  ⟨"DUTY_FALLBACK", 0x130, 0, 1, false, false, true, false, false, none,
    [⟨"KINDS", 1, 7, .rw, 127, []⟩]⟩,
  ⟨"DUTY_TIMEOUT1", 0x144, 0, 1, false, false, true, false, false, none,
    [⟨"LIMIT", 0, 24, .rw, 100000, [(100, 16777215)]⟩]⟩,
  ⟨"DUTY_TIMEOUT2", 0x148, 0, 1, false, false, true, false, false, none,
    [⟨"LIMIT", 0, 24, .rw, 5000, [(100, 16777215)]⟩]⟩,
  ⟨"DUTY_TIMEOUT3", 0x14C, 4, 5, false, false, true, false, false, none,
    [⟨"LIMIT", 0, 24, .rw, 100000, [(100, 16777215)]⟩]⟩,
  ⟨"DUTY_POSTED", 0x160, 0, 1, true, false, false, false, false, none,
    [⟨"COUNT", 0, 64, .ro, 0, []⟩]⟩,
  ⟨"DUTY_ANSWERED", 0x168, 0, 1, true, false, false, false, false, none,
    [⟨"COUNT", 0, 64, .ro, 0, []⟩]⟩,
  ⟨"DUTY_TIMEOUTS", 0x170, 0, 1, false, false, false, false, false, none,
    [⟨"COUNT", 0, 32, .ro, 0, []⟩]⟩,
  ⟨"DUTY_LATE", 0x174, 0, 1, false, false, false, false, false, none,
    [⟨"COUNT", 0, 32, .ro, 0, []⟩]⟩,
  ⟨"DUTY_BAD_ANSWERS", 0x178, 0, 1, false, false, false, false, false, none,
    [⟨"COUNT", 0, 32, .ro, 0, []⟩]⟩,
  ⟨"DUTY_RING_FULL", 0x17C, 0, 1, false, false, false, false, false, none,
    [⟨"COUNT", 0, 32, .ro, 0, []⟩]⟩]

/-- Registers of the MANI page (spec/11_manifest_and_step_building.md, R316). -/
def regsMani : List RegDef := [
  ⟨"MANI_CTRL", 0x100, 0, 1, false, false, false, false, true, none,
    [⟨"EN", 0, 1, .rw, 0, []⟩]⟩,
  ⟨"MANI_STATUS", 0x104, 0, 1, false, true, false, false, false, none,
    [⟨"ACTIVE", 0, 11, .ro, 0, []⟩, ⟨"DRAINING", 16, 11, .ro, 0, []⟩, ⟨"HELM", 31, 1, .ro, 0, []⟩]⟩,
  ⟨"MANI_MIRROR_BASE", 0x108, 0, 1, true, false, true, false, false, none,
    [⟨"ADDR", 12, 36, .rw, 0, []⟩]⟩,
  ⟨"MANI_CMD_ARG", 0x110, 0, 1, true, false, false, false, false, none,
    [⟨"SLOT", 0, 10, .rw, 0, []⟩, ⟨"GEN", 10, 8, .rw, 0, []⟩, ⟨"VALUE", 18, 4, .rw, 0, []⟩]⟩,
  ⟨"MANI_CMD", 0x118, 0, 1, false, false, false, false, false, none,
    [⟨"OP", 0, 2, .wo, 0, [(1, 2)]⟩]⟩,
  ⟨"MANI_CMD_RESULT", 0x11C, 0, 1, false, false, false, false, false, none,
    [⟨"RESULT", 0, 2, .ro, 0, []⟩]⟩,
  ⟨"MANI_ADMITTED", 0x120, 0, 1, true, false, false, false, false, none,
    [⟨"COUNT", 0, 64, .ro, 0, []⟩]⟩,
  ⟨"MANI_TOKENS", 0x128, 0, 1, true, false, false, false, false, none,
    [⟨"COUNT", 0, 64, .ro, 0, []⟩]⟩,
  ⟨"MANI_LATE_TTFT", 0x130, 0, 1, false, false, false, false, false, none,
    [⟨"COUNT", 0, 32, .ro, 0, []⟩]⟩,
  ⟨"MANI_LATE_TBT", 0x134, 0, 1, false, false, false, false, false, none,
    [⟨"COUNT", 0, 32, .ro, 0, []⟩]⟩,
  ⟨"MANI_ADMIT_REFUSED", 0x138, 0, 1, false, false, false, false, false, none,
    [⟨"COUNT", 0, 32, .ro, 0, []⟩]⟩,
  ⟨"MANI_ENDS", 0x144, 4, 8, false, false, false, false, false, none,
    [⟨"COUNT", 0, 32, .ro, 0, []⟩]⟩]

/-- Registers of the STEP page (spec/11_manifest_and_step_building.md, R316). -/
def regsStep : List RegDef := [
  ⟨"STEP_CTRL", 0x100, 0, 1, false, false, true, false, false, none,
    [⟨"HELM", 0, 1, .rw, 0, []⟩, ⟨"EN", 1, 1, .rw, 0, []⟩]⟩,
  ⟨"STEP_NODES", 0x104, 0, 1, false, false, true, false, false, none,
    [⟨"HELM_NODE", 0, 12, .rw, 0, []⟩, ⟨"NODE_LO", 16, 12, .rw, 0, []⟩]⟩,
  ⟨"STEP_NODE_COUNT", 0x108, 0, 1, false, false, true, false, false, none,
    [⟨"COUNT", 0, 13, .rw, 1, [(1, 4096)]⟩]⟩,
  ⟨"STEP_ENTRY_PC", 0x110, 0, 1, true, false, true, false, false, none,
    [⟨"PC", 6, 42, .rw, 0, []⟩]⟩,
  ⟨"STEP_BCAST_BASE", 0x118, 0, 1, true, false, true, false, false, none,
    [⟨"ADDR", 16, 32, .rw, 0, []⟩]⟩,
  ⟨"STEP_WIDTH", 0x120, 0, 1, false, false, true, false, false, none,
    [⟨"WIDTH", 0, 10, .rw, 512, [(1, 512)]⟩]⟩,
  ⟨"STEP_PREFILL_BUDGET", 0x124, 0, 1, false, false, true, false, false, none,
    [⟨"TOKENS", 0, 16, .rw, 8192, []⟩]⟩,
  ⟨"STEP_TBT_FLOOR", 0x128, 0, 1, false, false, true, false, false, none,
    [⟨"FLOOR", 0, 24, .rw, 0, []⟩]⟩,
  ⟨"STEP_DRAFT", 0x12C, 0, 1, false, false, true, false, false, none,
    [⟨"BACKOFF", 0, 8, .rw, 4, [(1, 255)]⟩, ⟨"RETRY", 8, 16, .rw, 256, []⟩]⟩,
  ⟨"STEP_LIMITS", 0x130, 0, 1, false, false, true, false, false, none,
    [⟨"READY_TIMEOUT", 0, 16, .rw, 2000, [(1, 65535)]⟩, ⟨"REPLAY_MAX", 16, 8, .rw, 16, [(1, 255)]⟩]⟩,
  ⟨"STEP_NUMBER", 0x138, 0, 1, true, false, false, false, false, none,
    [⟨"STEP", 0, 64, .ro, 0, []⟩]⟩,
  ⟨"STEP_STATUS", 0x140, 0, 1, false, false, false, false, false, none,
    [⟨"PHASE", 0, 2, .ro, 0, []⟩, ⟨"INSTANCE", 8, 8, .ro, 0, []⟩, ⟨"ENTRIES", 16, 10, .ro, 0, []⟩]⟩,
  ⟨"STEP_STEPS", 0x148, 0, 1, true, false, false, false, false, none,
    [⟨"COUNT", 0, 64, .ro, 0, []⟩]⟩,
  ⟨"STEP_PREFILL_TOKENS", 0x150, 0, 1, true, false, false, false, false, none,
    [⟨"COUNT", 0, 64, .ro, 0, []⟩]⟩,
  ⟨"STEP_DRAFT_PROPOSED", 0x158, 0, 1, true, false, false, false, false, none,
    [⟨"COUNT", 0, 64, .ro, 0, []⟩]⟩,
  ⟨"STEP_DRAFT_ACCEPTED", 0x160, 0, 1, true, false, false, false, false, none,
    [⟨"COUNT", 0, 64, .ro, 0, []⟩]⟩,
  ⟨"STEP_REPLAYS", 0x168, 0, 1, false, false, false, false, false, none,
    [⟨"COUNT", 0, 32, .ro, 0, []⟩]⟩,
  ⟨"STEP_STALLS", 0x16C, 0, 1, false, false, false, false, false, none,
    [⟨"COUNT", 0, 32, .ro, 0, []⟩]⟩,
  ⟨"STEP_DUTY_DROPPED", 0x170, 0, 1, false, false, false, false, false, none,
    [⟨"COUNT", 0, 32, .ro, 0, []⟩]⟩]

/-- Registers of the TOLL page (spec/11_manifest_and_step_building.md, R316). -/
def regsToll : List RegDef := [
  ⟨"TOLL_SEL", 0x100, 0, 1, false, false, false, false, false, none,
    [⟨"TENANT", 0, 8, .rw, 0, []⟩]⟩,
  ⟨"TOLL_P_RATE", 0x104, 0, 1, false, true, true, false, false, none,
    [⟨"RATE", 0, 24, .rw, 0, []⟩]⟩,
  ⟨"TOLL_P_DEPTH", 0x108, 0, 1, false, true, true, false, false, none,
    [⟨"DEPTH", 0, 32, .rw, 4294967295, []⟩]⟩,
  ⟨"TOLL_P_LEVEL", 0x10C, 0, 1, false, true, false, false, false, none,
    [⟨"LEVEL", 0, 32, .rw, 4294967295, []⟩]⟩,
  ⟨"TOLL_D_RATE", 0x110, 0, 1, false, true, true, false, false, none,
    [⟨"RATE", 0, 24, .rw, 0, []⟩]⟩,
  ⟨"TOLL_D_DEPTH", 0x114, 0, 1, false, true, true, false, false, none,
    [⟨"DEPTH", 0, 32, .rw, 4294967295, []⟩]⟩,
  ⟨"TOLL_D_LEVEL", 0x118, 0, 1, false, true, false, false, false, none,
    [⟨"LEVEL", 0, 32, .rw, 4294967295, []⟩]⟩,
  ⟨"TOLL_P_TOKENS", 0x120, 0, 1, true, true, false, false, false, none,
    [⟨"COUNT", 0, 64, .ro, 0, []⟩]⟩,
  ⟨"TOLL_D_TOKENS", 0x128, 0, 1, true, true, false, false, false, none,
    [⟨"COUNT", 0, 64, .ro, 0, []⟩]⟩,
  ⟨"TOLL_SKIPS", 0x130, 0, 1, false, true, false, false, false, none,
    [⟨"COUNT", 0, 32, .ro, 0, []⟩]⟩,
  ⟨"TOLL_P_EMPTY", 0x140, 4, 8, false, true, false, false, false, none,
    [⟨"BITS", 0, 32, .ro, 0, []⟩]⟩,
  ⟨"TOLL_D_EMPTY", 0x160, 4, 8, false, true, false, false, false, none,
    [⟨"BITS", 0, 32, .ro, 0, []⟩]⟩]

/-- Registers of the XTAL page (spec/12_crystalliser.md, R335). -/
def regsXtal : List RegDef := [
  ⟨"XTAL_CTRL", 0x100, 0, 1, false, false, false, false, true, none,
    [⟨"EN", 0, 1, .rw, 0, []⟩]⟩,
  ⟨"XTAL_STATUS", 0x104, 0, 1, false, true, false, false, false, none,
    [⟨"QUEUED", 0, 8, .ro, 0, []⟩, ⟨"HELM", 31, 1, .ro, 0, []⟩]⟩,
  ⟨"XTAL_HIST_BASE", 0x108, 0, 1, true, false, true, false, false, none,
    [⟨"ADDR", 12, 36, .rw, 0, []⟩]⟩,
  ⟨"XTAL_LAST_FAULT", 0x110, 0, 1, false, false, false, false, false, none,
    [⟨"STATUS", 0, 8, .ro, 0, []⟩, ⟨"SLOT", 8, 10, .ro, 0, []⟩, ⟨"GEN", 18, 8, .ro, 0, []⟩]⟩,
  ⟨"XTAL_SAMPLES", 0x118, 0, 1, true, false, false, false, false, none,
    [⟨"COUNT", 0, 64, .ro, 0, []⟩]⟩,
  ⟨"XTAL_GREEDY", 0x120, 0, 1, true, false, false, false, false, none,
    [⟨"COUNT", 0, 64, .ro, 0, []⟩]⟩,
  ⟨"XTAL_LANE_CYCLES", 0x128, 0, 1, true, false, false, false, false, none,
    [⟨"COUNT", 0, 64, .ro, 0, []⟩]⟩,
  ⟨"XTAL_FAULTS", 0x130, 0, 1, false, false, false, false, false, none,
    [⟨"COUNT", 0, 32, .ro, 0, []⟩]⟩,
  ⟨"XTAL_MISSING", 0x134, 0, 1, false, false, false, false, false, none,
    [⟨"COUNT", 0, 32, .ro, 0, []⟩]⟩,
  ⟨"XTAL_DUP", 0x138, 0, 1, false, false, false, false, false, none,
    [⟨"COUNT", 0, 32, .ro, 0, []⟩]⟩,
  ⟨"XTAL_STALE", 0x13C, 0, 1, false, false, false, false, false, none,
    [⟨"COUNT", 0, 32, .ro, 0, []⟩]⟩,
  ⟨"XTAL_LANE_RERUNS", 0x140, 0, 1, false, false, false, false, false, none,
    [⟨"COUNT", 0, 32, .ro, 0, []⟩]⟩]

/-- Registers of the ASSAY page (spec/05_assay_width_control.md, R154). -/
def regsAssay : List RegDef := [
  ⟨"ASSAY_CTRL", 0x100, 0, 1, false, false, true, false, false, none,
    [⟨"EN", 0, 1, .rw, 0, []⟩, ⟨"WIDEN_MAX", 8, 8, .rw, 8, []⟩]⟩,
  ⟨"ASSAY_STATUS", 0x104, 0, 1, false, true, false, false, false, none,
    [⟨"QDEPTH", 0, 9, .ro, 0, []⟩, ⟨"HELD", 16, 9, .ro, 0, []⟩, ⟨"HELM", 31, 1, .ro, 0, []⟩]⟩,
  ⟨"ASSAY_SAMPLES", 0x108, 0, 1, true, false, false, false, false, none,
    [⟨"COUNT", 0, 64, .ro, 0, []⟩]⟩,
  ⟨"ASSAY_OVER", 0x110, 0, 1, true, false, false, false, false, none,
    [⟨"COUNT", 0, 64, .ro, 0, []⟩]⟩,
  ⟨"ASSAY_SKIPPED", 0x118, 0, 1, true, false, false, false, false, none,
    [⟨"COUNT", 0, 64, .ro, 0, []⟩]⟩,
  ⟨"ASSAY_DROPPED", 0x120, 0, 1, false, false, false, false, false, none,
    [⟨"COUNT", 0, 32, .ro, 0, []⟩]⟩,
  ⟨"ASSAY_LAST_LAYER", 0x124, 0, 1, false, false, false, false, false, none,
    [⟨"LAYER", 0, 8, .ro, 0, []⟩]⟩,
  ⟨"ASSAY_LAST_ERR", 0x128, 0, 1, false, false, false, false, false, none,
    [⟨"ERR", 0, 32, .ro, 0, []⟩]⟩,
  ⟨"ASSAY_LAST_STEP", 0x12C, 0, 1, false, false, false, false, false, none,
    [⟨"STEP", 0, 32, .ro, 0, []⟩]⟩,
  ⟨"ASSAY_LCFG", 0x400, 4, 256, false, false, true, false, false, none,
    [⟨"EN", 0, 1, .rw, 0, []⟩, ⟨"ACTION", 1, 2, .rw, 1, []⟩, ⟨"RATE", 3, 5, .rw, 8, [(4, 16)]⟩, ⟨"FBW", 8, 4, .rw, 8, [(1, 8)]⟩, ⟨"DRAFT", 12, 1, .rw, 0, []⟩, ⟨"HOLD", 16, 16, .rw, 1024, []⟩]⟩,
  ⟨"ASSAY_LTHRESH", 0x800, 4, 256, false, false, true, false, false, none,
    [⟨"THRESH", 0, 32, .rw, 3277, []⟩]⟩,
  ⟨"ASSAY_LSTATE", 0xC00, 4, 256, false, false, false, false, false, none,
    [⟨"STATE", 0, 2, .ro, 0, []⟩, ⟨"REF_READY", 2, 1, .ro, 0, []⟩, ⟨"CLEAR", 3, 1, .wo, 0, []⟩, ⟨"FORCE_WIDEN", 4, 1, .wo, 0, []⟩, ⟨"HOLD_LEFT", 8, 16, .ro, 0, []⟩]⟩]

/-- Registers of the SLUICE page (spec/07_memory_tiers_and_sluice.md, R206). -/
def regsSluice : List RegDef := [
  ⟨"SLUICE_CTRL", 0x100, 0, 1, false, false, false, false, false, none,
    [⟨"EN", 0, 1, .rw, 1, []⟩, ⟨"LST_EN", 1, 1, .rw, 0, []⟩, ⟨"LST_RELOAD", 2, 1, .wo, 0, []⟩]⟩,
  ⟨"SLUICE_STATUS", 0x104, 0, 1, false, false, false, false, false, none,
    [⟨"CMD_BUSY", 0, 1, .ro, 0, []⟩, ⟨"WB_PENDING", 1, 1, .ro, 0, []⟩, ⟨"WB_STUCK", 2, 1, .ro, 0, []⟩, ⟨"HOME_FAIL", 5, 2, .ro, 0, []⟩, ⟨"QDEPTH", 16, 16, .ro, 0, []⟩]⟩,
  ⟨"SLUICE_TIER_WAIT_MAX", 0x108, 0, 1, false, false, false, false, false, none,
    [⟨"WAIT", 0, 24, .rw, 50000, [(1000, 16777215)]⟩]⟩,
  ⟨"SLUICE_PEER", 0x10C, 0, 1, false, false, true, false, false, none,
    [⟨"NODE", 0, 12, .rw, 0, []⟩, ⟨"REGION", 12, 8, .rw, 0, []⟩]⟩,
  ⟨"SLUICE_LST_BASE", 0x110, 0, 1, true, false, true, false, false, none,
    [⟨"ADDR", 6, 42, .rw, 0, []⟩]⟩,
  ⟨"SLUICE_LST_COUNT", 0x118, 0, 1, false, false, true, false, false, none,
    [⟨"COUNT", 0, 9, .rw, 0, [(0, 256)]⟩]⟩,
  ⟨"SLUICE_QUOTA", 0x120, 4, 4, false, false, true, false, false, none,
    [⟨"LIMIT", 0, 32, .rw, 0, []⟩]⟩,
  ⟨"SLUICE_USAGE", 0x130, 4, 4, false, false, false, false, false, none,
    [⟨"USED", 0, 32, .ro, 0, []⟩]⟩,
  ⟨"SLUICE_CMD_BASE", 0x140, 0, 1, true, false, false, false, false, none,
    [⟨"SUB", 16, 32, .rw, 0, []⟩]⟩,
  ⟨"SLUICE_CMD_COUNT", 0x148, 0, 1, false, false, false, false, false, none,
    [⟨"COUNT", 0, 24, .rw, 0, [(1, 16777215)]⟩]⟩,
  ⟨"SLUICE_CMD", 0x14C, 0, 1, false, false, false, false, false, none,
    [⟨"OP", 0, 3, .wo, 0, [(1, 4)]⟩, ⟨"TIER", 4, 2, .wo, 0, []⟩, ⟨"PIN", 6, 1, .wo, 0, []⟩]⟩,
  ⟨"SLUICE_CMD_RESULT", 0x150, 0, 1, false, false, false, false, false, none,
    [⟨"RESULT", 0, 4, .ro, 0, []⟩, ⟨"DONE", 8, 24, .ro, 0, []⟩]⟩,
  ⟨"SLUICE_STAGED", 0x158, 0, 1, true, false, false, false, false, none,
    [⟨"COUNT", 0, 64, .ro, 0, []⟩]⟩,
  ⟨"SLUICE_WRITTEN_BACK", 0x160, 0, 1, true, false, false, false, false, none,
    [⟨"COUNT", 0, 64, .ro, 0, []⟩]⟩,
  ⟨"SLUICE_EVICTED", 0x168, 0, 1, true, false, false, false, false, none,
    [⟨"COUNT", 0, 64, .ro, 0, []⟩]⟩,
  ⟨"SLUICE_LATE", 0x170, 0, 1, false, false, false, false, false, none,
    [⟨"COUNT", 0, 32, .ro, 0, []⟩]⟩,
  ⟨"SLUICE_TIER_FAULTS", 0x174, 0, 1, false, false, false, false, false, none,
    [⟨"COUNT", 0, 32, .ro, 0, []⟩]⟩,
  ⟨"SLUICE_T3_FAILS", 0x178, 0, 1, false, false, false, false, false, none,
    [⟨"COUNT", 0, 32, .ro, 0, []⟩]⟩]

/-- Registers of the XLAT page (spec/08_translation_and_sequence_ranges.md, R230). -/
def regsXlat : List RegDef := [
  ⟨"XLAT_CTRL", 0x100, 0, 1, false, false, false, false, false, none,
    [⟨"ADVANCE", 0, 1, .wo, 0, []⟩]⟩,
  ⟨"XLAT_STATUS", 0x104, 0, 1, false, false, false, false, false, none,
    [⟨"ADV_PENDING", 0, 1, .ro, 0, []⟩, ⟨"UQ_FULL", 1, 1, .ro, 0, []⟩, ⟨"EPOCH_WAIT", 2, 1, .ro, 0, []⟩, ⟨"UQ_DEPTH", 16, 13, .ro, 0, []⟩]⟩,
  ⟨"XLAT_EPOCH", 0x108, 0, 1, false, false, false, false, false, none,
    [⟨"EPOCH", 0, 32, .ro, 0, []⟩]⟩,
  ⟨"XLAT_OLDEST", 0x10C, 0, 1, false, false, false, false, false, none,
    [⟨"EPOCH", 0, 32, .ro, 0, []⟩]⟩,
  ⟨"XLAT_ROOT", 0x110, 0, 1, true, false, false, false, false, none,
    [⟨"ADDR", 12, 28, .ro, 0, []⟩]⟩,
  ⟨"XLAT_VA_LO", 0x118, 0, 1, true, false, true, true, false, none,
    [⟨"ADDR", 21, 27, .rw, 0, []⟩]⟩,
  ⟨"XLAT_VA_HI", 0x120, 0, 1, true, false, true, true, false, none,
    [⟨"ADDR", 21, 28, .rw, 134217728, []⟩]⟩,
  ⟨"XLAT_SEQTAB", 0x128, 0, 1, true, false, false, false, false, none,
    [⟨"ADDR", 14, 26, .ro, 0, []⟩]⟩,
  ⟨"XLAT_UQ_ARG0", 0x130, 0, 1, true, false, false, false, false, none,
    [⟨"ARG", 0, 64, .rw, 0, []⟩]⟩,
  ⟨"XLAT_UQ_ARG1", 0x138, 0, 1, true, false, false, false, false, none,
    [⟨"ARG", 0, 64, .rw, 0, []⟩]⟩,
  ⟨"XLAT_UQ_OP", 0x140, 0, 1, false, false, false, false, false, none,
    [⟨"OP", 0, 4, .wo, 0, []⟩, ⟨"TIER", 4, 2, .wo, 0, []⟩, ⟨"COUNT", 8, 24, .wo, 0, [(1, 16777215)]⟩]⟩,
  ⟨"XLAT_UQ_RESULT", 0x144, 0, 1, false, false, false, false, false, none,
    [⟨"ACCEPTED", 0, 1, .ro, 0, []⟩, ⟨"FULL", 1, 1, .ro, 0, []⟩, ⟨"BAD", 2, 1, .ro, 0, []⟩, ⟨"DONE", 3, 1, .ro, 0, []⟩, ⟨"SEQNO", 16, 16, .ro, 0, []⟩]⟩,
  ⟨"XLAT_TLB_MISSES", 0x148, 0, 1, true, false, false, false, false, none,
    [⟨"COUNT", 0, 64, .ro, 0, []⟩]⟩,
  ⟨"XLAT_UQ_APPLIED", 0x150, 0, 1, true, false, false, false, false, none,
    [⟨"COUNT", 0, 64, .ro, 0, []⟩]⟩,
  ⟨"XLAT_FAULTS", 0x158, 0, 1, false, false, false, false, false, none,
    [⟨"COUNT", 0, 32, .ro, 0, []⟩]⟩,
  ⟨"XLAT_UQ_REFUSED", 0x15C, 0, 1, false, false, false, false, false, none,
    [⟨"COUNT", 0, 32, .ro, 0, []⟩]⟩,
  ⟨"XLAT_EPOCH_WAITS", 0x160, 0, 1, false, false, false, false, false, none,
    [⟨"COUNT", 0, 32, .ro, 0, []⟩]⟩]

/-- Registers of the ATTN page (spec/09_attention_and_kv_pages.md, R255). -/
def regsAttn : List RegDef := [
  ⟨"ATTN_CTRL", 0x100, 0, 1, false, false, false, false, false, none,
    [⟨"MAP_RELOAD", 0, 1, .wo, 0, []⟩, ⟨"RETR_EN", 1, 1, .rw, 1, []⟩]⟩,
  ⟨"ATTN_CFG", 0x104, 0, 1, false, false, true, false, false, none,
    [⟨"WINDOW", 0, 8, .rw, 128, [(1, 128)]⟩, ⟨"RETR_PAGES", 8, 7, .rw, 64, [(0, 64)]⟩, ⟨"KFMT", 16, 2, .rw, 1, [(1, 2)]⟩, ⟨"VFMT", 18, 2, .rw, 1, [(1, 2)]⟩]⟩,
  ⟨"ATTN_PAIRMAP_BASE", 0x108, 0, 1, true, false, true, false, false, none,
    [⟨"ADDR", 6, 42, .rw, 0, []⟩]⟩,
  ⟨"ATTN_PAIRMAP_COUNT", 0x110, 0, 1, false, false, true, false, false, none,
    [⟨"COUNT", 0, 12, .rw, 0, []⟩]⟩,
  ⟨"ATTN_IDX_BASE", 0x118, 0, 1, true, false, true, false, false, none,
    [⟨"ADDR", 21, 27, .rw, 0, []⟩]⟩,
  ⟨"ATTN_IDX_STRIDE", 0x120, 0, 1, false, false, true, false, false, none,
    [⟨"STRIDE", 0, 16, .rw, 0, []⟩]⟩,
  ⟨"ATTN_STATUS", 0x124, 0, 1, false, true, false, false, false, none,
    [⟨"ACTIVE", 0, 9, .ro, 0, []⟩, ⟨"MAP_VALID", 16, 1, .ro, 0, []⟩]⟩,
  ⟨"ATTN_WALKS", 0x128, 0, 1, true, false, false, false, false, none,
    [⟨"COUNT", 0, 64, .ro, 0, []⟩]⟩,
  ⟨"ATTN_PAGES", 0x130, 0, 1, true, false, false, false, false, none,
    [⟨"COUNT", 0, 64, .ro, 0, []⟩]⟩,
  ⟨"ATTN_SCORED", 0x138, 0, 1, true, false, false, false, false, none,
    [⟨"COUNT", 0, 64, .ro, 0, []⟩]⟩,
  ⟨"ATTN_WALK_FAULTS", 0x140, 0, 1, false, false, false, false, false, none,
    [⟨"COUNT", 0, 32, .ro, 0, []⟩]⟩]

/-- Registers of the RAKE page (spec/09_attention_and_kv_pages.md, R255). -/
def regsRake : List RegDef := [
  ⟨"RAKE_STAGE_BASE", 0x100, 0, 1, true, false, true, false, false, none,
    [⟨"SUB", 16, 32, .rw, 0, []⟩]⟩,
  ⟨"RAKE_STAGE_SIZE", 0x108, 0, 1, false, false, true, false, false, none,
    [⟨"COUNT", 0, 24, .rw, 0, []⟩]⟩,
  ⟨"RAKE_CMD_ARG0", 0x110, 0, 1, true, false, false, false, false, none,
    [⟨"SRC_SLOT", 0, 10, .rw, 0, []⟩, ⟨"SRC_GEN", 10, 8, .rw, 0, []⟩, ⟨"DST_SLOT", 18, 10, .rw, 0, []⟩, ⟨"DST_GEN", 28, 8, .rw, 0, []⟩, ⟨"TOKENS", 36, 21, .rw, 0, [(1, 1048576)]⟩]⟩,
  ⟨"RAKE_CMD", 0x118, 0, 1, false, false, false, false, false, none,
    [⟨"OP", 0, 2, .wo, 0, [(1, 1)]⟩]⟩,
  ⟨"RAKE_CMD_RESULT", 0x11C, 0, 1, false, false, false, false, false, none,
    [⟨"RESULT", 0, 4, .ro, 0, []⟩, ⟨"BUSY", 4, 1, .ro, 0, []⟩]⟩,
  ⟨"RAKE_STATUS", 0x120, 0, 1, false, false, false, false, false, none,
    [⟨"STEP_OPEN", 0, 1, .ro, 0, []⟩, ⟨"SCATTERING", 1, 1, .ro, 0, []⟩, ⟨"STAGE_USED", 8, 24, .ro, 0, []⟩]⟩,
  ⟨"RAKE_ROWS", 0x128, 0, 1, true, false, false, false, false, none,
    [⟨"COUNT", 0, 64, .ro, 0, []⟩]⟩,
  ⟨"RAKE_DISCARDED", 0x130, 0, 1, true, false, false, false, false, none,
    [⟨"COUNT", 0, 64, .ro, 0, []⟩]⟩,
  ⟨"RAKE_SUMMARIES", 0x138, 0, 1, true, false, false, false, false, none,
    [⟨"COUNT", 0, 64, .ro, 0, []⟩]⟩,
  ⟨"RAKE_COW", 0x140, 0, 1, false, false, false, false, false, none,
    [⟨"COUNT", 0, 32, .ro, 0, []⟩]⟩,
  ⟨"RAKE_DUP", 0x144, 0, 1, false, false, false, false, false, none,
    [⟨"COUNT", 0, 32, .ro, 0, []⟩]⟩,
  ⟨"RAKE_MISSING", 0x148, 0, 1, false, false, false, false, false, none,
    [⟨"COUNT", 0, 32, .ro, 0, []⟩]⟩,
  ⟨"RAKE_ALLOC_WAITS", 0x14C, 0, 1, false, false, false, false, false, none,
    [⟨"COUNT", 0, 32, .ro, 0, []⟩]⟩,
  ⟨"RAKE_LATE_POSTS", 0x150, 0, 1, false, false, false, false, false, none,
    [⟨"COUNT", 0, 32, .ro, 0, []⟩]⟩]

/-- Registers of the BARGE page (spec/10_expert_exchange.md, R284). -/
def regsBarge : List RegDef := [
  ⟨"BARGE_CTRL", 0x100, 0, 1, false, false, false, false, false, none,
    [⟨"EN", 0, 1, .rw, 0, []⟩, ⟨"RENORM", 1, 1, .rw, 1, []⟩, ⟨"LOAD_EN", 2, 1, .rw, 1, []⟩, ⟨"REBAL_EN", 3, 1, .rw, 0, []⟩, ⟨"TAB_RELOAD", 4, 1, .wo, 0, []⟩]⟩,
  ⟨"BARGE_CFG", 0x104, 0, 1, false, false, true, false, false, none,
    [⟨"DUNITS", 0, 10, .rw, 256, [(1, 1023)]⟩, ⟨"CONVOY", 16, 16, .rw, 0, []⟩]⟩,
  ⟨"BARGE_LTAB_BASE", 0x108, 0, 1, true, false, true, false, false, none,
    [⟨"ADDR", 6, 42, .rw, 0, []⟩]⟩,
  ⟨"BARGE_LTAB_COUNT", 0x110, 0, 1, false, false, true, false, false, none,
    [⟨"COUNT", 0, 9, .rw, 0, [(0, 256)]⟩]⟩,
  ⟨"BARGE_HTAB_BASE", 0x118, 0, 1, true, false, true, false, false, none,
    [⟨"ADDR", 6, 42, .rw, 0, []⟩]⟩,
  ⟨"BARGE_HTAB_COUNT", 0x120, 0, 1, false, false, true, false, false, none,
    [⟨"COUNT", 0, 13, .rw, 0, []⟩]⟩,
  ⟨"BARGE_LOAD_BASE", 0x128, 0, 1, true, false, true, false, false, none,
    [⟨"ADDR", 6, 42, .rw, 0, []⟩]⟩,
  ⟨"BARGE_RET_TIMEOUT", 0x130, 0, 1, false, false, true, false, false, none,
    [⟨"LIMIT", 0, 24, .rw, 20000, [(1000, 16777215)]⟩]⟩,
  ⟨"BARGE_DRAIN_MAX", 0x134, 0, 1, false, false, true, false, false, none,
    [⟨"LIMIT", 0, 24, .rw, 200000, [(1000, 16777215)]⟩]⟩,
  ⟨"BARGE_REBAL", 0x138, 0, 1, false, false, true, false, false, none,
    [⟨"STEPS", 0, 16, .rw, 4096, [(1, 65535)]⟩, ⟨"REPL_T", 16, 8, .rw, 32, [(1, 255)]⟩]⟩,
  ⟨"BARGE_STATUS", 0x13C, 0, 1, false, true, false, false, false, none,
    [⟨"OPEN", 0, 13, .ro, 0, []⟩, ⟨"DRAINING", 16, 13, .ro, 0, []⟩, ⟨"HELM", 31, 1, .ro, 0, []⟩]⟩,
  ⟨"BARGE_DOWN", 0x140, 4, 16, false, true, false, false, false, none,
    [⟨"NODE", 0, 12, .ro, 0, []⟩, ⟨"V", 31, 1, .ro, 0, []⟩]⟩,
  ⟨"BARGE_DOWN_CLR", 0x180, 0, 1, false, false, false, false, false, none,
    [⟨"CLR", 0, 16, .wo, 0, []⟩]⟩,
  ⟨"BARGE_EPOCH", 0x184, 0, 1, false, false, false, false, false, none,
    [⟨"COUNT", 0, 32, .ro, 0, []⟩]⟩,
  ⟨"BARGE_ROWS_SENT", 0x188, 0, 1, true, false, false, false, false, none,
    [⟨"COUNT", 0, 64, .ro, 0, []⟩]⟩,
  ⟨"BARGE_ROWS_HOSTED", 0x190, 0, 1, true, false, false, false, false, none,
    [⟨"COUNT", 0, 64, .ro, 0, []⟩]⟩,
  ⟨"BARGE_CHOICES_DROPPED", 0x198, 0, 1, true, false, false, false, false, none,
    [⟨"COUNT", 0, 64, .ro, 0, []⟩]⟩,
  ⟨"BARGE_BYPASSED", 0x1A0, 0, 1, false, false, false, false, false, none,
    [⟨"COUNT", 0, 32, .ro, 0, []⟩]⟩,
  ⟨"BARGE_RET_DROPPED", 0x1A4, 0, 1, false, false, false, false, false, none,
    [⟨"COUNT", 0, 32, .ro, 0, []⟩]⟩,
  ⟨"BARGE_RET_STALE", 0x1A8, 0, 1, false, false, false, false, false, none,
    [⟨"COUNT", 0, 32, .ro, 0, []⟩]⟩,
  ⟨"BARGE_RX_STALE", 0x1AC, 0, 1, false, false, false, false, false, none,
    [⟨"COUNT", 0, 32, .ro, 0, []⟩]⟩,
  ⟨"BARGE_TIMEOUTS", 0x1B0, 0, 1, false, false, false, false, false, none,
    [⟨"COUNT", 0, 32, .ro, 0, []⟩]⟩,
  ⟨"BARGE_TAG_WAITS", 0x1B4, 0, 1, false, false, false, false, false, none,
    [⟨"COUNT", 0, 32, .ro, 0, []⟩]⟩,
  ⟨"BARGE_REPLICAS_ADDED", 0x1B8, 0, 1, false, false, false, false, false, none,
    [⟨"COUNT", 0, 32, .ro, 0, []⟩]⟩,
  ⟨"BARGE_REPLICAS_RETIRED", 0x1BC, 0, 1, false, false, false, false, false, none,
    [⟨"COUNT", 0, 32, .ro, 0, []⟩]⟩]

/-- Registers of the MSF page (spec/14_rack_memory_semantics.md, R391). -/
def regsMsf : List RegDef := [
  ⟨"MSF_CTRL", 0x100, 0, 1, false, false, false, false, false, none,
    [⟨"EN", 0, 1, .rw, 0, []⟩, ⟨"IMP_RELOAD", 1, 1, .wo, 0, []⟩]⟩,
  ⟨"MSF_STATUS", 0x104, 0, 1, false, false, false, false, false, none,
    [⟨"IMP_BUSY", 0, 1, .ro, 0, []⟩, ⟨"OUTSTANDING", 8, 16, .ro, 0, []⟩]⟩,
  ⟨"MSF_IMP_BASE", 0x108, 0, 1, true, false, true, false, false, none,
    [⟨"ADDR", 4, 44, .rw, 0, []⟩]⟩,
  ⟨"MSF_IMP_COUNT", 0x110, 0, 1, false, false, true, false, false, none,
    [⟨"COUNT", 0, 9, .rw, 0, [(0, 256)]⟩]⟩,
  ⟨"MSF_REQ_TIMEOUT", 0x114, 0, 1, false, false, true, false, false, none,
    [⟨"LIMIT", 0, 24, .rw, 2000, [(100, 16777215)]⟩]⟩,
  ⟨"MSF_RETRY", 0x118, 0, 1, false, false, true, false, false, none,
    [⟨"COUNT", 0, 4, .rw, 8, [(1, 15)]⟩]⟩,
  ⟨"MSF_EXP_ARG0", 0x120, 0, 1, true, false, false, false, false, none,
    [⟨"REGION", 0, 8, .rw, 0, []⟩, ⟨"KIND", 8, 2, .rw, 0, []⟩, ⟨"PERM", 10, 5, .rw, 0, []⟩, ⟨"BASE", 16, 24, .rw, 0, []⟩, ⟨"SIZE_M1", 40, 24, .rw, 0, []⟩]⟩,
  ⟨"MSF_EXP_ARG1", 0x128, 0, 1, true, false, false, false, false, none,
    [⟨"TARGET", 0, 48, .rw, 0, []⟩, ⟨"SLOTSZ", 56, 8, .rw, 0, []⟩]⟩,
  ⟨"MSF_EXP_KEY", 0x130, 0, 1, false, false, false, false, false, none,
    [⟨"KEY", 0, 32, .rw, 0, []⟩]⟩,
  ⟨"MSF_EXP_CMD", 0x134, 0, 1, false, false, false, false, false, none,
    [⟨"OP", 0, 2, .wo, 0, [(1, 2)]⟩]⟩,
  ⟨"MSF_EXP_RESULT", 0x138, 0, 1, false, false, false, false, false, none,
    [⟨"RESULT", 0, 4, .ro, 0, []⟩]⟩,
  ⟨"MSF_OPS_OUT", 0x140, 0, 1, true, false, false, false, false, none,
    [⟨"COUNT", 0, 64, .ro, 0, []⟩]⟩,
  ⟨"MSF_OPS_SERVED", 0x148, 0, 1, true, false, false, false, false, none,
    [⟨"COUNT", 0, 64, .ro, 0, []⟩]⟩,
  ⟨"MSF_REFUSED_OUT", 0x150, 0, 1, false, false, false, false, false, none,
    [⟨"COUNT", 0, 32, .ro, 0, []⟩]⟩,
  ⟨"MSF_REFUSED_IN", 0x154, 0, 1, false, false, false, false, false, none,
    [⟨"COUNT", 0, 32, .ro, 0, []⟩]⟩,
  ⟨"MSF_RETRANSMITS", 0x158, 0, 1, false, false, false, false, false, none,
    [⟨"COUNT", 0, 32, .ro, 0, []⟩]⟩,
  ⟨"MSF_WCOLL", 0x15C, 0, 1, false, false, false, false, false, none,
    [⟨"COUNT", 0, 32, .ro, 0, []⟩]⟩,
  ⟨"MSF_LAST_FAIL", 0x160, 0, 1, false, false, false, false, false, none,
    [⟨"STATUS", 0, 4, .ro, 0, []⟩, ⟨"NODE", 4, 12, .ro, 0, []⟩, ⟨"REGION", 16, 8, .ro, 0, []⟩]⟩]

/-- Registers of the MSG page (spec/14_rack_memory_semantics.md, R391). -/
def regsMsg : List RegDef := [
  ⟨"MSG_CTRL", 0x100, 0, 1, false, false, false, false, false, none,
    [⟨"EN", 0, 1, .rw, 0, []⟩]⟩,
  ⟨"MSG_STATUS", 0x104, 0, 1, false, true, false, false, false, none,
    [⟨"INFLIGHT", 0, 13, .ro, 0, []⟩]⟩,
  ⟨"MSG_TIMEOUT", 0x108, 0, 1, false, false, true, false, false, none,
    [⟨"LIMIT", 0, 24, .rw, 50000, [(1000, 16777215)]⟩]⟩,
  ⟨"MSG_RETRY", 0x10C, 0, 1, false, false, true, false, false, none,
    [⟨"COUNT", 0, 4, .rw, 4, [(1, 15)]⟩]⟩,
  ⟨"MSG_LIMIT", 0x110, 0, 1, false, false, true, false, false, none,
    [⟨"LIMIT", 0, 13, .rw, 1024, [(1, 4096)]⟩]⟩,
  ⟨"MSG_LAST_FAIL", 0x114, 0, 1, false, false, false, false, false, none,
    [⟨"STATUS", 0, 4, .ro, 0, []⟩, ⟨"NODE", 4, 12, .ro, 0, []⟩, ⟨"REGION", 16, 8, .ro, 0, []⟩]⟩,
  ⟨"MSG_SENT", 0x118, 0, 1, true, false, false, false, false, none,
    [⟨"COUNT", 0, 64, .ro, 0, []⟩]⟩,
  ⟨"MSG_BYTES_OUT", 0x120, 0, 1, true, false, false, false, false, none,
    [⟨"COUNT", 0, 64, .ro, 0, []⟩]⟩,
  ⟨"MSG_RECEIVED", 0x128, 0, 1, true, false, false, false, false, none,
    [⟨"COUNT", 0, 64, .ro, 0, []⟩]⟩,
  ⟨"MSG_LATE", 0x130, 0, 1, false, false, false, false, false, none,
    [⟨"COUNT", 0, 32, .ro, 0, []⟩]⟩,
  ⟨"MSG_FAILS", 0x134, 0, 1, false, false, false, false, false, none,
    [⟨"COUNT", 0, 32, .ro, 0, []⟩]⟩,
  ⟨"MSG_RETRANSMITS", 0x138, 0, 1, false, false, false, false, false, none,
    [⟨"COUNT", 0, 32, .ro, 0, []⟩]⟩,
  ⟨"MSG_QFULL", 0x13C, 0, 1, false, false, false, false, false, none,
    [⟨"COUNT", 0, 32, .ro, 0, []⟩]⟩,
  ⟨"MSG_ID_WAITS", 0x140, 0, 1, false, false, false, false, false, none,
    [⟨"COUNT", 0, 32, .ro, 0, []⟩]⟩]

/-- The block registers of a page kind, from offset 0x100 upward. -/
def pageRegs : Page → List RegDef
  | .dev => regsDev
  | .clk => regsClk
  | .rst => regsRst
  | .boot => regsBoot
  | .wharf => regsWharf
  | .fault => regsFault
  | .sec => regsSec
  | .dbg => regsDbg
  | .weir => regsWeir
  | .pwr => regsPwr
  | .therm => regsTherm
  | .bist => regsBist
  | .loop => regsLoop
  | .route => regsRoute
  | .lock => regsLock
  | .link => regsLink
  | .mx => regsMx
  | .scr => regsScr
  | .basin => regsBasin
  | .gauge => regsGauge
  | .gaugeM => regsGaugeM
  | .core => regsCore
  | .ctx => regsCtx
  | .ld => regsLd
  | .duty => regsDuty
  | .mani => regsMani
  | .step => regsStep
  | .toll => regsToll
  | .xtal => regsXtal
  | .assay => regsAssay
  | .sluice => regsSluice
  | .xlat => regsXlat
  | .attn => regsAttn
  | .rake => regsRake
  | .barge => regsBarge
  | .msf => regsMsf
  | .msg => regsMsg

namespace R

/-! Fields of the DEV page (spec/02_clocks_reset_and_boot.md). -/
def DEV_PWR.TARGET : Fd := ⟨.dev, 0x100, 0, 0, 2, 0⟩
def DEV_PWR.CURRENT : Fd := ⟨.dev, 0x100, 0, 4, 2, 0⟩
def DEV_PWR.AUTO_WAKE : Fd := ⟨.dev, 0x100, 0, 8, 1, 1⟩
def DEV_PWR.BUSY : Fd := ⟨.dev, 0x100, 0, 9, 1, 0⟩

/-! Fields of the CLK page (spec/02_clocks_reset_and_boot.md). -/
def CLK_CTRL.FIXED_FREQ : Fd := ⟨.clk, 0x100, 0, 0, 1, 0⟩
def CLK_CTRL.BOOST_EN : Fd := ⟨.clk, 0x100, 0, 1, 1, 1⟩
def CLK_CTRL.BOOST_MARGIN : Fd := ⟨.clk, 0x100, 0, 8, 12, 100⟩
def CLK_STATUS.ROOT_LOCK : Fd := ⟨.clk, 0x104, 0, 0, 1, 0⟩
def CLK_STATUS.SYSREF_OK : Fd := ⟨.clk, 0x104, 0, 1, 1, 0⟩
def CLK_STATUS.BOOST_ACTIVE : Fd := ⟨.clk, 0x104, 0, 8, 8, 0⟩
def CLK_STATUS.FIXED_ACTIVE : Fd := ⟨.clk, 0x104, 0, 16, 1, 0⟩
def CLK_TICK.TICK : Fd := ⟨.clk, 0x108, 0, 0, 64, 0⟩

/-! Fields of the RST page (spec/02_clocks_reset_and_boot.md). -/
def RST_LD.BITS : Fd := ⟨.rst, 0x100, 0, 0, 16, 0⟩
def RST_CTX.BITS : Fd := ⟨.rst, 0x104, 0, 0, 16, 0⟩
def RST_DIE.BITS : Fd := ⟨.rst, 0x108, 0, 0, 8, 0⟩
def RST_LINK.BITS : Fd := ⟨.rst, 0x10C, 0, 0, 32, 0⟩
def RST_MODULE.KEY : Fd := ⟨.rst, 0x110, 0, 0, 32, 0⟩
def RST_STATUS.LD : Fd := ⟨.rst, 0x114, 0, 0, 16, 0⟩
def RST_STATUS.DIE : Fd := ⟨.rst, 0x114, 0, 16, 8, 0⟩
def RST_LINK_STATUS.LINK : Fd := ⟨.rst, 0x118, 0, 0, 32, 0⟩

/-! Fields of the BOOT page (spec/02_clocks_reset_and_boot.md). -/
def BOOT_STATUS.STAGE : Fd := ⟨.boot, 0x100, 0, 0, 4, 0⟩
def BOOT_STATUS.FAIL_CAUSE : Fd := ⟨.boot, 0x100, 0, 8, 4, 0⟩
def BOOT_STATUS.SVN_FUSED : Fd := ⟨.boot, 0x100, 0, 16, 7, 0⟩
def BOOT_STATUS.SVN_IMAGE : Fd := ⟨.boot, 0x100, 0, 24, 7, 0⟩
def BOOT_CTRL.FORCE_RECOVERY : Fd := ⟨.boot, 0x104, 0, 0, 1, 0⟩
def BOOT_CTRL.SVN_COMMIT : Fd := ⟨.boot, 0x104, 0, 1, 1, 0⟩
def BOOT_MBOX_ADDR.ADDR : Fd := ⟨.boot, 0x108, 0, 0, 64, 0⟩
def BOOT_MBOX_LEN.LEN : Fd := ⟨.boot, 0x110, 0, 0, 23, 0⟩
def BOOT_MBOX_CMD.CMD : Fd := ⟨.boot, 0x114, 0, 0, 4, 0⟩
def BOOT_MBOX_STATUS.STATE : Fd := ⟨.boot, 0x118, 0, 0, 2, 0⟩
def BOOT_MBOX_STATUS.CAUSE : Fd := ⟨.boot, 0x118, 0, 8, 4, 0⟩

/-! Fields of the WHARF page (spec/15_host_port_and_logical_devices.md). -/
def WHARF_CTRL.UIO_EN : Fd := ⟨.wharf, 0x100, 0, 0, 1, 1⟩
def WHARF_CTRL.LOPT_EN : Fd := ⟨.wharf, 0x100, 0, 1, 1, 1⟩
def WHARF_CTRL.RETRAIN : Fd := ⟨.wharf, 0x100, 0, 2, 1, 0⟩
def WHARF_LINK.RATE : Fd := ⟨.wharf, 0x104, 0, 0, 2, 0⟩
def WHARF_LINK.WIDTH : Fd := ⟨.wharf, 0x104, 0, 2, 4, 0⟩
def WHARF_LINK.LOPT : Fd := ⟨.wharf, 0x104, 0, 6, 1, 0⟩
def WHARF_LINK.UIO : Fd := ⟨.wharf, 0x104, 0, 7, 1, 0⟩
def WHARF_LINK.REVERSED : Fd := ⟨.wharf, 0x104, 0, 8, 1, 0⟩
def WHARF_LD_EN.LD0 : Fd := ⟨.wharf, 0x108, 0, 0, 1, 1⟩
def WHARF_LD_EN.EN : Fd := ⟨.wharf, 0x108, 0, 1, 15, 0⟩
def WHARF_UIO_RD_BYTES.COUNT : Fd := ⟨.wharf, 0x110, 0, 0, 64, 0⟩
def WHARF_UIO_WR_BYTES.COUNT : Fd := ⟨.wharf, 0x118, 0, 0, 64, 0⟩
def WHARF_UIO_ERRORS.COUNT : Fd := ⟨.wharf, 0x120, 0, 0, 32, 0⟩
def WHARF_LINK_DOWNS.COUNT : Fd := ⟨.wharf, 0x124, 0, 0, 32, 0⟩
def WHARF_MEM_REFUSED.COUNT : Fd := ⟨.wharf, 0x128, 0, 0, 32, 0⟩

/-! Fields of the FAULT page (spec/21_faults_fencing_recovery.md). -/
def FAULT_CTRL.CLEAR : Fd := ⟨.fault, 0x100, 0, 0, 1, 0⟩
def FAULT_STATUS.HALTED : Fd := ⟨.fault, 0x104, 0, 0, 1, 0⟩
def FAULT_STATUS.FAULT_L : Fd := ⟨.fault, 0x104, 0, 1, 1, 0⟩
def FAULT_STATUS.FATAL_VALID : Fd := ⟨.fault, 0x104, 0, 2, 1, 0⟩
def FAULT_STATUS.FATAL_COUNT : Fd := ⟨.fault, 0x104, 0, 8, 8, 0⟩
def FAULT_FATAL_CODE.CODE : Fd := ⟨.fault, 0x108, 0, 0, 16, 0⟩
def FAULT_FATAL_CODE.BLOCK : Fd := ⟨.fault, 0x108, 0, 16, 16, 0⟩
def FAULT_FATAL_INST.INSTANCE : Fd := ⟨.fault, 0x10C, 0, 0, 8, 0⟩
def FAULT_FATAL_TICK.TICK : Fd := ⟨.fault, 0x110, 0, 0, 64, 0⟩
def FAULT_FATAL_INFO0.INFO : Fd := ⟨.fault, 0x118, 0, 0, 64, 0⟩
def FAULT_FATAL_INFO1.INFO : Fd := ⟨.fault, 0x120, 0, 0, 64, 0⟩
def FAULT_CTX.ENDED : Fd := ⟨.fault, 0x140, 4, 0, 1, 0⟩
def FAULT_CTX.CODE : Fd := ⟨.fault, 0x140, 4, 16, 16, 0⟩
def FAULT_COUNT.COUNT : Fd := ⟨.fault, 0x180, 4, 0, 32, 0⟩

/-! Fields of the SEC page (spec/19_lifecycle_security_debug.md). -/
def SEC_LIFECYCLE.STATE : Fd := ⟨.sec, 0x100, 0, 0, 3, 0⟩
def SEC_LIFECYCLE.ENROLLED : Fd := ⟨.sec, 0x100, 0, 8, 4, 0⟩
def SEC_LIFECYCLE.REVOKED : Fd := ⟨.sec, 0x100, 0, 12, 4, 0⟩
def SEC_LIFECYCLE.FW_SIGN : Fd := ⟨.sec, 0x100, 0, 16, 4, 0⟩
def SEC_LIFECYCLE.DEBUG_SIGN : Fd := ⟨.sec, 0x100, 0, 20, 4, 0⟩
def SEC_LIFECYCLE.SECRET_VALID : Fd := ⟨.sec, 0x100, 0, 24, 1, 0⟩
def SEC_DEVICE_ID.ID : Fd := ⟨.sec, 0x108, 0, 0, 64, 0⟩
def SEC_NONCE.NONCE : Fd := ⟨.sec, 0x110, 4, 0, 32, 0⟩
def SEC_TOKEN_ADDR.ADDR : Fd := ⟨.sec, 0x130, 0, 6, 46, 0⟩
def SEC_CMD.OP : Fd := ⟨.sec, 0x138, 0, 0, 2, 0⟩
def SEC_RESULT.RESULT : Fd := ⟨.sec, 0x13C, 0, 0, 4, 0⟩
def SEC_RESULT.BUSY : Fd := ⟨.sec, 0x13C, 0, 4, 1, 0⟩
def SEC_RESULT.OP : Fd := ⟨.sec, 0x13C, 0, 5, 3, 0⟩
def SEC_CERT_LEN.LEN : Fd := ⟨.sec, 0x140, 0, 0, 15, 0⟩
def SEC_FW_SLOT.SLOT : Fd := ⟨.sec, 0x144, 0, 0, 3, 0⟩
def SEC_TOKENS_REFUSED.COUNT : Fd := ⟨.sec, 0x148, 0, 0, 32, 0⟩

/-! Fields of the DBG page (spec/19_lifecycle_security_debug.md). -/
def DBG_SCOPE.SCOPES : Fd := ⟨.dbg, 0x100, 0, 0, 8, 0⟩
def DBG_SCOPE.MASK : Fd := ⟨.dbg, 0x100, 0, 16, 16, 0⟩
def DBG_HISTORY.SCOPES : Fd := ⟨.dbg, 0x104, 0, 0, 8, 0⟩
def DBG_CLOSE.CLOSE : Fd := ⟨.dbg, 0x108, 0, 0, 1, 0⟩
def DBG_CORE_SEL.CORE : Fd := ⟨.dbg, 0x10C, 0, 0, 9, 0⟩
def DBG_CORE_CMD.CMD : Fd := ⟨.dbg, 0x110, 0, 0, 2, 0⟩
def DBG_STATUS.BUSY : Fd := ⟨.dbg, 0x114, 0, 0, 1, 0⟩
def DBG_STATUS.RESULT : Fd := ⟨.dbg, 0x114, 0, 1, 3, 0⟩
def DBG_REG_SEL.FILE : Fd := ⟨.dbg, 0x118, 0, 0, 2, 0⟩
def DBG_REG_SEL.INDEX : Fd := ⟨.dbg, 0x118, 0, 2, 5, 0⟩
def DBG_REG_SEL.WORD : Fd := ⟨.dbg, 0x118, 0, 7, 5, 0⟩
def DBG_REG_DATA.DATA : Fd := ⟨.dbg, 0x120, 0, 0, 64, 0⟩
def DBG_MEM_ADDR.ADDR : Fd := ⟨.dbg, 0x128, 0, 0, 40, 0⟩
def DBG_MEM_ADDR.SPACE : Fd := ⟨.dbg, 0x128, 0, 62, 2, 0⟩
def DBG_MEM_DATA.DATA : Fd := ⟨.dbg, 0x130, 0, 0, 64, 0⟩
def DBG_MEM_CMD.CMD : Fd := ⟨.dbg, 0x138, 0, 0, 2, 0⟩

/-! Fields of the WEIR page (spec/17_weir_power_and_thermal.md). -/
def WEIR_CTRL.HYST : Fd := ⟨.weir, 0x100, 0, 0, 8, 20⟩
def WEIR_STATUS.FLOOR : Fd := ⟨.weir, 0x104, 0, 0, 1, 0⟩
def WEIR_STATUS.CURRENT_HOLD : Fd := ⟨.weir, 0x104, 0, 1, 1, 0⟩
def WEIR_DIE.N : Fd := ⟨.weir, 0x200, 4, 0, 7, 64⟩
def WEIR_DIE.NT : Fd := ⟨.weir, 0x200, 4, 8, 7, 64⟩
def WEIR_DIE.NH : Fd := ⟨.weir, 0x200, 4, 16, 7, 64⟩
def WEIR_DIE.I : Fd := ⟨.weir, 0x200, 4, 24, 7, 0⟩

/-! Fields of the PWR page (spec/17_weir_power_and_thermal.md). -/
def PWR_CAP.CAP : Fd := ⟨.pwr, 0x100, 0, 0, 12, 2000⟩
def PWR_CAP.SRC : Fd := ⟨.pwr, 0x100, 0, 12, 2, 0⟩
def PWR_ALERT_CAP.CAP : Fd := ⟨.pwr, 0x104, 0, 0, 12, 1000⟩
def PWR_ORPHAN.CAP : Fd := ⟨.pwr, 0x108, 0, 0, 12, 1200⟩
def PWR_ORPHAN.EN : Fd := ⟨.pwr, 0x108, 0, 12, 1, 1⟩
def PWR_ORPHAN.TIMEOUT : Fd := ⟨.pwr, 0x108, 0, 16, 16, 200⟩
def PWR_SLEW.SLEW : Fd := ⟨.pwr, 0x10C, 0, 0, 12, 100⟩
def PWR_LIMIT.L : Fd := ⟨.pwr, 0x110, 0, 0, 12, 2000⟩
def PWR_STATUS.REASONS : Fd := ⟨.pwr, 0x114, 0, 0, 5, 0⟩
def PWR_STATUS.ORPHAN : Fd := ⟨.pwr, 0x114, 0, 5, 1, 0⟩
def PWR_STATUS.SAG : Fd := ⟨.pwr, 0x114, 0, 6, 1, 0⟩
def PWR_STATUS.ALERT_PIN : Fd := ⟨.pwr, 0x114, 0, 7, 1, 0⟩
def PWR_STATUS.DIVERGED : Fd := ⟨.pwr, 0x114, 0, 8, 1, 0⟩
def PWR_STATUS.FLOOR : Fd := ⟨.pwr, 0x114, 0, 9, 1, 0⟩
def PWR_MEAS.MEAS : Fd := ⟨.pwr, 0x118, 0, 0, 16, 0⟩
def PWR_MEAS.EST : Fd := ⟨.pwr, 0x118, 0, 16, 16, 0⟩
def PWR_VIN.VIN : Fd := ⟨.pwr, 0x11C, 0, 0, 16, 0⟩
def PWR_VIN.IIN : Fd := ⟨.pwr, 0x11C, 0, 16, 16, 0⟩
def PWR_GAIN.G : Fd := ⟨.pwr, 0x120, 0, 0, 16, 16384⟩
def PWR_ENERGY.COUNT : Fd := ⟨.pwr, 0x128, 0, 0, 64, 0⟩
def PWR_ENERGY_UNATTR.COUNT : Fd := ⟨.pwr, 0x130, 0, 0, 64, 0⟩
def PWR_OVER_CAP.COUNT : Fd := ⟨.pwr, 0x138, 0, 0, 64, 0⟩
def PWR_THR_TIME.COUNT : Fd := ⟨.pwr, 0x140, 8, 0, 64, 0⟩
def PWR_I3C_ERRORS.COUNT : Fd := ⟨.pwr, 0x168, 0, 0, 32, 0⟩
def PWR_ALERTS.COUNT : Fd := ⟨.pwr, 0x16C, 0, 0, 32, 0⟩
def PWR_DIVERGES.COUNT : Fd := ⟨.pwr, 0x170, 0, 0, 32, 0⟩
def PWR_CAP_UNMET.COUNT : Fd := ⟨.pwr, 0x174, 0, 0, 32, 0⟩
def PWR_CURRENT_EVENTS.COUNT : Fd := ⟨.pwr, 0x178, 0, 0, 32, 0⟩

/-! Fields of the THERM page (spec/17_weir_power_and_thermal.md). -/
def THERM_CFG.THROTTLE : Fd := ⟨.therm, 0x100, 0, 0, 8, 95⟩
def THERM_CFG.INLET_MAX : Fd := ⟨.therm, 0x100, 0, 8, 8, 42⟩
def THERM_CFG.COOLANT_CAP : Fd := ⟨.therm, 0x100, 0, 16, 12, 900⟩
def THERM_OUTLET_MAX.MAX : Fd := ⟨.therm, 0x104, 0, 0, 8, 65⟩
def THERM_STATUS.TRIP : Fd := ⟨.therm, 0x108, 0, 0, 1, 0⟩
def THERM_STATUS.COOLANT : Fd := ⟨.therm, 0x108, 0, 1, 1, 0⟩
def THERM_STATUS.COOLANT_PIN : Fd := ⟨.therm, 0x108, 0, 2, 1, 0⟩
def THERM_STATUS.INLET_HIGH : Fd := ⟨.therm, 0x108, 0, 3, 1, 0⟩
def THERM_STATUS.OUTLET_HIGH : Fd := ⟨.therm, 0x108, 0, 4, 1, 0⟩
def THERM_STATUS.TRIP_SRC : Fd := ⟨.therm, 0x108, 0, 5, 3, 0⟩
def THERM_STATUS.TRIP_INST : Fd := ⟨.therm, 0x108, 0, 8, 6, 0⟩
def THERM_COOLANT.INLET : Fd := ⟨.therm, 0x10C, 0, 0, 12, 0⟩
def THERM_COOLANT.OUTLET : Fd := ⟨.therm, 0x10C, 0, 16, 12, 0⟩
def THERM_DIE.HOT : Fd := ⟨.therm, 0x200, 4, 0, 12, 0⟩
def THERM_DIE.PEAK : Fd := ⟨.therm, 0x200, 4, 16, 12, 0⟩
def THERM_IOD.HOT : Fd := ⟨.therm, 0x220, 4, 0, 12, 0⟩
def THERM_IOD.PEAK : Fd := ⟨.therm, 0x220, 4, 16, 12, 0⟩
def THERM_HBM.TEMP : Fd := ⟨.therm, 0x240, 4, 0, 12, 0⟩
def THERM_OE.TEMP : Fd := ⟨.therm, 0x2C0, 4, 0, 12, 0⟩

/-! Fields of the BIST page (spec/20_bist_and_loopbacks.md). -/
def BIST_CMD.OP : Fd := ⟨.bist, 0x100, 0, 0, 2, 0⟩
def BIST_SEL.SET : Fd := ⟨.bist, 0x104, 0, 0, 1, 0⟩
def BIST_SEL.CLASSES : Fd := ⟨.bist, 0x104, 0, 8, 8, 0⟩
def BIST_SEL.DIES : Fd := ⟨.bist, 0x104, 0, 16, 8, 0⟩
def BIST_CFG.MAX_CONC : Fd := ⟨.bist, 0x108, 0, 0, 4, 2⟩
def BIST_CFG.MARGIN : Fd := ⟨.bist, 0x108, 0, 16, 12, 50⟩
def BIST_STATUS.BUSY : Fd := ⟨.bist, 0x10C, 0, 0, 1, 0⟩
def BIST_STATUS.RESULT : Fd := ⟨.bist, 0x10C, 0, 1, 3, 0⟩
def BIST_STATUS.RUNNING : Fd := ⟨.bist, 0x10C, 0, 4, 4, 0⟩
def BIST_STATUS.DONE : Fd := ⟨.bist, 0x10C, 0, 8, 8, 0⟩
def BIST_STATUS.FAILED : Fd := ⟨.bist, 0x10C, 0, 16, 8, 0⟩
def BIST_LOG_ADDR.ADDR : Fd := ⟨.bist, 0x110, 0, 5, 47, 0⟩
def BIST_RUNS.COUNT : Fd := ⟨.bist, 0x118, 0, 0, 32, 0⟩
def BIST_FAILS.COUNT : Fd := ⟨.bist, 0x11C, 0, 0, 32, 0⟩

/-! Fields of the LOOP page (spec/20_bist_and_loopbacks.md). -/
def LOOP_SEL.IF : Fd := ⟨.loop, 0x100, 0, 0, 2, 0⟩
def LOOP_SEL.INST : Fd := ⟨.loop, 0x100, 0, 4, 5, 0⟩
def LOOP_SEL.DEPTH : Fd := ⟨.loop, 0x100, 0, 9, 3, 1⟩
def LOOP_CMD.OP : Fd := ⟨.loop, 0x104, 0, 0, 2, 0⟩
def LOOP_CFG.DURATION : Fd := ⟨.loop, 0x108, 0, 0, 16, 100⟩
def LOOP_CFG.ERR_MAX : Fd := ⟨.loop, 0x108, 0, 16, 16, 0⟩
def LOOP_STATUS.BUSY : Fd := ⟨.loop, 0x10C, 0, 0, 1, 0⟩
def LOOP_STATUS.RESULT : Fd := ⟨.loop, 0x10C, 0, 1, 3, 0⟩
def LOOP_STATUS.LIGHT : Fd := ⟨.loop, 0x10C, 0, 4, 8, 0⟩
def LOOP_ERR.ERR : Fd := ⟨.loop, 0x110, 4, 0, 16, 0⟩
def LOOP_CXL.FOLLOW_DIS : Fd := ⟨.loop, 0x130, 0, 0, 1, 0⟩
def LOOP_CXL.ENTRIES : Fd := ⟨.loop, 0x130, 0, 16, 16, 0⟩

/-! Fields of the ROUTE page (spec/13_optical_fabric_and_slices.md). -/
def ROUTE_IDX.NODE : Fd := ⟨.route, 0x100, 0, 0, 12, 0⟩
def ROUTE_PRI.PRI : Fd := ⟨.route, 0x104, 0, 0, 32, 0⟩
def ROUTE_ALT.ALT : Fd := ⟨.route, 0x108, 0, 0, 32, 0⟩
def ROUTE_FLAGS.V : Fd := ⟨.route, 0x10C, 0, 0, 1, 0⟩
def ROUTE_FLAGS.PRI_TRANSIT : Fd := ⟨.route, 0x10C, 0, 1, 1, 0⟩
def ROUTE_FLAGS.ALT_TRANSIT : Fd := ⟨.route, 0x10C, 0, 2, 1, 0⟩
def ROUTE_FLAGS.RACK : Fd := ⟨.route, 0x10C, 0, 3, 1, 0⟩
def ROUTE_FLAGS.SLICE : Fd := ⟨.route, 0x10C, 0, 8, 8, 0⟩
def ROUTE_PORTS_UP.UP : Fd := ⟨.route, 0x110, 0, 0, 32, 0⟩
def ROUTE_UNREACHABLE.COUNT : Fd := ⟨.route, 0x114, 0, 0, 32, 0⟩
def ROUTE_MISROUTED.COUNT : Fd := ⟨.route, 0x118, 0, 0, 32, 0⟩
def ROUTE_ALT_USED.COUNT : Fd := ⟨.route, 0x11C, 0, 0, 32, 0⟩
def ROUTE_REFUSED.COUNT : Fd := ⟨.route, 0x120, 0, 0, 32, 0⟩

/-! Fields of the LOCK page (spec/13_optical_fabric_and_slices.md). -/
def LOCK_IMG_ADDR.ADDR : Fd := ⟨.lock, 0x100, 0, 12, 40, 0⟩
def LOCK_CMD.OP : Fd := ⟨.lock, 0x108, 0, 0, 2, 0⟩
def LOCK_RESULT.RESULT : Fd := ⟨.lock, 0x10C, 0, 0, 4, 0⟩
def LOCK_RESULT.BUSY : Fd := ⟨.lock, 0x10C, 0, 4, 1, 0⟩
def LOCK_RESULT.INDEX : Fd := ⟨.lock, 0x10C, 0, 8, 12, 0⟩
def LOCK_SELF.NODE : Fd := ⟨.lock, 0x110, 0, 0, 12, 0⟩
def LOCK_SELF.SLICE : Fd := ⟨.lock, 0x110, 0, 12, 8, 0⟩
def LOCK_SELF.GRANTS : Fd := ⟨.lock, 0x110, 0, 20, 5, 0⟩
def LOCK_SELF.CFGGEN : Fd := ⟨.lock, 0x110, 0, 25, 7, 0⟩
def LOCK_DROP_INGRESS.COUNT : Fd := ⟨.lock, 0x118, 0, 0, 32, 0⟩
def LOCK_DROP_TRANSIT.COUNT : Fd := ⟨.lock, 0x11C, 0, 0, 32, 0⟩
def LOCK_DROP_DEST.COUNT : Fd := ⟨.lock, 0x120, 0, 0, 32, 0⟩
def LOCK_LAST_DROP.SRC : Fd := ⟨.lock, 0x124, 0, 0, 12, 0⟩
def LOCK_LAST_DROP.SLICE : Fd := ⟨.lock, 0x124, 0, 12, 8, 0⟩
def LOCK_LAST_DROP.PORT : Fd := ⟨.lock, 0x124, 0, 20, 6, 0⟩
def LOCK_LAST_DROP.VC : Fd := ⟨.lock, 0x124, 0, 26, 3, 0⟩
def LOCK_LAST_DROP.CHECK : Fd := ⟨.lock, 0x124, 0, 29, 3, 0⟩
def LOCK_TRANSIT.GRANT : Fd := ⟨.lock, 0x200, 8, 0, 64, 0⟩

/-! Fields of the LINK page (spec/13_optical_fabric_and_slices.md). -/
def LINK_PLAN.PLAN : Fd := ⟨.link, 0x100, 0, 0, 2, 0⟩
def LINK_PLAN.MEMBER : Fd := ⟨.link, 0x100, 0, 4, 3, 0⟩
def LINK_CFG.AUTO_RETRAIN : Fd := ⟨.link, 0x104, 0, 0, 1, 1⟩
def LINK_CFG.RETRAIN_DELAY : Fd := ⟨.link, 0x104, 0, 8, 8, 10⟩
def LINK_CFG.FEC_UE_MAX : Fd := ⟨.link, 0x104, 0, 16, 8, 16⟩
def LINK_CFG.REPLAY_MAX : Fd := ⟨.link, 0x104, 0, 24, 8, 64⟩
def LINK_EN.EN : Fd := ⟨.link, 0x108, 0, 0, 16, 65535⟩
def LINK_UPMAP.UP : Fd := ⟨.link, 0x10C, 0, 0, 16, 0⟩
def LINK_STATE.STATE : Fd := ⟨.link, 0x200, 32, 0, 3, 0⟩
def LINK_STATE.LIGHT : Fd := ⟨.link, 0x200, 32, 4, 8, 0⟩
def LINK_STATE.DOWN_CAUSE : Fd := ⟨.link, 0x200, 32, 12, 4, 0⟩
def LINK_PEER.NODE : Fd := ⟨.link, 0x204, 32, 0, 12, 0⟩
def LINK_PEER.SLICE : Fd := ⟨.link, 0x204, 32, 12, 8, 0⟩
def LINK_PEER.MEMBER : Fd := ⟨.link, 0x204, 32, 20, 3, 0⟩
def LINK_PEER.PLANE : Fd := ⟨.link, 0x204, 32, 23, 1, 0⟩
def LINK_PEER.PEER_LINK : Fd := ⟨.link, 0x204, 32, 24, 5, 0⟩
def LINK_PEER.VALID : Fd := ⟨.link, 0x204, 32, 31, 1, 0⟩
def LINK_REPLAYS.COUNT : Fd := ⟨.link, 0x208, 32, 0, 32, 0⟩
def LINK_FEC_CE.COUNT : Fd := ⟨.link, 0x20C, 32, 0, 32, 0⟩
def LINK_FEC_UE.COUNT : Fd := ⟨.link, 0x210, 32, 0, 32, 0⟩
def LINK_DOWNS.COUNT : Fd := ⟨.link, 0x214, 32, 0, 32, 0⟩
def LINK_TIME_CFG.SOURCE : Fd := ⟨.link, 0x400, 0, 0, 12, 0⟩
def LINK_TIME_CFG.MASTER : Fd := ⟨.link, 0x400, 0, 12, 1, 0⟩
def LINK_TIME_CFG.EN : Fd := ⟨.link, 0x400, 0, 13, 1, 0⟩
def LINK_TIME_CFG.PERIOD : Fd := ⟨.link, 0x400, 0, 16, 8, 10⟩
def LINK_TIME_STATUS.ALIGNED : Fd := ⟨.link, 0x404, 0, 0, 1, 0⟩
def LINK_TIME_STATUS.FREQ_LOCK : Fd := ⟨.link, 0x404, 0, 1, 1, 0⟩
def LINK_TIME_STATUS.NO_PATH : Fd := ⟨.link, 0x404, 0, 2, 1, 0⟩
def LINK_TIME_OFFSET.THETA : Fd := ⟨.link, 0x408, 0, 0, 32, 0⟩
def LINK_TIME_DELAY.DELTA : Fd := ⟨.link, 0x40C, 0, 0, 32, 0⟩
def LINK_TIME_TRIM.TRIM : Fd := ⟨.link, 0x410, 0, 0, 32, 0⟩

/-! Fields of the MX page (spec/04_matrix_engine_and_pan_arithmetic.md). -/
def MX_DIE_CTRL.LOSS_EVT_EN : Fd := ⟨.mx, 0x100, 0, 0, 1, 0⟩
def MX_DIE_CTRL.OVF_EVT_EN : Fd := ⟨.mx, 0x100, 0, 1, 1, 1⟩
def MX_DIE_STATUS.ANY_LOSS : Fd := ⟨.mx, 0x104, 0, 0, 1, 0⟩
def MX_DIE_STATUS.ANY_OVF : Fd := ⟨.mx, 0x104, 0, 1, 1, 0⟩
def MX_DIE_STATUS.ANY_NAN : Fd := ⟨.mx, 0x104, 0, 2, 1, 0⟩
def MX_DIE_STATUS.ANY_ERR : Fd := ⟨.mx, 0x104, 0, 3, 1, 0⟩
def MX_FLAGS.PAN_LOSS : Fd := ⟨.mx, 0x200, 4, 0, 1, 0⟩
def MX_FLAGS.PAN_OVF : Fd := ⟨.mx, 0x200, 4, 1, 1, 0⟩
def MX_FLAGS.PAN_NAN : Fd := ⟨.mx, 0x200, 4, 2, 1, 0⟩
def MX_FLAGS.ACC_INF : Fd := ⟨.mx, 0x200, 4, 3, 1, 0⟩
def MX_FLAGS.RD_SAT : Fd := ⟨.mx, 0x200, 4, 4, 1, 0⟩
def MX_FLAGS.WCOLL : Fd := ⟨.mx, 0x200, 4, 5, 1, 0⟩
def MX_FLAGS.MODE_ERR : Fd := ⟨.mx, 0x200, 4, 8, 1, 0⟩
def MX_FLAGS.BAD_BLOCK : Fd := ⟨.mx, 0x200, 4, 9, 1, 0⟩
def MX_STATE.MODE : Fd := ⟨.mx, 0x300, 4, 0, 2, 0⟩
def MX_STATE.BP : Fd := ⟨.mx, 0x300, 4, 2, 8, 0⟩
def MX_STATE.AFMT : Fd := ⟨.mx, 0x300, 4, 10, 2, 0⟩
def MX_STATE.QDEPTH : Fd := ⟨.mx, 0x300, 4, 12, 5, 0⟩
def MX_STATE.BUSY : Fd := ⟨.mx, 0x300, 4, 17, 1, 0⟩

/-! Fields of the SCR page (spec/06_scratchpads_and_basin.md). -/
def SCR_DIE_CTRL.WCOLL_EVT_EN : Fd := ⟨.scr, 0x100, 0, 0, 1, 0⟩
def SCR_DIE_CTRL.CE_EVT_EN : Fd := ⟨.scr, 0x100, 0, 1, 1, 1⟩
def SCR_DIE_STATUS.ANY_WCOLL : Fd := ⟨.scr, 0x104, 0, 0, 1, 0⟩
def SCR_DIE_STATUS.ANY_CE : Fd := ⟨.scr, 0x104, 0, 1, 1, 0⟩
def SCR_DIE_STATUS.CLEAR_BUSY : Fd := ⟨.scr, 0x104, 0, 2, 1, 0⟩
def SCR_WCOLL.P0 : Fd := ⟨.scr, 0x200, 4, 0, 1, 0⟩
def SCR_WCOLL.P1 : Fd := ⟨.scr, 0x200, 4, 1, 1, 0⟩
def SCR_WCOLL.P2 : Fd := ⟨.scr, 0x200, 4, 2, 1, 0⟩
def SCR_WCOLL.COUNT : Fd := ⟨.scr, 0x200, 4, 16, 16, 0⟩
def SCR_CE.COUNT : Fd := ⟨.scr, 0x300, 4, 0, 16, 0⟩
def SCR_CE.LAST_BANK : Fd := ⟨.scr, 0x300, 4, 16, 5, 0⟩
def SCR_CE.LAST_ROW : Fd := ⟨.scr, 0x300, 4, 21, 9, 0⟩

/-! Fields of the BASIN page (spec/06_scratchpads_and_basin.md). -/
def BASIN_CTRL.SCRUB_EN : Fd := ⟨.basin, 0x100, 0, 0, 1, 1⟩
def BASIN_CTRL.CE_EVT_EN : Fd := ⟨.basin, 0x100, 0, 1, 1, 1⟩
def BASIN_CTRL.SCRUB_PERIOD : Fd := ⟨.basin, 0x100, 0, 8, 16, 400⟩
def BASIN_STATUS.CLEAR_BUSY : Fd := ⟨.basin, 0x104, 0, 0, 1, 0⟩
def BASIN_STATUS.SCRUB_ACTIVE : Fd := ⟨.basin, 0x104, 0, 1, 1, 0⟩
def BASIN_STATUS.RETIRED : Fd := ⟨.basin, 0x104, 0, 16, 10, 0⟩
def BASIN_CE_COUNT.COUNT : Fd := ⟨.basin, 0x108, 0, 0, 32, 0⟩
def BASIN_UE_COUNT.COUNT : Fd := ⟨.basin, 0x10C, 0, 0, 32, 0⟩
def BASIN_SCRUB_PASSES.COUNT : Fd := ⟨.basin, 0x110, 0, 0, 32, 0⟩
def BASIN_UE_LAST.LINE : Fd := ⟨.basin, 0x118, 0, 0, 18, 0⟩
def BASIN_UE_LAST.OUTCOME : Fd := ⟨.basin, 0x118, 0, 18, 3, 0⟩
def BASIN_UE_LAST.SCRUB : Fd := ⟨.basin, 0x118, 0, 21, 1, 0⟩
def BASIN_UE_LAST.CTX : Fd := ⟨.basin, 0x118, 0, 24, 4, 0⟩
def BASIN_UE_LAST.TICK_LO : Fd := ⟨.basin, 0x118, 0, 32, 32, 0⟩
def BASIN_RETIRED.SUBPAGE : Fd := ⟨.basin, 0x200, 4, 0, 32, 0⟩

/-! Fields of the GAUGE page (spec/18_gauges.md). -/
def GAUGE_CTRL.FREEZE : Fd := ⟨.gauge, 0x100, 0, 0, 1, 0⟩
def GAUGE_CTRL.SNAP : Fd := ⟨.gauge, 0x100, 0, 1, 1, 0⟩
def GAUGE_CTRL.OVF_EVT_EN : Fd := ⟨.gauge, 0x100, 0, 2, 1, 0⟩
def GAUGE_STATUS.FROZEN : Fd := ⟨.gauge, 0x104, 0, 0, 1, 0⟩
def GAUGE_CORE_SEL.CORE : Fd := ⟨.gauge, 0x108, 0, 0, 6, 0⟩
def GAUGE_SEL_ALL.EVENT : Fd := ⟨.gauge, 0x10C, 0, 0, 8, 0⟩
def GAUGE_SEL_ALL.INDEX : Fd := ⟨.gauge, 0x10C, 0, 8, 3, 0⟩
def GAUGE_OVF_ANY.ANY : Fd := ⟨.gauge, 0x110, 0, 0, 64, 0⟩
def GAUGE_EVSEL.EVENT : Fd := ⟨.gauge, 0x140, 4, 0, 8, 0⟩
def GAUGE_OVF.OVF : Fd := ⟨.gauge, 0x180, 0, 0, 16, 0⟩
def GAUGE_CLR.BITS : Fd := ⟨.gauge, 0x184, 0, 0, 16, 0⟩
def GAUGE_CLR.ALL : Fd := ⟨.gauge, 0x184, 0, 16, 1, 0⟩
def GAUGE_VAL.COUNT : Fd := ⟨.gauge, 0x200, 8, 0, 48, 0⟩
def GAUGE_SNAP.COUNT : Fd := ⟨.gauge, 0x280, 8, 0, 48, 0⟩
def GAUGE_SNAP.OVF : Fd := ⟨.gauge, 0x280, 8, 63, 1, 0⟩
def GAUGE_SNAP_TICK.TICK : Fd := ⟨.gauge, 0x300, 0, 0, 64, 0⟩

/-! Fields of the GAUGEM page (spec/18_gauges.md). -/
def GAUGE_MCTRL.FREEZE : Fd := ⟨.gaugeM, 0x100, 0, 0, 1, 0⟩
def GAUGE_MCTRL.SNAP : Fd := ⟨.gaugeM, 0x100, 0, 1, 1, 0⟩
def GAUGE_MCTRL.FREEZE_ALL : Fd := ⟨.gaugeM, 0x100, 0, 2, 1, 0⟩
def GAUGE_MCTRL.SNAP_ALL : Fd := ⟨.gaugeM, 0x100, 0, 3, 1, 0⟩
def GAUGE_MCTRL.OVF_EVT_EN : Fd := ⟨.gaugeM, 0x100, 0, 4, 1, 0⟩
def GAUGE_MCTRL.STEP_SNAP : Fd := ⟨.gaugeM, 0x100, 0, 5, 1, 0⟩
def GAUGE_MCTRL.STEP_CTX : Fd := ⟨.gaugeM, 0x100, 0, 8, 4, 0⟩
def GAUGE_MSTATUS.FROZEN : Fd := ⟨.gaugeM, 0x104, 0, 0, 1, 0⟩
def GAUGE_USER_EN.EN : Fd := ⟨.gaugeM, 0x108, 0, 0, 16, 0⟩
def GAUGE_MOVF.OVF : Fd := ⟨.gaugeM, 0x110, 0, 0, 64, 0⟩
def GAUGE_MCLR.CLR : Fd := ⟨.gaugeM, 0x118, 0, 0, 64, 0⟩
def GAUGE_MSNAP_TICK.TICK : Fd := ⟨.gaugeM, 0x120, 0, 0, 64, 0⟩
def GAUGE_MSEL.EVENT : Fd := ⟨.gaugeM, 0x200, 4, 0, 8, 0⟩
def GAUGE_MSEL.INST : Fd := ⟨.gaugeM, 0x200, 4, 8, 6, 0⟩
def GAUGE_MSEL.CTX : Fd := ⟨.gaugeM, 0x200, 4, 16, 4, 0⟩
def GAUGE_MSEL.CTX_EN : Fd := ⟨.gaugeM, 0x200, 4, 20, 1, 0⟩
def GAUGE_MVAL.COUNT : Fd := ⟨.gaugeM, 0x400, 8, 0, 48, 0⟩
def GAUGE_MSNAP.COUNT : Fd := ⟨.gaugeM, 0x600, 8, 0, 48, 0⟩
def GAUGE_MSNAP.OVF : Fd := ⟨.gaugeM, 0x600, 8, 63, 1, 0⟩

/-! Fields of the CORE page (spec/03_suina_core.md). -/
def CORE_CFG.RUNAHEAD_THRESH : Fd := ⟨.core, 0x100, 0, 0, 10, 64⟩
def CORE_CFG.RUNAHEAD_MAX : Fd := ⟨.core, 0x100, 0, 12, 8, 64⟩
def CORE_CFG.BPRED_EN : Fd := ⟨.core, 0x100, 0, 24, 1, 1⟩
def CORE_STATE.STATE : Fd := ⟨.core, 0x104, 0, 0, 3, 0⟩
def CORE_STATE.RA_ACTIVE : Fd := ⟨.core, 0x104, 0, 3, 1, 0⟩
def CORE_STATE.CTX : Fd := ⟨.core, 0x104, 0, 8, 4, 0⟩
def CORE_FENCE.FENCE : Fd := ⟨.core, 0x108, 0, 0, 1, 0⟩
def CORE_FENCE.UNFENCE : Fd := ⟨.core, 0x108, 0, 1, 1, 0⟩
def CORE_FENCE.PARITY : Fd := ⟨.core, 0x108, 0, 8, 1, 0⟩
def CORE_FENCE.SCR_UE : Fd := ⟨.core, 0x108, 0, 9, 1, 0⟩
def CORE_FENCE.WDOG : Fd := ⟨.core, 0x108, 0, 10, 1, 0⟩
def CORE_FENCE.BIST : Fd := ⟨.core, 0x108, 0, 11, 1, 0⟩
def CORE_FENCE.COMMAND : Fd := ⟨.core, 0x108, 0, 12, 1, 0⟩
def CORE_WDOG.LIMIT : Fd := ⟨.core, 0x10C, 0, 0, 24, 1000⟩
def CORE_ECAUSE.CAUSE : Fd := ⟨.core, 0x110, 0, 0, 8, 0⟩
def CORE_ECAUSE.SLOT : Fd := ⟨.core, 0x110, 0, 8, 3, 0⟩
def CORE_EPC.PC : Fd := ⟨.core, 0x118, 0, 0, 48, 0⟩
def CORE_EADDR.ADDR : Fd := ⟨.core, 0x120, 0, 0, 64, 0⟩
def CORE_PC.PC : Fd := ⟨.core, 0x128, 0, 0, 48, 0⟩

/-! Fields of the CTX page (spec/16_contexts_shares_and_duty_modes.md). -/
def CTX_CMD.OP : Fd := ⟨.ctx, 0x100, 0, 0, 3, 0⟩
def CTX_STATUS.STATE : Fd := ⟨.ctx, 0x104, 0, 0, 3, 0⟩
def CTX_STATUS.BUSY : Fd := ⟨.ctx, 0x104, 0, 3, 1, 0⟩
def CTX_STATUS.CORES : Fd := ⟨.ctx, 0x104, 0, 16, 10, 0⟩
def CTX_CMD_RESULT.RESULT : Fd := ⟨.ctx, 0x108, 0, 0, 4, 0⟩
def CTX_SHARES_A.HBM : Fd := ⟨.ctx, 0x10C, 0, 0, 10, 100⟩
def CTX_SHARES_A.FABRIC : Fd := ⟨.ctx, 0x10C, 0, 16, 10, 100⟩
def CTX_SHARES_B.HOST : Fd := ⟨.ctx, 0x110, 0, 0, 10, 100⟩
def CTX_SHARES_B.XTAL : Fd := ⟨.ctx, 0x110, 0, 16, 10, 100⟩
def CTX_SHARES_C.SLUICE : Fd := ⟨.ctx, 0x114, 0, 0, 10, 100⟩
def CTX_ACCT_CTRL.SNAP : Fd := ⟨.ctx, 0x118, 0, 0, 1, 0⟩
def CTX_CORES_REQ.BITS : Fd := ⟨.ctx, 0x140, 4, 0, 32, 0⟩
def CTX_CORES.BITS : Fd := ⟨.ctx, 0x180, 4, 0, 32, 0⟩
def CTX_ACCT_BUSY.COUNT : Fd := ⟨.ctx, 0x200, 0, 0, 64, 0⟩
def CTX_ACCT_BITMAC.COUNT : Fd := ⟨.ctx, 0x208, 0, 0, 64, 0⟩
def CTX_ACCT_HBM.COUNT : Fd := ⟨.ctx, 0x210, 0, 0, 64, 0⟩
def CTX_ACCT_FABRIC.COUNT : Fd := ⟨.ctx, 0x218, 0, 0, 64, 0⟩
def CTX_ACCT_ENERGY.COUNT : Fd := ⟨.ctx, 0x220, 0, 0, 64, 0⟩
def CTX_SNAP.COUNT : Fd := ⟨.ctx, 0x240, 8, 0, 64, 0⟩
def CTX_SNAP_TICK.TICK : Fd := ⟨.ctx, 0x268, 0, 0, 64, 0⟩

/-! Fields of the LD page (spec/15_host_port_and_logical_devices.md). -/
def LD_CTRL.RINGS_EN : Fd := ⟨.ld, 0x100, 0, 0, 1, 0⟩
def LD_STATUS.ENABLED : Fd := ⟨.ld, 0x104, 0, 0, 1, 0⟩
def LD_STATUS.RESET_BUSY : Fd := ⟨.ld, 0x104, 0, 1, 1, 0⟩
def LD_STATUS.DB_ERR : Fd := ⟨.ld, 0x104, 0, 2, 1, 0⟩
def LD_STATUS.EVQ_OVF : Fd := ⟨.ld, 0x104, 0, 3, 1, 0⟩
def LD_SQ_BASE.ADDR : Fd := ⟨.ld, 0x108, 0, 12, 40, 0⟩
def LD_CQ_BASE.ADDR : Fd := ⟨.ld, 0x110, 0, 12, 40, 0⟩
def LD_TOK_BASE.ADDR : Fd := ⟨.ld, 0x118, 0, 12, 40, 0⟩
def LD_EVQ_BASE.ADDR : Fd := ⟨.ld, 0x120, 0, 12, 40, 0⟩
def LD_STATUS_ADDR.ADDR : Fd := ⟨.ld, 0x128, 0, 6, 46, 0⟩
def LD_RING_SIZES.SQ : Fd := ⟨.ld, 0x130, 0, 0, 8, 10⟩
def LD_RING_SIZES.CQ : Fd := ⟨.ld, 0x130, 0, 8, 8, 10⟩
def LD_RING_SIZES.TOK : Fd := ⟨.ld, 0x130, 0, 16, 8, 10⟩
def LD_RING_SIZES.EVQ : Fd := ⟨.ld, 0x130, 0, 24, 8, 10⟩
def LD_IRQ_CQ.VECTOR : Fd := ⟨.ld, 0x134, 0, 0, 6, 0⟩
def LD_IRQ_CQ.EN : Fd := ⟨.ld, 0x134, 0, 6, 1, 0⟩
def LD_IRQ_CQ.COUNT : Fd := ⟨.ld, 0x134, 0, 8, 8, 1⟩
def LD_IRQ_CQ.TIME : Fd := ⟨.ld, 0x134, 0, 16, 16, 0⟩
def LD_IRQ_TOK.VECTOR : Fd := ⟨.ld, 0x138, 0, 0, 6, 1⟩
def LD_IRQ_TOK.EN : Fd := ⟨.ld, 0x138, 0, 6, 1, 0⟩
def LD_IRQ_TOK.COUNT : Fd := ⟨.ld, 0x138, 0, 8, 8, 1⟩
def LD_IRQ_TOK.TIME : Fd := ⟨.ld, 0x138, 0, 16, 16, 0⟩
def LD_IRQ_EVQ.VECTOR : Fd := ⟨.ld, 0x13C, 0, 0, 6, 2⟩
def LD_IRQ_EVQ.EN : Fd := ⟨.ld, 0x13C, 0, 6, 1, 0⟩
def LD_IRQ_EVQ.COUNT : Fd := ⟨.ld, 0x13C, 0, 8, 8, 1⟩
def LD_IRQ_EVQ.TIME : Fd := ⟨.ld, 0x13C, 0, 16, 16, 0⟩
def LD_RESET.LD : Fd := ⟨.ld, 0x140, 0, 0, 1, 0⟩
def LD_RESET.CTX : Fd := ⟨.ld, 0x140, 0, 1, 1, 0⟩
def LD_SQ_HEAD.INDEX : Fd := ⟨.ld, 0x144, 0, 0, 32, 0⟩
def LD_CQ_TAIL.INDEX : Fd := ⟨.ld, 0x148, 0, 0, 32, 0⟩
def LD_TOK_TAIL.INDEX : Fd := ⟨.ld, 0x14C, 0, 0, 32, 0⟩
def LD_EVQ_TAIL.INDEX : Fd := ⟨.ld, 0x150, 0, 0, 32, 0⟩
def LD_CMDS.COUNT : Fd := ⟨.ld, 0x158, 0, 0, 64, 0⟩
def LD_RING_WAITS.COUNT : Fd := ⟨.ld, 0x160, 0, 0, 32, 0⟩
def LD_CQ_DROPPED.COUNT : Fd := ⟨.ld, 0x164, 0, 0, 32, 0⟩
def LD_EVQ_DROPPED.COUNT : Fd := ⟨.ld, 0x168, 0, 0, 32, 0⟩
def LD_MEM_REFUSED.COUNT : Fd := ⟨.ld, 0x16C, 0, 0, 32, 0⟩

/-! Fields of the DUTY page (spec/16_contexts_shares_and_duty_modes.md). -/
def DUTY_CTRL.RING_EN : Fd := ⟨.duty, 0x100, 0, 0, 1, 0⟩
def DUTY_STATUS.RING_FULL : Fd := ⟨.duty, 0x104, 0, 0, 1, 0⟩
def DUTY_STATUS.OUTSTANDING : Fd := ⟨.duty, 0x104, 0, 16, 13, 0⟩
def DUTY_REQ_BASE.ADDR : Fd := ⟨.duty, 0x108, 0, 12, 40, 0⟩
def DUTY_ANS_BASE.ADDR : Fd := ⟨.duty, 0x110, 0, 12, 40, 0⟩
def DUTY_RING_SIZES.REQ : Fd := ⟨.duty, 0x118, 0, 0, 4, 8⟩
def DUTY_RING_SIZES.ANS : Fd := ⟨.duty, 0x118, 0, 8, 4, 8⟩
def DUTY_REQ_HEAD.INDEX : Fd := ⟨.duty, 0x11C, 0, 0, 32, 0⟩
def DUTY_REQ_TAIL.INDEX : Fd := ⟨.duty, 0x120, 0, 0, 32, 0⟩
def DUTY_ANS_TAIL.INDEX : Fd := ⟨.duty, 0x124, 0, 0, 32, 0⟩
def DUTY_ANS_HEAD.INDEX : Fd := ⟨.duty, 0x128, 0, 0, 32, 0⟩
def DUTY_IRQ.VECTOR : Fd := ⟨.duty, 0x12C, 0, 0, 6, 3⟩
def DUTY_IRQ.EN : Fd := ⟨.duty, 0x12C, 0, 6, 1, 0⟩
def DUTY_IRQ.COUNT : Fd := ⟨.duty, 0x12C, 0, 8, 8, 1⟩
def DUTY_IRQ.TIME : Fd := ⟨.duty, 0x12C, 0, 16, 16, 0⟩
def DUTY_FALLBACK.KINDS : Fd := ⟨.duty, 0x130, 0, 1, 7, 127⟩
def DUTY_TIMEOUT1.LIMIT : Fd := ⟨.duty, 0x144, 0, 0, 24, 100000⟩
def DUTY_TIMEOUT2.LIMIT : Fd := ⟨.duty, 0x148, 0, 0, 24, 5000⟩
def DUTY_TIMEOUT3.LIMIT : Fd := ⟨.duty, 0x14C, 4, 0, 24, 100000⟩
def DUTY_POSTED.COUNT : Fd := ⟨.duty, 0x160, 0, 0, 64, 0⟩
def DUTY_ANSWERED.COUNT : Fd := ⟨.duty, 0x168, 0, 0, 64, 0⟩
def DUTY_TIMEOUTS.COUNT : Fd := ⟨.duty, 0x170, 0, 0, 32, 0⟩
def DUTY_LATE.COUNT : Fd := ⟨.duty, 0x174, 0, 0, 32, 0⟩
def DUTY_BAD_ANSWERS.COUNT : Fd := ⟨.duty, 0x178, 0, 0, 32, 0⟩
def DUTY_RING_FULL.COUNT : Fd := ⟨.duty, 0x17C, 0, 0, 32, 0⟩

/-! Fields of the MANI page (spec/11_manifest_and_step_building.md). -/
def MANI_CTRL.EN : Fd := ⟨.mani, 0x100, 0, 0, 1, 0⟩
def MANI_STATUS.ACTIVE : Fd := ⟨.mani, 0x104, 0, 0, 11, 0⟩
def MANI_STATUS.DRAINING : Fd := ⟨.mani, 0x104, 0, 16, 11, 0⟩
def MANI_STATUS.HELM : Fd := ⟨.mani, 0x104, 0, 31, 1, 0⟩
def MANI_MIRROR_BASE.ADDR : Fd := ⟨.mani, 0x108, 0, 12, 36, 0⟩
def MANI_CMD_ARG.SLOT : Fd := ⟨.mani, 0x110, 0, 0, 10, 0⟩
def MANI_CMD_ARG.GEN : Fd := ⟨.mani, 0x110, 0, 10, 8, 0⟩
def MANI_CMD_ARG.VALUE : Fd := ⟨.mani, 0x110, 0, 18, 4, 0⟩
def MANI_CMD.OP : Fd := ⟨.mani, 0x118, 0, 0, 2, 0⟩
def MANI_CMD_RESULT.RESULT : Fd := ⟨.mani, 0x11C, 0, 0, 2, 0⟩
def MANI_ADMITTED.COUNT : Fd := ⟨.mani, 0x120, 0, 0, 64, 0⟩
def MANI_TOKENS.COUNT : Fd := ⟨.mani, 0x128, 0, 0, 64, 0⟩
def MANI_LATE_TTFT.COUNT : Fd := ⟨.mani, 0x130, 0, 0, 32, 0⟩
def MANI_LATE_TBT.COUNT : Fd := ⟨.mani, 0x134, 0, 0, 32, 0⟩
def MANI_ADMIT_REFUSED.COUNT : Fd := ⟨.mani, 0x138, 0, 0, 32, 0⟩
def MANI_ENDS.COUNT : Fd := ⟨.mani, 0x144, 4, 0, 32, 0⟩

/-! Fields of the STEP page (spec/11_manifest_and_step_building.md). -/
def STEP_CTRL.HELM : Fd := ⟨.step, 0x100, 0, 0, 1, 0⟩
def STEP_CTRL.EN : Fd := ⟨.step, 0x100, 0, 1, 1, 0⟩
def STEP_NODES.HELM_NODE : Fd := ⟨.step, 0x104, 0, 0, 12, 0⟩
def STEP_NODES.NODE_LO : Fd := ⟨.step, 0x104, 0, 16, 12, 0⟩
def STEP_NODE_COUNT.COUNT : Fd := ⟨.step, 0x108, 0, 0, 13, 1⟩
def STEP_ENTRY_PC.PC : Fd := ⟨.step, 0x110, 0, 6, 42, 0⟩
def STEP_BCAST_BASE.ADDR : Fd := ⟨.step, 0x118, 0, 16, 32, 0⟩
def STEP_WIDTH.WIDTH : Fd := ⟨.step, 0x120, 0, 0, 10, 512⟩
def STEP_PREFILL_BUDGET.TOKENS : Fd := ⟨.step, 0x124, 0, 0, 16, 8192⟩
def STEP_TBT_FLOOR.FLOOR : Fd := ⟨.step, 0x128, 0, 0, 24, 0⟩
def STEP_DRAFT.BACKOFF : Fd := ⟨.step, 0x12C, 0, 0, 8, 4⟩
def STEP_DRAFT.RETRY : Fd := ⟨.step, 0x12C, 0, 8, 16, 256⟩
def STEP_LIMITS.READY_TIMEOUT : Fd := ⟨.step, 0x130, 0, 0, 16, 2000⟩
def STEP_LIMITS.REPLAY_MAX : Fd := ⟨.step, 0x130, 0, 16, 8, 16⟩
def STEP_NUMBER.STEP : Fd := ⟨.step, 0x138, 0, 0, 64, 0⟩
def STEP_STATUS.PHASE : Fd := ⟨.step, 0x140, 0, 0, 2, 0⟩
def STEP_STATUS.INSTANCE : Fd := ⟨.step, 0x140, 0, 8, 8, 0⟩
def STEP_STATUS.ENTRIES : Fd := ⟨.step, 0x140, 0, 16, 10, 0⟩
def STEP_STEPS.COUNT : Fd := ⟨.step, 0x148, 0, 0, 64, 0⟩
def STEP_PREFILL_TOKENS.COUNT : Fd := ⟨.step, 0x150, 0, 0, 64, 0⟩
def STEP_DRAFT_PROPOSED.COUNT : Fd := ⟨.step, 0x158, 0, 0, 64, 0⟩
def STEP_DRAFT_ACCEPTED.COUNT : Fd := ⟨.step, 0x160, 0, 0, 64, 0⟩
def STEP_REPLAYS.COUNT : Fd := ⟨.step, 0x168, 0, 0, 32, 0⟩
def STEP_STALLS.COUNT : Fd := ⟨.step, 0x16C, 0, 0, 32, 0⟩
def STEP_DUTY_DROPPED.COUNT : Fd := ⟨.step, 0x170, 0, 0, 32, 0⟩

/-! Fields of the TOLL page (spec/11_manifest_and_step_building.md). -/
def TOLL_SEL.TENANT : Fd := ⟨.toll, 0x100, 0, 0, 8, 0⟩
def TOLL_P_RATE.RATE : Fd := ⟨.toll, 0x104, 0, 0, 24, 0⟩
def TOLL_P_DEPTH.DEPTH : Fd := ⟨.toll, 0x108, 0, 0, 32, 4294967295⟩
def TOLL_P_LEVEL.LEVEL : Fd := ⟨.toll, 0x10C, 0, 0, 32, 4294967295⟩
def TOLL_D_RATE.RATE : Fd := ⟨.toll, 0x110, 0, 0, 24, 0⟩
def TOLL_D_DEPTH.DEPTH : Fd := ⟨.toll, 0x114, 0, 0, 32, 4294967295⟩
def TOLL_D_LEVEL.LEVEL : Fd := ⟨.toll, 0x118, 0, 0, 32, 4294967295⟩
def TOLL_P_TOKENS.COUNT : Fd := ⟨.toll, 0x120, 0, 0, 64, 0⟩
def TOLL_D_TOKENS.COUNT : Fd := ⟨.toll, 0x128, 0, 0, 64, 0⟩
def TOLL_SKIPS.COUNT : Fd := ⟨.toll, 0x130, 0, 0, 32, 0⟩
def TOLL_P_EMPTY.BITS : Fd := ⟨.toll, 0x140, 4, 0, 32, 0⟩
def TOLL_D_EMPTY.BITS : Fd := ⟨.toll, 0x160, 4, 0, 32, 0⟩

/-! Fields of the XTAL page (spec/12_crystalliser.md). -/
def XTAL_CTRL.EN : Fd := ⟨.xtal, 0x100, 0, 0, 1, 0⟩
def XTAL_STATUS.QUEUED : Fd := ⟨.xtal, 0x104, 0, 0, 8, 0⟩
def XTAL_STATUS.HELM : Fd := ⟨.xtal, 0x104, 0, 31, 1, 0⟩
def XTAL_HIST_BASE.ADDR : Fd := ⟨.xtal, 0x108, 0, 12, 36, 0⟩
def XTAL_LAST_FAULT.STATUS : Fd := ⟨.xtal, 0x110, 0, 0, 8, 0⟩
def XTAL_LAST_FAULT.SLOT : Fd := ⟨.xtal, 0x110, 0, 8, 10, 0⟩
def XTAL_LAST_FAULT.GEN : Fd := ⟨.xtal, 0x110, 0, 18, 8, 0⟩
def XTAL_SAMPLES.COUNT : Fd := ⟨.xtal, 0x118, 0, 0, 64, 0⟩
def XTAL_GREEDY.COUNT : Fd := ⟨.xtal, 0x120, 0, 0, 64, 0⟩
def XTAL_LANE_CYCLES.COUNT : Fd := ⟨.xtal, 0x128, 0, 0, 64, 0⟩
def XTAL_FAULTS.COUNT : Fd := ⟨.xtal, 0x130, 0, 0, 32, 0⟩
def XTAL_MISSING.COUNT : Fd := ⟨.xtal, 0x134, 0, 0, 32, 0⟩
def XTAL_DUP.COUNT : Fd := ⟨.xtal, 0x138, 0, 0, 32, 0⟩
def XTAL_STALE.COUNT : Fd := ⟨.xtal, 0x13C, 0, 0, 32, 0⟩
def XTAL_LANE_RERUNS.COUNT : Fd := ⟨.xtal, 0x140, 0, 0, 32, 0⟩

/-! Fields of the ASSAY page (spec/05_assay_width_control.md). -/
def ASSAY_CTRL.EN : Fd := ⟨.assay, 0x100, 0, 0, 1, 0⟩
def ASSAY_CTRL.WIDEN_MAX : Fd := ⟨.assay, 0x100, 0, 8, 8, 8⟩
def ASSAY_STATUS.QDEPTH : Fd := ⟨.assay, 0x104, 0, 0, 9, 0⟩
def ASSAY_STATUS.HELD : Fd := ⟨.assay, 0x104, 0, 16, 9, 0⟩
def ASSAY_STATUS.HELM : Fd := ⟨.assay, 0x104, 0, 31, 1, 0⟩
def ASSAY_SAMPLES.COUNT : Fd := ⟨.assay, 0x108, 0, 0, 64, 0⟩
def ASSAY_OVER.COUNT : Fd := ⟨.assay, 0x110, 0, 0, 64, 0⟩
def ASSAY_SKIPPED.COUNT : Fd := ⟨.assay, 0x118, 0, 0, 64, 0⟩
def ASSAY_DROPPED.COUNT : Fd := ⟨.assay, 0x120, 0, 0, 32, 0⟩
def ASSAY_LAST_LAYER.LAYER : Fd := ⟨.assay, 0x124, 0, 0, 8, 0⟩
def ASSAY_LAST_ERR.ERR : Fd := ⟨.assay, 0x128, 0, 0, 32, 0⟩
def ASSAY_LAST_STEP.STEP : Fd := ⟨.assay, 0x12C, 0, 0, 32, 0⟩
def ASSAY_LCFG.EN : Fd := ⟨.assay, 0x400, 4, 0, 1, 0⟩
def ASSAY_LCFG.ACTION : Fd := ⟨.assay, 0x400, 4, 1, 2, 1⟩
def ASSAY_LCFG.RATE : Fd := ⟨.assay, 0x400, 4, 3, 5, 8⟩
def ASSAY_LCFG.FBW : Fd := ⟨.assay, 0x400, 4, 8, 4, 8⟩
def ASSAY_LCFG.DRAFT : Fd := ⟨.assay, 0x400, 4, 12, 1, 0⟩
def ASSAY_LCFG.HOLD : Fd := ⟨.assay, 0x400, 4, 16, 16, 1024⟩
def ASSAY_LTHRESH.THRESH : Fd := ⟨.assay, 0x800, 4, 0, 32, 3277⟩
def ASSAY_LSTATE.STATE : Fd := ⟨.assay, 0xC00, 4, 0, 2, 0⟩
def ASSAY_LSTATE.REF_READY : Fd := ⟨.assay, 0xC00, 4, 2, 1, 0⟩
def ASSAY_LSTATE.CLEAR : Fd := ⟨.assay, 0xC00, 4, 3, 1, 0⟩
def ASSAY_LSTATE.FORCE_WIDEN : Fd := ⟨.assay, 0xC00, 4, 4, 1, 0⟩
def ASSAY_LSTATE.HOLD_LEFT : Fd := ⟨.assay, 0xC00, 4, 8, 16, 0⟩

/-! Fields of the SLUICE page (spec/07_memory_tiers_and_sluice.md). -/
def SLUICE_CTRL.EN : Fd := ⟨.sluice, 0x100, 0, 0, 1, 1⟩
def SLUICE_CTRL.LST_EN : Fd := ⟨.sluice, 0x100, 0, 1, 1, 0⟩
def SLUICE_CTRL.LST_RELOAD : Fd := ⟨.sluice, 0x100, 0, 2, 1, 0⟩
def SLUICE_STATUS.CMD_BUSY : Fd := ⟨.sluice, 0x104, 0, 0, 1, 0⟩
def SLUICE_STATUS.WB_PENDING : Fd := ⟨.sluice, 0x104, 0, 1, 1, 0⟩
def SLUICE_STATUS.WB_STUCK : Fd := ⟨.sluice, 0x104, 0, 2, 1, 0⟩
def SLUICE_STATUS.HOME_FAIL : Fd := ⟨.sluice, 0x104, 0, 5, 2, 0⟩
def SLUICE_STATUS.QDEPTH : Fd := ⟨.sluice, 0x104, 0, 16, 16, 0⟩
def SLUICE_TIER_WAIT_MAX.WAIT : Fd := ⟨.sluice, 0x108, 0, 0, 24, 50000⟩
def SLUICE_PEER.NODE : Fd := ⟨.sluice, 0x10C, 0, 0, 12, 0⟩
def SLUICE_PEER.REGION : Fd := ⟨.sluice, 0x10C, 0, 12, 8, 0⟩
def SLUICE_LST_BASE.ADDR : Fd := ⟨.sluice, 0x110, 0, 6, 42, 0⟩
def SLUICE_LST_COUNT.COUNT : Fd := ⟨.sluice, 0x118, 0, 0, 9, 0⟩
def SLUICE_QUOTA.LIMIT : Fd := ⟨.sluice, 0x120, 4, 0, 32, 0⟩
def SLUICE_USAGE.USED : Fd := ⟨.sluice, 0x130, 4, 0, 32, 0⟩
def SLUICE_CMD_BASE.SUB : Fd := ⟨.sluice, 0x140, 0, 16, 32, 0⟩
def SLUICE_CMD_COUNT.COUNT : Fd := ⟨.sluice, 0x148, 0, 0, 24, 0⟩
def SLUICE_CMD.OP : Fd := ⟨.sluice, 0x14C, 0, 0, 3, 0⟩
def SLUICE_CMD.TIER : Fd := ⟨.sluice, 0x14C, 0, 4, 2, 0⟩
def SLUICE_CMD.PIN : Fd := ⟨.sluice, 0x14C, 0, 6, 1, 0⟩
def SLUICE_CMD_RESULT.RESULT : Fd := ⟨.sluice, 0x150, 0, 0, 4, 0⟩
def SLUICE_CMD_RESULT.DONE : Fd := ⟨.sluice, 0x150, 0, 8, 24, 0⟩
def SLUICE_STAGED.COUNT : Fd := ⟨.sluice, 0x158, 0, 0, 64, 0⟩
def SLUICE_WRITTEN_BACK.COUNT : Fd := ⟨.sluice, 0x160, 0, 0, 64, 0⟩
def SLUICE_EVICTED.COUNT : Fd := ⟨.sluice, 0x168, 0, 0, 64, 0⟩
def SLUICE_LATE.COUNT : Fd := ⟨.sluice, 0x170, 0, 0, 32, 0⟩
def SLUICE_TIER_FAULTS.COUNT : Fd := ⟨.sluice, 0x174, 0, 0, 32, 0⟩
def SLUICE_T3_FAILS.COUNT : Fd := ⟨.sluice, 0x178, 0, 0, 32, 0⟩

/-! Fields of the XLAT page (spec/08_translation_and_sequence_ranges.md). -/
def XLAT_CTRL.ADVANCE : Fd := ⟨.xlat, 0x100, 0, 0, 1, 0⟩
def XLAT_STATUS.ADV_PENDING : Fd := ⟨.xlat, 0x104, 0, 0, 1, 0⟩
def XLAT_STATUS.UQ_FULL : Fd := ⟨.xlat, 0x104, 0, 1, 1, 0⟩
def XLAT_STATUS.EPOCH_WAIT : Fd := ⟨.xlat, 0x104, 0, 2, 1, 0⟩
def XLAT_STATUS.UQ_DEPTH : Fd := ⟨.xlat, 0x104, 0, 16, 13, 0⟩
def XLAT_EPOCH.EPOCH : Fd := ⟨.xlat, 0x108, 0, 0, 32, 0⟩
def XLAT_OLDEST.EPOCH : Fd := ⟨.xlat, 0x10C, 0, 0, 32, 0⟩
def XLAT_ROOT.ADDR : Fd := ⟨.xlat, 0x110, 0, 12, 28, 0⟩
def XLAT_VA_LO.ADDR : Fd := ⟨.xlat, 0x118, 0, 21, 27, 0⟩
def XLAT_VA_HI.ADDR : Fd := ⟨.xlat, 0x120, 0, 21, 28, 134217728⟩
def XLAT_SEQTAB.ADDR : Fd := ⟨.xlat, 0x128, 0, 14, 26, 0⟩
def XLAT_UQ_ARG0.ARG : Fd := ⟨.xlat, 0x130, 0, 0, 64, 0⟩
def XLAT_UQ_ARG1.ARG : Fd := ⟨.xlat, 0x138, 0, 0, 64, 0⟩
def XLAT_UQ_OP.OP : Fd := ⟨.xlat, 0x140, 0, 0, 4, 0⟩
def XLAT_UQ_OP.TIER : Fd := ⟨.xlat, 0x140, 0, 4, 2, 0⟩
def XLAT_UQ_OP.COUNT : Fd := ⟨.xlat, 0x140, 0, 8, 24, 0⟩
def XLAT_UQ_RESULT.ACCEPTED : Fd := ⟨.xlat, 0x144, 0, 0, 1, 0⟩
def XLAT_UQ_RESULT.FULL : Fd := ⟨.xlat, 0x144, 0, 1, 1, 0⟩
def XLAT_UQ_RESULT.BAD : Fd := ⟨.xlat, 0x144, 0, 2, 1, 0⟩
def XLAT_UQ_RESULT.DONE : Fd := ⟨.xlat, 0x144, 0, 3, 1, 0⟩
def XLAT_UQ_RESULT.SEQNO : Fd := ⟨.xlat, 0x144, 0, 16, 16, 0⟩
def XLAT_TLB_MISSES.COUNT : Fd := ⟨.xlat, 0x148, 0, 0, 64, 0⟩
def XLAT_UQ_APPLIED.COUNT : Fd := ⟨.xlat, 0x150, 0, 0, 64, 0⟩
def XLAT_FAULTS.COUNT : Fd := ⟨.xlat, 0x158, 0, 0, 32, 0⟩
def XLAT_UQ_REFUSED.COUNT : Fd := ⟨.xlat, 0x15C, 0, 0, 32, 0⟩
def XLAT_EPOCH_WAITS.COUNT : Fd := ⟨.xlat, 0x160, 0, 0, 32, 0⟩

/-! Fields of the ATTN page (spec/09_attention_and_kv_pages.md). -/
def ATTN_CTRL.MAP_RELOAD : Fd := ⟨.attn, 0x100, 0, 0, 1, 0⟩
def ATTN_CTRL.RETR_EN : Fd := ⟨.attn, 0x100, 0, 1, 1, 1⟩
def ATTN_CFG.WINDOW : Fd := ⟨.attn, 0x104, 0, 0, 8, 128⟩
def ATTN_CFG.RETR_PAGES : Fd := ⟨.attn, 0x104, 0, 8, 7, 64⟩
def ATTN_CFG.KFMT : Fd := ⟨.attn, 0x104, 0, 16, 2, 1⟩
def ATTN_CFG.VFMT : Fd := ⟨.attn, 0x104, 0, 18, 2, 1⟩
def ATTN_PAIRMAP_BASE.ADDR : Fd := ⟨.attn, 0x108, 0, 6, 42, 0⟩
def ATTN_PAIRMAP_COUNT.COUNT : Fd := ⟨.attn, 0x110, 0, 0, 12, 0⟩
def ATTN_IDX_BASE.ADDR : Fd := ⟨.attn, 0x118, 0, 21, 27, 0⟩
def ATTN_IDX_STRIDE.STRIDE : Fd := ⟨.attn, 0x120, 0, 0, 16, 0⟩
def ATTN_STATUS.ACTIVE : Fd := ⟨.attn, 0x124, 0, 0, 9, 0⟩
def ATTN_STATUS.MAP_VALID : Fd := ⟨.attn, 0x124, 0, 16, 1, 0⟩
def ATTN_WALKS.COUNT : Fd := ⟨.attn, 0x128, 0, 0, 64, 0⟩
def ATTN_PAGES.COUNT : Fd := ⟨.attn, 0x130, 0, 0, 64, 0⟩
def ATTN_SCORED.COUNT : Fd := ⟨.attn, 0x138, 0, 0, 64, 0⟩
def ATTN_WALK_FAULTS.COUNT : Fd := ⟨.attn, 0x140, 0, 0, 32, 0⟩

/-! Fields of the RAKE page (spec/09_attention_and_kv_pages.md). -/
def RAKE_STAGE_BASE.SUB : Fd := ⟨.rake, 0x100, 0, 16, 32, 0⟩
def RAKE_STAGE_SIZE.COUNT : Fd := ⟨.rake, 0x108, 0, 0, 24, 0⟩
def RAKE_CMD_ARG0.SRC_SLOT : Fd := ⟨.rake, 0x110, 0, 0, 10, 0⟩
def RAKE_CMD_ARG0.SRC_GEN : Fd := ⟨.rake, 0x110, 0, 10, 8, 0⟩
def RAKE_CMD_ARG0.DST_SLOT : Fd := ⟨.rake, 0x110, 0, 18, 10, 0⟩
def RAKE_CMD_ARG0.DST_GEN : Fd := ⟨.rake, 0x110, 0, 28, 8, 0⟩
def RAKE_CMD_ARG0.TOKENS : Fd := ⟨.rake, 0x110, 0, 36, 21, 0⟩
def RAKE_CMD.OP : Fd := ⟨.rake, 0x118, 0, 0, 2, 0⟩
def RAKE_CMD_RESULT.RESULT : Fd := ⟨.rake, 0x11C, 0, 0, 4, 0⟩
def RAKE_CMD_RESULT.BUSY : Fd := ⟨.rake, 0x11C, 0, 4, 1, 0⟩
def RAKE_STATUS.STEP_OPEN : Fd := ⟨.rake, 0x120, 0, 0, 1, 0⟩
def RAKE_STATUS.SCATTERING : Fd := ⟨.rake, 0x120, 0, 1, 1, 0⟩
def RAKE_STATUS.STAGE_USED : Fd := ⟨.rake, 0x120, 0, 8, 24, 0⟩
def RAKE_ROWS.COUNT : Fd := ⟨.rake, 0x128, 0, 0, 64, 0⟩
def RAKE_DISCARDED.COUNT : Fd := ⟨.rake, 0x130, 0, 0, 64, 0⟩
def RAKE_SUMMARIES.COUNT : Fd := ⟨.rake, 0x138, 0, 0, 64, 0⟩
def RAKE_COW.COUNT : Fd := ⟨.rake, 0x140, 0, 0, 32, 0⟩
def RAKE_DUP.COUNT : Fd := ⟨.rake, 0x144, 0, 0, 32, 0⟩
def RAKE_MISSING.COUNT : Fd := ⟨.rake, 0x148, 0, 0, 32, 0⟩
def RAKE_ALLOC_WAITS.COUNT : Fd := ⟨.rake, 0x14C, 0, 0, 32, 0⟩
def RAKE_LATE_POSTS.COUNT : Fd := ⟨.rake, 0x150, 0, 0, 32, 0⟩

/-! Fields of the BARGE page (spec/10_expert_exchange.md). -/
def BARGE_CTRL.EN : Fd := ⟨.barge, 0x100, 0, 0, 1, 0⟩
def BARGE_CTRL.RENORM : Fd := ⟨.barge, 0x100, 0, 1, 1, 1⟩
def BARGE_CTRL.LOAD_EN : Fd := ⟨.barge, 0x100, 0, 2, 1, 1⟩
def BARGE_CTRL.REBAL_EN : Fd := ⟨.barge, 0x100, 0, 3, 1, 0⟩
def BARGE_CTRL.TAB_RELOAD : Fd := ⟨.barge, 0x100, 0, 4, 1, 0⟩
def BARGE_CFG.DUNITS : Fd := ⟨.barge, 0x104, 0, 0, 10, 256⟩
def BARGE_CFG.CONVOY : Fd := ⟨.barge, 0x104, 0, 16, 16, 0⟩
def BARGE_LTAB_BASE.ADDR : Fd := ⟨.barge, 0x108, 0, 6, 42, 0⟩
def BARGE_LTAB_COUNT.COUNT : Fd := ⟨.barge, 0x110, 0, 0, 9, 0⟩
def BARGE_HTAB_BASE.ADDR : Fd := ⟨.barge, 0x118, 0, 6, 42, 0⟩
def BARGE_HTAB_COUNT.COUNT : Fd := ⟨.barge, 0x120, 0, 0, 13, 0⟩
def BARGE_LOAD_BASE.ADDR : Fd := ⟨.barge, 0x128, 0, 6, 42, 0⟩
def BARGE_RET_TIMEOUT.LIMIT : Fd := ⟨.barge, 0x130, 0, 0, 24, 20000⟩
def BARGE_DRAIN_MAX.LIMIT : Fd := ⟨.barge, 0x134, 0, 0, 24, 200000⟩
def BARGE_REBAL.STEPS : Fd := ⟨.barge, 0x138, 0, 0, 16, 4096⟩
def BARGE_REBAL.REPL_T : Fd := ⟨.barge, 0x138, 0, 16, 8, 32⟩
def BARGE_STATUS.OPEN : Fd := ⟨.barge, 0x13C, 0, 0, 13, 0⟩
def BARGE_STATUS.DRAINING : Fd := ⟨.barge, 0x13C, 0, 16, 13, 0⟩
def BARGE_STATUS.HELM : Fd := ⟨.barge, 0x13C, 0, 31, 1, 0⟩
def BARGE_DOWN.NODE : Fd := ⟨.barge, 0x140, 4, 0, 12, 0⟩
def BARGE_DOWN.V : Fd := ⟨.barge, 0x140, 4, 31, 1, 0⟩
def BARGE_DOWN_CLR.CLR : Fd := ⟨.barge, 0x180, 0, 0, 16, 0⟩
def BARGE_EPOCH.COUNT : Fd := ⟨.barge, 0x184, 0, 0, 32, 0⟩
def BARGE_ROWS_SENT.COUNT : Fd := ⟨.barge, 0x188, 0, 0, 64, 0⟩
def BARGE_ROWS_HOSTED.COUNT : Fd := ⟨.barge, 0x190, 0, 0, 64, 0⟩
def BARGE_CHOICES_DROPPED.COUNT : Fd := ⟨.barge, 0x198, 0, 0, 64, 0⟩
def BARGE_BYPASSED.COUNT : Fd := ⟨.barge, 0x1A0, 0, 0, 32, 0⟩
def BARGE_RET_DROPPED.COUNT : Fd := ⟨.barge, 0x1A4, 0, 0, 32, 0⟩
def BARGE_RET_STALE.COUNT : Fd := ⟨.barge, 0x1A8, 0, 0, 32, 0⟩
def BARGE_RX_STALE.COUNT : Fd := ⟨.barge, 0x1AC, 0, 0, 32, 0⟩
def BARGE_TIMEOUTS.COUNT : Fd := ⟨.barge, 0x1B0, 0, 0, 32, 0⟩
def BARGE_TAG_WAITS.COUNT : Fd := ⟨.barge, 0x1B4, 0, 0, 32, 0⟩
def BARGE_REPLICAS_ADDED.COUNT : Fd := ⟨.barge, 0x1B8, 0, 0, 32, 0⟩
def BARGE_REPLICAS_RETIRED.COUNT : Fd := ⟨.barge, 0x1BC, 0, 0, 32, 0⟩

/-! Fields of the MSF page (spec/14_rack_memory_semantics.md). -/
def MSF_CTRL.EN : Fd := ⟨.msf, 0x100, 0, 0, 1, 0⟩
def MSF_CTRL.IMP_RELOAD : Fd := ⟨.msf, 0x100, 0, 1, 1, 0⟩
def MSF_STATUS.IMP_BUSY : Fd := ⟨.msf, 0x104, 0, 0, 1, 0⟩
def MSF_STATUS.OUTSTANDING : Fd := ⟨.msf, 0x104, 0, 8, 16, 0⟩
def MSF_IMP_BASE.ADDR : Fd := ⟨.msf, 0x108, 0, 4, 44, 0⟩
def MSF_IMP_COUNT.COUNT : Fd := ⟨.msf, 0x110, 0, 0, 9, 0⟩
def MSF_REQ_TIMEOUT.LIMIT : Fd := ⟨.msf, 0x114, 0, 0, 24, 2000⟩
def MSF_RETRY.COUNT : Fd := ⟨.msf, 0x118, 0, 0, 4, 8⟩
def MSF_EXP_ARG0.REGION : Fd := ⟨.msf, 0x120, 0, 0, 8, 0⟩
def MSF_EXP_ARG0.KIND : Fd := ⟨.msf, 0x120, 0, 8, 2, 0⟩
def MSF_EXP_ARG0.PERM : Fd := ⟨.msf, 0x120, 0, 10, 5, 0⟩
def MSF_EXP_ARG0.BASE : Fd := ⟨.msf, 0x120, 0, 16, 24, 0⟩
def MSF_EXP_ARG0.SIZE_M1 : Fd := ⟨.msf, 0x120, 0, 40, 24, 0⟩
def MSF_EXP_ARG1.TARGET : Fd := ⟨.msf, 0x128, 0, 0, 48, 0⟩
def MSF_EXP_ARG1.SLOTSZ : Fd := ⟨.msf, 0x128, 0, 56, 8, 0⟩
def MSF_EXP_KEY.KEY : Fd := ⟨.msf, 0x130, 0, 0, 32, 0⟩
def MSF_EXP_CMD.OP : Fd := ⟨.msf, 0x134, 0, 0, 2, 0⟩
def MSF_EXP_RESULT.RESULT : Fd := ⟨.msf, 0x138, 0, 0, 4, 0⟩
def MSF_OPS_OUT.COUNT : Fd := ⟨.msf, 0x140, 0, 0, 64, 0⟩
def MSF_OPS_SERVED.COUNT : Fd := ⟨.msf, 0x148, 0, 0, 64, 0⟩
def MSF_REFUSED_OUT.COUNT : Fd := ⟨.msf, 0x150, 0, 0, 32, 0⟩
def MSF_REFUSED_IN.COUNT : Fd := ⟨.msf, 0x154, 0, 0, 32, 0⟩
def MSF_RETRANSMITS.COUNT : Fd := ⟨.msf, 0x158, 0, 0, 32, 0⟩
def MSF_WCOLL.COUNT : Fd := ⟨.msf, 0x15C, 0, 0, 32, 0⟩
def MSF_LAST_FAIL.STATUS : Fd := ⟨.msf, 0x160, 0, 0, 4, 0⟩
def MSF_LAST_FAIL.NODE : Fd := ⟨.msf, 0x160, 0, 4, 12, 0⟩
def MSF_LAST_FAIL.REGION : Fd := ⟨.msf, 0x160, 0, 16, 8, 0⟩

/-! Fields of the MSG page (spec/14_rack_memory_semantics.md). -/
def MSG_CTRL.EN : Fd := ⟨.msg, 0x100, 0, 0, 1, 0⟩
def MSG_STATUS.INFLIGHT : Fd := ⟨.msg, 0x104, 0, 0, 13, 0⟩
def MSG_TIMEOUT.LIMIT : Fd := ⟨.msg, 0x108, 0, 0, 24, 50000⟩
def MSG_RETRY.COUNT : Fd := ⟨.msg, 0x10C, 0, 0, 4, 4⟩
def MSG_LIMIT.LIMIT : Fd := ⟨.msg, 0x110, 0, 0, 13, 1024⟩
def MSG_LAST_FAIL.STATUS : Fd := ⟨.msg, 0x114, 0, 0, 4, 0⟩
def MSG_LAST_FAIL.NODE : Fd := ⟨.msg, 0x114, 0, 4, 12, 0⟩
def MSG_LAST_FAIL.REGION : Fd := ⟨.msg, 0x114, 0, 16, 8, 0⟩
def MSG_SENT.COUNT : Fd := ⟨.msg, 0x118, 0, 0, 64, 0⟩
def MSG_BYTES_OUT.COUNT : Fd := ⟨.msg, 0x120, 0, 0, 64, 0⟩
def MSG_RECEIVED.COUNT : Fd := ⟨.msg, 0x128, 0, 0, 64, 0⟩
def MSG_LATE.COUNT : Fd := ⟨.msg, 0x130, 0, 0, 32, 0⟩
def MSG_FAILS.COUNT : Fd := ⟨.msg, 0x134, 0, 0, 32, 0⟩
def MSG_RETRANSMITS.COUNT : Fd := ⟨.msg, 0x138, 0, 0, 32, 0⟩
def MSG_QFULL.COUNT : Fd := ⟨.msg, 0x13C, 0, 0, 32, 0⟩
def MSG_ID_WAITS.COUNT : Fd := ⟨.msg, 0x140, 0, 0, 32, 0⟩

end R

end Sys2Proof.Machine
end

