-- ==== Sys2Proof/Machine/Tab.lean ====
section
/-! DEFINITION. Machine/Tab.lean: sparse tables in one canonical form, and the byte-order and bit-field helpers.
A table lists its keys in rising order and leaves out every entry equal to the value an unlisted key reads as,
so that equal tables are equal data. -/
namespace Sys2Proof.Machine

/-- What key `k` holds; `d` where the table does not list it. -/
def tget {α : Type} (d : α) : Table α → Nat → α
  | [], _ => d
  | (j, w) :: t, k => if k < j then d else if k = j then w else tget d t k

/-- The table with key `k` holding `v`; writing `d`, the value of an unlisted key, removes the entry. -/
def tset {α : Type} [DecidableEq α] (d : α) : Table α → Nat → α → Table α
  | [], k, v => if v = d then [] else [(k, v)]
  | (j, w) :: t, k, v =>
    if k < j then (if v = d then (j, w) :: t else (k, v) :: (j, w) :: t)
    else if k = j then (if v = d then t.dropWhile (fun e => decide (e.1 ≤ k)) else (k, v) :: t)
    else (j, w) :: tset d t k v

/-- The canonical form: keys rise strictly from `lo` on, and no entry equals `d`. -/
def tableWf {α : Type} [DecidableEq α] (d : α) : Nat → Table α → Bool
  | _, [] => true
  | lo, (j, w) :: t => decide (lo ≤ j) && !decide (w = d) && tableWf d (j + 1) t

/-- Writes consecutive entries from key `k`. -/
def tsetAll {α : Type} [DecidableEq α] (d : α) (t : Table α) (k : Nat) : List α → Table α
  | [] => t
  | v :: vs => tsetAll d (tset d t k v) (k + 1) vs

/-- Reads `n` consecutive entries from key `k`. -/
def tgetAll {α : Type} (d : α) (t : Table α) (k : Nat) : Nat → List α
  | 0 => []
  | n + 1 => tget d t k :: tgetAll d t (k + 1) n

/-- Removes every entry whose key lies in `[k, k + n)`. -/
def tclear {α : Type} (t : Table α) (k n : Nat) : Table α :=
  t.filter fun e => !(decide (k ≤ e.1) && decide (e.1 < k + n))

/-- Bit `i` of a natural number. -/
def bit (v i : Nat) : Bool := v.testBit i

/-- A truth value as 0 or 1. -/
def b2n (b : Bool) : Nat := if b then 1 else 0

/-- Bits `[lo + w - 1 : lo]` of a number. -/
def field (v lo w : Nat) : Nat := v / 2 ^ lo % 2 ^ w

/-- `v` with bit `i` set. -/
def setBit (v i : Nat) : Nat := v ||| 2 ^ i

/-- `v` with bit `i` cleared. -/
def clrBit (v i : Nat) : Nat := if v.testBit i then v - 2 ^ i else v

/-- Little-endian bytes of a number. -/
def leBytes (v : Nat) : Nat → List Byte
  | 0 => []
  | n + 1 => BitVec.ofNat 8 v :: leBytes (v / 256) n

/-- The number that little-endian bytes spell. -/
def ofLe : List Byte → Nat
  | [] => 0
  | b :: bs => b.toNat + 256 * ofLe bs

/-- The two's-complement reading of the low `w` bits of a number. -/
def sext (w v : Nat) : Int :=
  let u : Nat := v % 2 ^ w
  if u < 2 ^ (w - 1) then (u : Int) else (u : Int) - (2 ^ w : Nat)

/-- The low `w` bits of an integer in two's complement. -/
def twos (w : Nat) (v : Int) : Nat := (v % (2 ^ w : Nat)).toNat

/-- Indexes below `n` whose bit is set. -/
def bitsSet (v n : Nat) : List Nat := (List.range n).filter fun i => v.testBit i

/-- The number whose set bits are those indexes below `n` that satisfy `p`. -/
def bitMap (n : Nat) (p : Nat → Bool) : Nat :=
  (List.range n).foldl (fun acc i => if p i then acc + 2 ^ i else acc) 0

/-- Replaces element `i` of a list. -/
def lset {α : Type} (l : List α) (i : Nat) (v : α) : List α := l.set i v

end Sys2Proof.Machine
end

