-- ==== Sys2Proof/Machine/State.lean ====
section
/-! DEFINITION. Machine/State.lean: the state of the module as plain data, the outcomes a step can end in besides
a next state, and the state after reset. Every register of the register pages lives in `State.regs`, one entry per
field (see Machine/Regs.lean); everything here besides is state that no register holds. -/
namespace Sys2Proof.Machine

/-- Reasons a step stops. -/
inductive Fault where
  /-- An access outside a memory that the spec sizes: raised by the byte readers of a command whose address
  lies outside the memory it names. Safe: the spec says the address does not exist. -/
  | noSuchAddress (what : String)
  deriving DecidableEq, Repr

/-- Reasons a command has no meaning. -/
inductive Refusal where
  /-- The instruction is not modelled yet; raised by Dispatch only. Safe. -/
  | notModelled (mnemonic : String)
  /-- The command acts on a unit whose behaviour the spec does not give; the name says which. Safe. -/
  | notInSpec (what : String)
  deriving DecidableEq, Repr

/-- Pins, power entry and clocks: state of R16-R50 that no register holds. Every pin is recorded at its accepted
level, after the deglitching of R28. -/
structure Board where
  standby : Bool       -- the standby converter is on (R18)
  mgmtUp : Bool        -- the management domain is out of reset (R37, R62)
  vinOk : Bool         -- the input has risen to 53 V and not fallen below 50 V since (R18)
  pwrEn : Bool         -- PWR_EN asserted
  pwrEnHeld : Bool     -- an asserted PWR_EN waits for its condition (R29, R30, R43)
  offHold : Bool       -- the 100 ms after a deassertion have not elapsed (R30)
  off100 : Bool        -- PWR_EN has been held deasserted for 100 ms (R43)
  mainOn : Bool        -- the main conversion runs
  railsOk : Bool       -- every main rail is in regulation (R39)
  good1ms : Bool       -- PWR_GOOD has been high for 1 ms (R40)
  shutdown : Bool      -- the latch of R20
  perst : Bool         -- PERST_L asserted
  capAlert : Bool      -- CAP_ALERT_L asserted
  coolant : Bool       -- COOLANT_FAULT_L asserted
  thermTrip : Bool     -- THERM_TRIP_L asserted (R42)
  tripHalting : Bool   -- the orderly halt of a thermal trip runs (R42, R445)
  p3 : Bool            -- P3 keeps the main conversion off (R60)
  sensorsBelow95 : Bool -- every die junction sensor reads below 95 degrees (R43)
  els : Nat            -- bit e: ELS e seated with its interlock closed (R17)
  fibre : Nat          -- bit a: fibre array a mated or capped (R17)
  sysref : Bool        -- SYS_REFCLK present and in range
  mgmtFree : Bool      -- the management PLL runs free (R49)
  mgmtFromRoot : Bool  -- MGMT_CLK runs from the root PLL (R49)
  i3cAddr : Option (BitVec 7) -- dynamic address (R34)
  deriving DecidableEq, Repr

/-- Main-domain start-up and power states: state of R56-R74 that no register holds. -/
structure Power where
  inReset : Bool       -- the module domain is held in reset (R31, R40)
  seqHold : Bool       -- the power-up sequence waits for the root PLL lock (R50)
  running : Bool       -- verified firmware runs
  retryStatus : Bool   -- configuration requests get Request Retry Status (R70)
  recovery : Bool      -- recovery wait (R73)
  stopped : Bool       -- the main domain has stopped without an orderly halt (R50)
  p1Pending : Bool     -- a P1 entry waits for its moment (R56)
  goingTo : Option Nat -- the power state the transition in progress ends in
  heldTarget : Option Nat -- the newest TARGET written during a transition (R59)
  heldDoorbells : List (Nat × Nat × Nat) -- doorbells held while AUTO_WAKE is 0: LD, doorbell, value (R57)
  hbmExcluded : Nat    -- bit s: stack s excluded from capacity (R71, R499)
  hbmFilled : Bool     -- zero-fill complete
  image : List Byte    -- the firmware image in management SRAM
  flash : Table Byte   -- SPI flash
  flashBad : Bool      -- an interrupted FLASH_WRITE left an image the next boot refuses (R74)
  startPlan : Nat      -- link plan of the image header (R67)
  fwBase : Option Nat  -- first HBM subpage of the 88 MiB that firmware reserves in S0-S3 (R63, R251, R389)
  heldPackets : List (Nat × Packet) -- inbound packets held while AUTO_WAKE is 0, with their ports (R57)
  deriving DecidableEq, Repr

/-- Where a host read or write goes. -/
structure HostWrite where
  ld : Nat
  addr : Nat
  bytes : List Byte
  deriving DecidableEq, Repr

/-- What the module gives to the world around it, in order. The world is not part of the machine: its answers come
back as commands. -/
inductive Out where
  /-- A CXL.io write into the memory of the host bound to an LD (R401). -/
  | hostWrite (w : HostWrite)
  /-- An MSI-X message (R410). -/
  | msix (ld vector : Nat)
  /-- A register read's data (R3, R8). -/
  | regData (req addr : Nat) (v : BitVec 32)
  /-- An answer on a side interface: the interface, and the bytes returned. -/
  | answer (port : String) (bytes : List Byte)
  /-- A CXL.io configuration request's completion: 0 retry status, 1 the header of a disabled LD, 2 normal. -/
  | cfg (ld kind : Nat)
  /-- A non-configuration CXL.io request completed with Unsupported Request. -/
  | unsupported (ld : Nat)
  /-- Data that a CXL.mem read returned (R398). -/
  | memData (ld : Nat) (bytes : List Byte)
  /-- A request to host memory or pooled T3: the address and how many bytes (R400, R405). -/
  | hostRead (ld addr len : Nat)
  /-- Bytes written to pooled T3 (R177). -/
  | uioWrite (addr : Nat) (bytes : List Byte)
  /-- A read of peer T3 on another node: region, offset and how many bytes (R181; log entry 30). -/
  | peerRead (node region off len : Nat)
  /-- Bytes written to peer T3 (R181). -/
  | peerWrite (node region off : Nat) (bytes : List Byte)
  /-- A SEND of this module's own units to a region of a node: step messages and barge parts (R268, R301). -/
  | send (node region : Nat) (bytes : List Byte)
  /-- A packet injected for a node, before the router's choice of a port (R349). -/
  | inject (p : Packet)
  /-- A packet given to a port (R353). -/
  | port (link : Nat) (p : Packet)
  /-- A link-local packet on a link (R351). -/
  | ctl (link type : Nat) (bytes : List Byte)
  /-- A flit without packet data on a link: its header (R345). -/
  | flit (link hdr : Nat)
  deriving DecidableEq, Repr

/-- A command fetched from a submission queue and not yet completed (R404, R405). -/
structure SqCmd where
  ld : Nat
  index : Nat          -- ring index of the entry
  cid : Nat
  order : Bool
  opcode : Nat
  started : Bool
  arg0 : Nat           -- ADMIT: record address; CANCEL: handle; LAUNCH: core; COPY: host address
  arg1 : Nat           -- LAUNCH: entry PC; COPY: device-virtual address
  arg2 : Nat           -- COPY: length
  dir : Bool           -- COPY: device to host
  regs4 : List Word64  -- LAUNCH: s1-s4
  deriving DecidableEq, Repr

/-- A duty request not yet answered (R424, R425). -/
structure DutyReq where
  kind : Nat
  note : Nat           -- what waits for the answer, by kind
  id : Nat
  ready : Nat          -- TICK at which it was ready to post
  posted : Bool
  payload : List Byte  -- bytes 16-127
  deriving DecidableEq, Repr

/-- A reset in progress (R62-R66). -/
structure ResetRec where
  domain : Nat         -- 1 die, 2 link, 3 LD, 4 context
  inst : Nat
  drained : Bool       -- steps 4-6 of R65 have been taken
  completions : Bool   -- step 6 writes CONTEXT_RESET completions
  deriving DecidableEq, Repr

/-- The host port: state of R392-R411 that no register holds. -/
structure Wharf where
  up : Bool            -- the link has trained
  doorbells : Table Nat -- last value of doorbell k of LD n at key 4n + k
  cmds : List SqCmd    -- commands outstanding, in ring order per LD
  evqLost : Table Nat  -- events dropped since the last overflow record, per LD (R409)
  irqSince : Table Nat -- entries since the ring's last message, at key 4n + ring (R410)
  msixEn : Nat         -- bit n: LD n's MSI-X is enabled
  msixOpen : Table Bool -- vector v of LD n is unmasked, at key 64n + v
  msixPend : Table Bool -- its pending bit
  hdm : Table Nat      -- committed HDM decoder of LD n, in units of 256 MiB; 0 uncommitted (R398)
  aer : Table Nat      -- advisory non-fatal errors logged in LD n's AER (R400)
  heldLds : Bool       -- LD traffic is held by a follower loop (R501)
  training : Bool      -- the link retrains, and its traffic is held (R392)
  statusLines : Table Nat  -- status lines written, per LD (R402)
  deriving DecidableEq, Repr


/-! ### The Suina core (R75-R112) -/

/-- A loop register (R76). -/
structure LoopReg where
  count : BitVec 32
  start : BitVec 48
  stop : BitVec 48
  deriving DecidableEq, Repr

/-- A transfer tag (R90). -/
structure Tag where
  busy : Bool
  status : Nat
  wcoll : Bool
  deriving DecidableEq, Repr

/-- Where a launch came from (R82): a step of a context, or an SQ command. -/
inductive LaunchSrc where
  | none
  | step
  | command (ld cid : Nat)
  deriving DecidableEq, Repr

/-- An LDU whose data have not arrived (R95, R98). `data` is what memory held when the request was sent. -/
structure PendLd where
  rd : BitVec 5
  value : Word64
  line : Nat
  bytes : List Byte    -- the line, for the data cache; empty where the load fills none
  t3 : Bool
  fill : Bool          -- its line goes into the data cache: no store has met it since
  epoch : Nat          -- the epoch it was translated under (R224)
  deriving DecidableEq, Repr

/-- An X-slot operation dispatched and not completed, by its tag. -/
structure XPend where
  tag : Nat
  kind : Nat           -- the X-slot opcode
  a : Nat              -- operands, by kind: see the meaning that dispatches it
  b : Nat
  c : Nat
  d : Nat
  data : List Byte
  epoch : Nat          -- the epoch at its dispatch (R224)
  sel : List Nat       -- X_XFER: the leaf entries its range translated to; X_AWALK: the groups it retrieves
  granted : Bool       -- an engine has granted it
  deriving DecidableEq, Repr

/-- Run-ahead state (R100): its PC, the file of copies with its invalid marks, and the store buffer. -/
structure RunAhead where
  pc : BitVec 48
  sregs : Table Word64
  mregs : Table (BitVec 256)
  loops : Table LoopReg
  sBad : Nat           -- bit r: s register r is invalid
  mBad : Nat
  vBad : Nat
  stores : List (Nat × List Byte) -- newest first
  issued : Nat
  limit : Nat          -- bundles it may issue, as CORE_CFG stood at its entry (R103)
  bpred : Bool         -- BPRED_EN at its entry
  stopped : Bool
  deriving DecidableEq, Repr

/-- A translation held in a core's TLB (R212). -/
structure TlbEntry where
  leaf : Nat           -- device-virtual address of its range, in 64 KiB units
  ctx : Nat
  entry : Nat          -- the leaf entry
  deriving DecidableEq, Repr

/-- The matrix engine (R113-R135). Accumulator `16r + n` is row r, column n; in FP32 mode it holds FP32 bits. -/
structure Engine where
  mode : Nat
  bp : Nat
  afmt : Nat
  acc : Table Int
  bad : Nat            -- invalid bits (R124)
  abuf : Table Byte    -- activation buffer, byte p of row r at key 16384r + p
  scales : Table Nat   -- token scales, FP32 bits
  flags : Nat          -- sticky flags, in the bit order of R131
  queue : List MOp
  deriving DecidableEq, Repr

/-- One core: what R76 makes architectural, and the copies and history of R96-R105. -/
structure Core where
  pc : BitVec 48
  sregs : Table Word64
  vregs : Table (BitVec 2048)
  mregs : Table (BitVec 256)
  loops : Table LoopReg
  scr : Table Byte     -- scratchpad
  tags : Table Tag
  engine : Engine
  pend : List PendLd
  xops : List XPend
  halting : Bool       -- a HALT waits for earlier operations (R82)
  nodeWait : Nat       -- ticket of the node operation whose answer a bundle at CM waits for, 0 none (R98)
  nodeAns : Option (Nat × Word64) -- the answer that has arrived for the bundle at CM: status and value
  src : LaunchSrc
  dcache : Table (List Byte) -- lines held, by address / 64 (R98)
  icache : Table (List Byte) -- lines held, by address / 64 (R97)
  itlb : List TlbEntry
  dtlb : List TlbEntry
  bht : Table Nat      -- two-bit counters (R96)
  rstack : List (BitVec 48)
  ra : Option RunAhead
  bistPassed : Bool    -- a field BIST run has passed since the fence (R110)
  clearing : Bool      -- its scratchpad is being cleared (R175)
  clearBad : Bool      -- a clear failed; unavailable until a die reset (R175)
  lastRetire : Nat     -- TICK of the last retirement (R107)
  dropped : Nat        -- inbound writes discarded since the fence (R108)
  snapGauge : Table Nat -- shadows of the core's Gauges, bit 63 the overflow bit (R461)
  gauge : Table Nat    -- counts of the core's Gauges
  gaugeOvf : Nat       -- overflow bits
  gaugeSel : Table Nat -- selections of gauges 8-15
  deriving DecidableEq, Repr

/-- The engine's reset state (R135); token scales 1.0 (log entry 6). -/
def Engine.reset : Engine := ⟨0, 0, 0, [], 0, [], [], 0, []⟩

/-- A core after a die reset. -/
def Core.reset : Core :=
  ⟨0, [], [], [], [], [], [], Engine.reset, [], [], false, 0, none, .none, [], [], [], [], [], [], none,
   false, false, false, 0, 0, [], [], 0, []⟩


/-! ### Memory tiers, the Sluice and translation (R177-R230) -/

/-- What a 64 KiB subpage of HBM or of the Basin is used for; `kind` 0 is unused.
1 a 4 KiB page table holder, 2 a leaf-table holder, 3 a home, 4 a copy or a fill's destination, 5 the root and descriptor tables. -/
structure Use where
  kind : Nat
  ctx : Nat
  deriving DecidableEq, Repr

/-- A copy the Sluice holds (R185), or the destination of a MOVE or a copy-on-write while it fills.
States: 0 FILLING, 1 READY, 2 MAPPED, 3 WRITEBACK, 4 UNMAPPING, 6 REFILL; 5 marks a staging that waits for space
and has no destination yet. -/
structure Copy where
  state : Nat
  tier : Nat
  loc : Nat
  home : Nat            -- the leaf entry that names the home, or the source of a MOVE
  pin : Bool
  dirty : Bool
  written : Bool        -- written since its fill or write-back began (R182, R187)
  immediate : Bool      -- its switch is immediate (R186)
  stuck : Bool          -- a failed write-back holds it (R203)
  back : Bool           -- after the write-back it is switched back to its home
  why : Nat             -- 0 WEIGHT, 2 FALLBACK, 6 DATA range of the layer schedule, 1 command, 3 copy-on-write, 4 MOVE, 5 moving up
  layer : Nat           -- layer it serves; 256 for none
  order : Nat           -- when it was staged
  retries : Nat
  deriving DecidableEq, Repr

/-- A copy or an old home switched away and not yet freed: state RELEASING (R189). -/
structure Release where
  tier : Nat
  loc : Nat
  epoch : Nat           -- the epoch that followed the switch
  isCopy : Bool
  deriving DecidableEq, Repr

/-- The Sluice command in progress (R204). `stop` is the first failed subpage and its result. -/
structure SluiceCmd where
  op : Nat
  tier : Nat
  pin : Bool
  base : Nat            -- first subpage number
  count : Nat
  todo : List Nat       -- subpages it has not acted on yet
  stop : Option (Nat × Nat)
  deriving DecidableEq, Repr

/-- A layer's record of the layer schedule (R191). A range: first subpage, count, tier, kind, pin. -/
structure LayerSched where
  lead : Nat
  ranges : List (Nat × Nat × Nat × Nat × Bool)
  deriving DecidableEq, Repr

/-- An edit in the translation update queue (R220, R221). Operations 1-6 are those of R221; 20 switches a subpage to
its copy, 21 back to its home, 22 to a MOVE's destination, 23 to a private copy. `src` is 0 host, 1 Sluice, 2 Rake. -/
structure Edit where
  seq : Nat
  src : Nat
  op : Nat
  tier : Nat
  arg0 : Nat
  arg1 : Nat
  count : Nat
  deriving DecidableEq, Repr

/-- A sequence range descriptor that is VALID (R217). -/
structure Desc where
  gen : Nat
  base : Nat
  pairs : Nat
  groups : Nat
  deriving DecidableEq, Repr

/-- A page-table walk in progress on a die (R213), and whether an invalidation has met it (R215). In host-assisted
mode one that meets V = 0 waits for the host, repeats once, and then fails the access it serves (R228). -/
structure Walk where
  die : Nat
  ctx : Nat
  page : Nat            -- 2 MiB page number
  stale : Bool
  host : Bool           -- it waits for a page-walking duty answer
  answered : Bool       -- the host has answered
  failed : Bool         -- the access that waits for it fails when it looks again
  write : Bool
  fetch : Bool
  cls : Nat             -- requester class: 0 core, 1 walker, 2 Rake, 3 Crystalliser, 4 Sluice
  va : Nat
  deriving DecidableEq, Repr

/-! ### Attention, the Rake and barges (R231-R284) -/

/-- A post staged for the step in flight (R241). -/
structure Post where
  slot : Nat
  gen : Nat
  pair : Nat
  pos : Nat
  rows : List (List Byte)
  deriving DecidableEq, Repr

/-- A layer-table record (R257). -/
structure BargeLayer where
  k : Nat
  afmt : Nat
  moe : Bool
  nsend : Nat
  slo : Nat
  hlo : Nat
  hcount : Nat
  dir : Nat
  nexp : Nat
  send : Nat × Nat
  ret : Nat × Nat
  deriving DecidableEq, Repr

/-- A replica of a directory record (R258). -/
structure Replica where
  v : Bool
  node : Nat
  host : Nat
  weight : Nat
  slots : Nat
  deriving DecidableEq, Repr

/-- A host-table entry (R259). -/
structure HostEntry where
  layer : Nat
  expert : Nat
  valid : Bool
  spare : Bool
  slots : Nat
  wsub : Nat
  rxbase : Nat
  outbase : Nat
  wbase : Nat
  deriving DecidableEq, Repr

/-- A choice of a row that was assigned to a replica: row, rank, replica index, node, host entry, place. -/
structure Assigned where
  row : Nat
  j : Nat
  index : Nat
  node : Nat
  host : Nat
  n : Nat
  deriving DecidableEq, Repr

/-- A half at the sender (R263): its rows' route records, and, once closed, its tag. -/
structure Half where
  total : Nat
  rows : Table (List Byte)
  full : Bool           -- all rows are in; it closes when a tag is free
  tag : Option Nat
  assigned : List Assigned
  dropped : Nat
  bypassed : Nat
  failed : Bool         -- R277
  waited : Bool         -- its close has waited for a tag (R274)
  deriving DecidableEq, Repr

/-- What the sender records of a row (R275). -/
structure RowId where
  slot : Nat
  gen : Nat
  pos : Nat
  j : Nat
  row : Nat
  deriving DecidableEq, Repr

/-- A return part that a barge expects: the replica's node and host entry, and its rows in order. -/
structure ExpPart where
  node : Nat
  host : Nat
  rows : List RowId
  deriving DecidableEq, Repr

/-- A barge tag that is OPEN or DRAINING (R274, R276). -/
structure Barge where
  draining : Bool
  layer : Nat
  half : Nat
  step : Nat
  inst : Nat
  expected : List ExpPart
  deriving DecidableEq, Repr

/-- A dispatch part taken for one host entry: its sender's node, tag and row headers (R270, R272). -/
structure Received where
  host : Nat
  half : Nat
  s : Nat
  node : Nat
  tag : Nat
  rows : List (List Byte)
  deriving DecidableEq, Repr

/-- A replica to be copied and switched in (R282), or a directory word to be written at the next boundary. -/
structure Placement where
  layer : Nat
  expert : Nat
  index : Nat
  rep : Replica
  ready : Bool
  kind : Nat            -- 0 a directory word, 1 a retirement, 2 a replica switched in
  deriving DecidableEq, Repr

/-! ### The Manifest and the step (R285-R316) -/

/-- A Manifest entry (R287, R288). States 0 FREE, 1 PREFILL, 2 DECODE, 3 DRAINING. -/
structure Entry where
  state : Nat
  gen : Nat
  tenant : Nat
  endCode : Nat
  cancel : Bool
  draftOff : Bool
  draftMax : Nat
  draftLen : Nat
  rejects : Nat
  retryLeft : Nat
  base : Nat
  startLen : Nat
  promptLen : Nat
  curLen : Nat
  genLen : Nat
  maxTokens : Nat
  late : Nat
  arrival : Nat
  first : Nat
  last : Nat
  ttft : Nat
  tbt : Nat
  promptAddr : Nat
  params : Nat
  tag : Nat
  lastTok : Nat
  announced : Bool      -- carried in a COMMIT (R292)
  notReady : Bool       -- a member reported it not ready (R248, R293)
  changed : Bool        -- changed since the last boundary (R288)
  deriving DecidableEq, Repr

/-- One bucket of a Toll (R295). The level is kept in units of 10^-8 tokens, so that R298 is exact. -/
structure Bucket where
  rate : Nat
  depth : Nat           -- as written
  depthNow : Nat        -- in force since the last refill
  level : Int
  tokens : Nat
  deriving DecidableEq, Repr

/-- A work-list entry (R299). Kinds 0 decode, 1 prefill, 2 final prefill chunk. -/
structure Work where
  slot : Nat
  gen : Nat
  kind : Nat
  d : Nat
  tenant : Nat
  len : Nat
  ntok : Nat
  addr : Nat
  params : Nat
  deriving DecidableEq, Repr

/-- A sample result at the helm (R321, R330). -/
structure Sample where
  slot : Nat
  gen : Nat
  pos : Nat
  draft : Bool
  token : Nat
  status : Nat
  tier : Bool           -- STATUS 2 for a late or failed T3 read
  inst : Nat
  deriving DecidableEq, Repr

/-- A member's share of a step (R300), as its last broadcast gave it. -/
structure Member where
  active : Bool         -- a broadcast has been taken and its boundary is not complete
  helmSent : Bool       -- READY has been sent
  launched : Bool
  committed : Bool
  scattered : Bool      -- R188 step 1 is complete
  work : List Work
  faults : List (Nat × Nat × Nat) -- SLOT, GEN, end code
  settled : List (Nat × Nat × Nat × Bool) -- SLOT, GEN, L', ENDED
  admitted : List (Nat × Nat × Nat × Nat) -- SLOT, GEN, START_LEN, first chunk
  notReady : List (Nat × Nat × Nat × Nat) -- SLOT, GEN, L', A of sequences whose next rows have no page yet (R248)
  replaying : Bool      -- a REPLAY has been sent and not answered
  held : Option StepMsg -- a broadcast of a later step (R300)
  heldParts : List Part -- dispatch parts of later steps (R270)
  marked : List Nat     -- layers marked in this step (R193)
  quotaTold : List Nat  -- layers whose EV_SLUICE_QUOTA was raised in this step (R195)
  lateTold : List Nat   -- layers whose EV_SLUICE_LATE was raised in this step (R194)
  staleTold : Bool      -- EV_BARGE_STALE was raised in this step (R275)
  inst : Nat            -- the instance it runs (R299)
  deriving DecidableEq, Repr

/-- The helm's side of a step. -/
structure Helm where
  ready : List Nat      -- nodes whose READY is in
  scattered : List Nat
  faults : List (Nat × Nat × Nat)
  notReady : List (Nat × Nat)
  draining : List Nat
  work : List Work
  replays : Nat         -- consecutive instances replayed
  held : Bool           -- the builder waits for a Toll (R294)
  ringTold : Bool       -- the COMMIT that waits for ring room has been reported (R408)
  refillAt : Nat        -- TICK of the last refill
  results : List Sample
  dutied : Bool         -- a step-building request is outstanding (R315)
  seen : List (Nat × Nat) -- requests whose EV_XLAT_SEQ_STALE or tier event was raised, SLOT and GEN
  ended : Bool          -- CONVOY_END has been sent to the members (R508)
  deriving DecidableEq, Repr

/-- An import-table entry (R370). -/
structure Import where
  v : Bool
  node : Nat
  queue : Bool
  region : Nat
  key : Nat
  base : Nat            -- bytes
  size : Nat            -- bytes
  deriving DecidableEq, Repr

/-- State of one context (R414) that no register holds. -/
structure Ctx where
  -- the Assay (R137-R158)
  lcfg : Table Nat      -- ASSAY_LCFG[l] in force for the step, as the register reads
  lthresh : Table Nat   -- ASSAY_LTHRESH[l] in force
  errs : Table Nat      -- largest E per die and layer of the step, plus one, at key 256 die + layer
  counts : Table Nat    -- samples compared per die and layer
  repErr : Table Nat    -- the helm's combined reports: largest E, plus one
  repCount : Table Nat
  overshoot : Table Nat -- overshoot of a QUEUED layer
  layerCmds : List (Nat × Bool) -- CLEAR (false) and FORCE_WIDEN (true) since the last boundary
  narrowAt : Table Nat  -- step at whose boundary the layer last entered NARROW
  resident : Table Nat  -- at the helm: members on which layer l's fall-back copy is resident
  stageFail : List Nat  -- STAGING layers whose staging has failed
  -- the Sluice and translation (R177-R230)
  copies : Table Copy   -- by subpage number
  moves : Table Copy
  releases : List Release
  cmd : Option SluiceCmd
  sched : Table LayerSched
  schedNext : Option (Table LayerSched)
  order : Nat           -- staging order counter
  queue : List Edit
  seqNext : Nat
  descs : Table Desc
  tables : Table Nat    -- page tables by HBM address: 1 4 KiB, 2 leaf table
  layer : Nat           -- current layer of the step
  -- attention and the Rake (R231-R255)
  pairMap : Option (List (Nat × Nat × Nat)) -- layer, head, die
  pairNext : Option (List (Nat × Nat × Nat))
  posts : List Post     -- oldest first
  kvQuota : List (Nat × Nat) -- SLOT, GEN whose EV_RAKE_KV_QUOTA stands (R249)
  attnCfg : Table Nat   -- ATTN_CFG in force: 0 WINDOW, 1 RETR_PAGES, 2 KFMT, 3 VFMT
  -- barges (R256-R284)
  layers : Table BargeLayer
  dirs : Table (List Replica) -- at key 4096 l + e
  hosts : Table HostEntry
  reloadTabs : Bool
  halves : Table Half   -- at key 2 l + h
  barges : Table Barge  -- by tag
  tagPtr : Nat
  received : List Received
  arrived : List (Nat × Nat × Nat) -- layer, half, sender whose dispatch part has been written
  returned : List (Nat × Nat) -- host entry and half of each X_BRET of the step
  loadPend : Table Nat  -- choices of the step instance: 2 (4096 l + e) assigned, the next key dropped
  commits : Nat         -- committed steps of the rebalance epoch (R281)
  downClr : Nat
  placements : List Placement
  -- serving (R285-R335)
  entries : Table Entry
  tolls : Table Bucket  -- prefill of tenant t at 2 t, decode at 2 t + 1
  skips : Table Nat     -- TOLL_SKIPS
  member : Member
  helm : Helm
  -- duties (R423-R430)
  duties : List DutyReq
  -- memory semantics and messages (R367-R391)
  imports : Table Import
  -- accounting (R421)
  remBusy : Nat
  remMac : Nat
  remHbm : Nat
  remFabric : Nat
  remEnergy : Nat
  disabling : Bool      -- a DISABLE waits for its context reset
  deriving DecidableEq, Repr


/-! ### Links, routing and the Lock (R336-R366) -/

/-- The link layer of one link (R345, R347): sequence numbers, replay and credits, as this end keeps them. -/
structure LinkLayer where
  rxNext : Nat          -- sequence number expected next
  discarding : Bool     -- flits are discarded until the replay arrives
  txNext : Nat
  acked : Nat           -- highest sequence acknowledged by the peer
  ded : List Nat        -- dedicated credits held, per VC
  shared : Nat          -- shared-pool credits held
  pool : List Nat       -- shared credits spent, per VC
  waiting : List Packet -- packets queued for the port and not yet started
  downs : List Nat      -- TICKs of the last entries to DOWN, newest first (R341)
  trainFailed : Bool    -- EV_LINK_TRAIN_FAIL was raised in the present training
  deriving DecidableEq, Repr

/-- A route entry (R352). -/
structure Route where
  pri : Nat
  alt : Nat
  v : Bool
  priTransit : Bool
  altTransit : Bool
  rack : Bool
  slice : Nat
  deriving DecidableEq, Repr

/-- A transit query sent and not settled (R361): link, QID, slice and ranges asked for, and the answer. -/
structure Query where
  link : Nat
  qid : Nat
  slice : Nat
  ranges : List (Nat × Nat)
  answer : Option Bool
  load : Bool           -- sent for the configuration being loaded
  deriving DecidableEq, Repr

/-- A yes to a transit query that this module holds (R361). -/
structure Yes where
  link : Nat
  qid : Nat
  slice : Nat
  ranges : List (Nat × Nat)
  deriving DecidableEq, Repr

/-- A Lock configuration read and waiting for its transit answers (R359). -/
structure LockImage where
  node : Nat
  slice : Nat
  inUse : Nat           -- grants in use
  grants : List Nat
  expects : List Nat
  routes : Table Route
  bytes : List Byte     -- the image as it was read, for measurement 5 (R478)
  deriving DecidableEq, Repr

/-- Routing, the Lock and the time exchange: state that no register holds. -/
structure Fabric where
  links : Table LinkLayer
  routes : Table Route
  expects : List Nat    -- committed link expectations
  image : Option LockImage -- a LOAD waits for its answers
  queries : List Query
  nextQid : Nat
  pins : List (Nat × Nat × Nat) -- link, QID and grant pinned by this module's yes
  granted : List Yes    -- answers this module holds
  timeSeq : Nat
  timeSent : Option (Nat × Nat) -- SEQ and t1 of the request outstanding
  exchanges : List (Int × Int) -- offset and round trip of the last eight, newest first
  silent : Nat          -- periods without a valid exchange
  deriving DecidableEq, Repr

/-! ### Memory semantics and messages (R367-R391) -/

/-- A node operation waiting for its answer at the source (R376, R378). -/
structure NodeOp where
  seq : Nat
  core : Nat
  gen : Nat
  ctx : Nat
  kind : Nat            -- 1 LOAD, 2 STORE, 3 AMO
  op : Nat
  ret : Bool            -- a core waits for the answer
  size : Nat
  sext : Bool
  rd : BitVec 5
  offset : Nat
  region : Nat
  key : Nat
  data : List Byte
  ticket : Nat          -- counts the operations of this module, from 1
  sent : Bool
  deriving DecidableEq, Repr

/-- A pair at the source (R376, R377). -/
structure Pair where
  next : Nat
  base : Nat
  synced : Bool
  resyncing : Bool
  open_ : List NodeOp   -- unanswered, oldest first
  retries : Nat
  deriving DecidableEq, Repr

/-- A pair at the destination, with the responses to the last 64 requests (R376, R377). -/
structure PairIn where
  v : Bool              -- the pair has state
  expected : Nat
  base : Nat
  responses : List (Nat × Option Packet) -- SEQ and its response, newest first; none while the request is queued
  deriving DecidableEq, Repr

/-- A request queued at a home agent for a line (R381). -/
structure HomeReq where
  src : Nat
  pkt : Packet
  lines : Nat           -- lines served so far (R381)
  data : List Byte      -- what they gave
  wcoll : Bool
  deriving DecidableEq, Repr

/-- An exported region (R369). -/
structure Region where
  kind : Nat
  perm : Nat            -- bits LOAD, STORE, AMO, PUT, GET
  base : Nat
  size : Nat            -- bytes
  target : Nat
  slotsz : Nat
  key : Nat
  owner : Nat
  deriving DecidableEq, Repr

/-- A message at the source, by identifier (R387). `who` is 0 a core's `X_MSG`, 1 the Sluice, 2 the Barge engine,
3 the serving controller. -/
structure Message where
  gen : Nat
  busy : Bool
  ctx : Nat
  who : Nat
  core : Nat
  tag : Nat
  desc : Nat
  op : Nat
  node : Nat
  region : Nat
  key : Nat
  roff : Nat
  unified : Bool
  laddr : Nat
  data : List Byte      -- PUT and SEND: the bytes sent
  len : Nat
  got : List Nat        -- GET: packet indexes that have arrived
  lost : Bool           -- GET: a write into a scratchpad was lost (R164)
  resends : Nat
  note : Nat            -- what the block that issued it needs at completion
  deriving DecidableEq, Repr

/-- A record of the message record table (R389), with the use in progress. -/
structure MsgRecord where
  valid : Bool
  inc : Nat
  gen : Nat
  done : Bool
  status : Nat
  wcoll : Bool
  got : List Nat        -- packet indexes placed
  region : Nat
  slot : Option Nat     -- queue slot reserved
  data : List Byte      -- a SEND to region 0 or 1, as it arrives
  deriving DecidableEq, Repr

/-- Node operations and messages: state that no register holds. -/
structure Rack where
  pairs : Table Pair
  pairsIn : Table PairIn
  homeQ : List HomeReq
  homePtr : Table Nat   -- rotation pointer of a line
  regions : Table Region
  coreGen : Table Nat
  messages : Table Message
  msgPtr : Nat
  tickets : Nat         -- node operations and core messages issued so far
  waiting : List Message -- issues that wait for an identifier, oldest first (R387)
  msgInc : Nat          -- incarnation (R388)
  records : Table MsgRecord -- at key 4096 x node + identifier
  deriving DecidableEq, Repr

/-! ### Power and temperature (R431-R452) -/

/-- The Weir controller: state of R431-R451 that no register holds. -/
structure Weir where
  lim : Nat             -- L of the last tick, in 0.1 W
  governs : Nat         -- limits L equals or rises from: bit 0 cap and orphan cap, 1 alert cap, 2 coolant cap (R435)
  pest : Nat            -- raw estimate of the last tick, mW
  matrix : Nat          -- its part due to matrix cycles, mW
  ceiling : Table Nat   -- NG[d] while the hold lasts
  alert : Table Nat     -- Nalert[d], plus one
  bad : Nat             -- consecutive diverging samples (R434)
  good : Nat            -- consecutive agreeing samples
  floorTicks : Nat      -- ticks in FLOOR since the last count (R437)
  armed : Bool          -- orphan detection is armed (R441)
  gainRaw : Nat         -- raw estimated energy since the last gain update, mW ticks
  gainMeas : Nat        -- measured energy since then, mW ticks
  remEnergy : Nat       -- module energy below 1 mJ, in µJ
  remUnattr : Nat       -- unattributed energy below 1 mJ, in µJ
  deriving DecidableEq, Repr

/-! ### Security, debug and self-test (R467-R505) -/

/-- An owner slot of the fuse array (R471). -/
structure OwnerSlot where
  hash : List Byte
  enrolled : Bool
  fwSign : Bool
  debugSign : Bool
  revoked : Bool
  deriving DecidableEq, Repr

/-- The fuse array (R471). -/
structure Fuses where
  life : Nat            -- lifecycle fuses blown
  deviceId : Nat
  i3cId : Nat
  subsystem : Nat
  jtagId : Nat
  holyonHash : List Byte
  owners : List OwnerSlot -- slots 1-4
  svn : Nat             -- anti-rollback fuses blown
  secretWritten : Bool  -- the device-secret bank is not empty
  secret : List Byte
  coefficients : List Byte
  trims : List Byte
  deriving DecidableEq, Repr

/-- The security block and the debug scopes: state that no register holds. -/
structure Security where
  fuses : Fuses
  certs : List Byte     -- certificate chain in flash (R476)
  identity : List Byte  -- identity key derived at this boot; erased after it signs (R475)
  identityPub : List Byte
  aliasKey : List Byte  -- private key that signs answers (R475, R479)
  aliasCert : List Byte -- its certificate, built at this boot (R475, R476)
  opening : Option (Nat × Nat) -- scopes and mask that wait for their clearing (R484)
  token : List Byte     -- the accepted token that is acted on (R482)
  lockImage : List Byte -- committed Lock image, for measurement 5
  stepping : List Nat   -- halted cores that step
  deriving DecidableEq, Repr

/-- A test item (R493). -/
structure BistItem where
  cls : Nat
  inst : Nat
  requeued : Bool
  deriving DecidableEq, Repr

/-- The BIST controller and the loop-backs: state that no register holds. -/
structure Bist where
  todo : List BistItem
  running : List BistItem -- newest first
  full : Bool
  heldCmds : List (Nat × Nat × Nat) -- CTX_CMD writes held: writer LD, context, OP (R495)
  follower : Bool       -- the module follows in a PCS loop-back (R501)
  loop : Option (Nat × Nat × Nat) -- the loop that runs: IF, INST and DEPTH
  deriving DecidableEq, Repr

/-! ### The whole module -/

/-- The state of the module. Every register is in `regs`, one entry per field; `held`, `latch` and `errLatch` are what
each requester of R397 has written or read in part (R525, R533). -/
structure State where
  tick : Nat
  regs : Table Nat
  errSeq : Table Nat    -- records made in each page's error log
  errLatch : Table (Nat × Nat) -- at key 2^24 x requester + page: ERRLOG_INFO latched, and its record number plus one
  held : Table (Nat × Nat) -- per requester: address and low half of a 64-bit write (R533); address 0 for none
  latch : Table (Nat × Nat) -- per requester: address and latched high half of a 64-bit read
  board : Board
  power : Power
  resets : List ResetRec
  wharf : Wharf
  cores : Table Core
  ctxs : Table Ctx
  hbm : Table Byte      -- T2, by HBM byte address
  basin : Table Byte    -- T1, at 2^25 x die + offset
  hbmUse : Table Use    -- by HBM subpage number
  basinUse : Table Use  -- at 512 x die + subpage
  refs : Table Nat      -- reference counts of T2 homes (R251)
  dieTlb : Table (List Nat) -- 32 leaves, at (16 x die + context) x 2^27 + 2 MiB page (R212)
  walks : List Walk
  assayUnit : Table Nat -- core whose request the die's Assay unit runs, plus one (R144)
  assayPtr : Table Nat
  xtalPtr : Table Nat   -- rotation within context c on die d, at 16 d + c (R320)
  xtalVisit : Table Nat -- twice the context the die's arbiter visits, plus 1 once its quantum is added (R420)
  xtalDeficit : Table Nat -- deficit of context c on die d, at 16 d + c
  walkPtr : Table Nat   -- rotation of the die's walker (R239)
  basinBad : Nat        -- bit d: a clear of slice d failed; unavailable until a reset of its die (R175)
  hbmCe : Table Nat     -- corrected errors counted by the controller of each stack (R200)
  fabric : Fabric
  rack : Rack
  weir : Weir
  sec : Security
  bist : Bist
  haltBegun : Bool      -- the halt of R511 has begun
  told : Table Nat      -- when a rate-limited event was last raised, plus one
  pending : List Instr  -- commands that wait, first in, first out
  out : List Out        -- what the module has given to the world, in order
  free : Nat            -- the model's own: how many free values have been drawn
  deriving DecidableEq, Repr


/-! ### Reset values -/

def Use.none : Use := ⟨0, 0⟩
def Copy.none : Copy := ⟨0, 0, 0, 0, false, false, false, false, false, false, 0, 256, 0, 0⟩
def LayerSched.none : LayerSched := ⟨0, []⟩
def Desc.none : Desc := ⟨0, 0, 0, 0⟩
def BargeLayer.none : BargeLayer := ⟨0, 0, false, 0, 0, 0, 0, 0, 0, (0, 0), (0, 0)⟩
def HostEntry.none : HostEntry := ⟨0, 0, false, false, 0, 0, 0, 0, 0⟩
def Half.none : Half := ⟨0, [], false, .none, [], 0, 0, false, false⟩
def Barge.none : Barge := ⟨false, 0, 0, 0, 0, []⟩
def Import.none : Import := ⟨false, 0, false, 0, 0, 0, 0⟩

/-- A FREE entry of generation 0. -/
def Entry.none : Entry :=
  ⟨0, 0, 0, 0, false, false, 0, 0, 0, 0, 0, 0, 0, 0, 0, 0, 0, 0, 0, 0, 0, 0, 0, 0, 0, 0, false, false, false⟩

/-- An unlimited bucket (R295). Its level, which reads as all ones, is larger than any depth, so that a bucket that
stops being unlimited starts full (log entry 45). -/
def Bucket.unlimited : Bucket := ⟨0, 0xFFFFFFFF, 0xFFFFFFFF, 0xFFFFFFFF * 100000000, 0⟩

def Member.idle : Member := ⟨false, false, false, false, false, [], [], [], [], [], false, .none, [], [], [], [], false, 0⟩
def Helm.idle : Helm := ⟨[], [], [], [], [], [], 0, false, false, 0, [], false, [], false⟩

/-- A context after a module reset. -/
def Ctx.reset : Ctx :=
  { lcfg := [], lthresh := [], errs := [], counts := [], repErr := [], repCount := [], overshoot := [], layerCmds := [],
    narrowAt := [], resident := [], stageFail := [], copies := [], moves := [], releases := [], cmd := none,
    sched := [], schedNext := none, order := 0, queue := [], seqNext := 0, descs := [], tables := [], layer := 0,
    pairMap := none, pairNext := none, posts := [], kvQuota := [], attnCfg := [], layers := [], dirs := [],
    hosts := [], reloadTabs := false, halves := [], barges := [], tagPtr := 0, received := [], arrived := [],
    returned := [], loadPend := [], commits := 0, downClr := 0, placements := [], entries := [], tolls := [],
    skips := [], member := Member.idle, helm := Helm.idle, duties := [], imports := [],
    remBusy := 0, remMac := 0, remHbm := 0, remFabric := 0, remEnergy := 0, disabling := false }

/-- A link's layer before training: credits as training sets them (R347). -/
def LinkLayer.reset : LinkLayer := ⟨0, false, 0, 4095, List.replicate 8 16, 896, List.replicate 8 0, [], [], false⟩
def Route.none : Route := ⟨0, 0, false, false, false, false, 0⟩
def Fabric.reset : Fabric := ⟨[], [], [], none, [], 0, [], [], 0, none, [], 0⟩
def Pair.none : Pair := ⟨0, 0, false, false, [], 0⟩
def PairIn.none : PairIn := ⟨false, 0, 0, []⟩
def Region.none : Region := ⟨0, 0, 0, 0, 0, 0, 0, 0⟩
def Message.none : Message := ⟨0, false, 0, 0, 0, 0, 0, 0, 0, 0, 0, 0, false, 0, [], 0, [], false, 0, 0⟩
def MsgRecord.none : MsgRecord := ⟨false, 0, 0, false, 0, false, [], 0, .none, []⟩
def Rack.reset : Rack := ⟨[], [], [], [], [], [], [], 0, 0, [], 0, []⟩
def Weir.reset : Weir :=
  { lim := 20000, governs := 1, pest := 0, matrix := 0, ceiling := [], alert := [], bad := 0, good := 0,
    floorTicks := 0, armed := false, gainRaw := 0, gainMeas := 0, remEnergy := 0, remUnattr := 0 }
def OwnerSlot.empty : OwnerSlot := ⟨[], false, false, false, false⟩

/-- A fuse array with nothing blown: a module in BLANK (log entry 20). -/
def Fuses.blank : Fuses := ⟨0, 0, 0, 0, 0, [], List.replicate 4 OwnerSlot.empty, 0, false, [], [], []⟩

def Security.reset : Security := ⟨Fuses.blank, [], [], [], [], [], none, [], [], []⟩
def Bist.reset : Bist := ⟨[], [], false, [], false, none⟩

/-- Pins and power entry of an unpowered module: every input released, laser sources seated and fibre arrays mated,
`SYS_REFCLK` present (log entry 21). -/
def Board.reset : Board :=
  { standby := false, mgmtUp := false, vinOk := false, pwrEn := false, pwrEnHeld := false, offHold := false,
    off100 := false, mainOn := false, railsOk := false, good1ms := false, shutdown := false, perst := false,
    capAlert := false, coolant := false, thermTrip := false, tripHalting := false, p3 := false,
    sensorsBelow95 := true, els := 3, fibre := 3, sysref := true, mgmtFree := false, mgmtFromRoot := false,
    i3cAddr := none }

def Power.reset : Power :=
  { inReset := true, seqHold := false, running := false, retryStatus := false, recovery := false, stopped := false,
    p1Pending := false, goingTo := none, heldTarget := none, heldDoorbells := [], hbmExcluded := 0,
    hbmFilled := false, image := [], flash := [], flashBad := false, startPlan := 0, fwBase := none,
    heldPackets := [] }

def Wharf.reset : Wharf :=
  { up := false, doorbells := [], cmds := [], evqLost := [], irqSince := [], msixEn := 0, msixOpen := [],
    msixPend := [], hdm := [], aer := [], heldLds := false, training := false, statusLines := [] }

/-- The module before its standby converter comes on: every register at its reset value (R7, the Reset columns of the
field maps), every memory and queue empty. -/
def State.reset : State :=
  { tick := 0, regs := [], errSeq := [], errLatch := [], held := [], latch := [], board := Board.reset,
    power := Power.reset, resets := [], wharf := Wharf.reset, cores := [], ctxs := [], hbm := [], basin := [],
    hbmUse := [], basinUse := [], refs := [], dieTlb := [], walks := [], assayUnit := [], assayPtr := [],
    xtalPtr := [], xtalVisit := [], xtalDeficit := [], walkPtr := [], basinBad := 0, hbmCe := [], fabric := Fabric.reset,
    rack := Rack.reset, weir := Weir.reset, sec := Security.reset, bist := Bist.reset, haltBegun := false,
    told := [], pending := [], out := [], free := 0 }

end Sys2Proof.Machine
end

