-- ==== Sys2Proof/Machine/Ops.lean ====
section
/-! DEFINITION. Machine/Ops.lean: the named operations every meaning is built from: register fields, counters,
error logs (R525), event records (R409, R523, R534), the rings of a logical device (R402-R410) and the outputs. -/
namespace Sys2Proof.Machine

/-- The outcome type of a command. -/
abbrev Result := Host.Outcome State Fault Refusal

/-! ### Registers -/

/-- LD0 BAR0 address of a page (R528-R530). -/
def pageBase : Page → Nat → Nat
  | .dev, _ => 0x0 | .clk, _ => 0x1000 | .rst, _ => 0x2000 | .boot, _ => 0x3000 | .wharf, _ => 0x4000
  | .fault, _ => 0x5000 | .sec, _ => 0x6000 | .dbg, _ => 0x7000 | .weir, _ => 0x8000 | .pwr, _ => 0x9000
  | .therm, _ => 0xA000 | .bist, _ => 0xB000 | .loop, _ => 0xC000 | .route, _ => 0xD000 | .lock, _ => 0xE000
  | .link, i => 0x10000 + i * 0x1000 | .mx, d => 0x20000 + d * 0x1000 | .scr, d => 0x28000 + d * 0x1000
  | .basin, d => 0x30000 + d * 0x1000 | .gauge, d => 0x38000 + d * 0x1000 | .gaugeM, _ => 0x40000
  | .core, n => 0x100000 + n * 0x1000
  | .ctx, c => 0x400000 + c * 0x10000 | .ld, c => 0x401000 + c * 0x10000 | .duty, c => 0x402000 + c * 0x10000
  | .mani, c => 0x403000 + c * 0x10000 | .step, c => 0x404000 + c * 0x10000 | .toll, c => 0x405000 + c * 0x10000
  | .xtal, c => 0x406000 + c * 0x10000 | .assay, c => 0x407000 + c * 0x10000 | .sluice, c => 0x408000 + c * 0x10000
  | .xlat, c => 0x409000 + c * 0x10000 | .attn, c => 0x40A000 + c * 0x10000 | .rake, c => 0x40B000 + c * 0x10000
  | .barge, c => 0x40C000 + c * 0x10000 | .msf, c => 0x40D000 + c * 0x10000 | .msg, c => 0x40E000 + c * 0x10000

/-- Key of a field of entry `j` of page instance `i` in `State.regs`. -/
def Fd.key (f : Fd) (i j : Nat) : Nat := (pageBase f.page i + f.off + j * f.stride) * 64 + f.lo

/-- Value of a field. -/
def State.fld (s : State) (f : Fd) (i : Nat := 0) (j : Nat := 0) : Nat := tget f.rst s.regs (f.key i j)

/-- Sets a field; a value wider than the field keeps its low bits, so a counter wraps to 0. -/
def State.setFld (s : State) (f : Fd) (i j v : Nat) : State :=
  { s with regs := tset f.rst s.regs (f.key i j) (v % 2 ^ f.width) }

/-- Sets a field of an instance's register that is no array. -/
def State.put (s : State) (f : Fd) (i v : Nat) : State := s.setFld f i 0 v

/-- Adds to a wrapping counter. -/
def State.bump (s : State) (f : Fd) (i : Nat) (n : Nat := 1) : State := s.put f i (s.fld f i + n)

/-- Adds to a counter of an array, wrapping. -/
def State.bumpAt (s : State) (f : Fd) (i j : Nat) (n : Nat := 1) : State := s.setFld f i j (s.fld f i j + n)

/-- Adds to a counter of an array that stops at its maximum. -/
def State.bumpSat (s : State) (f : Fd) (i j : Nat) (n : Nat := 1) : State :=
  s.setFld f i j (min (s.fld f i j + n) (2 ^ f.width - 1))

/-- Whether a one-bit field is 1. -/
def State.on (s : State) (f : Fd) (i : Nat := 0) (j : Nat := 0) : Bool := decide (s.fld f i j ≠ 0)

/-- A field that holds the upper bits of an address, as that address. -/
def State.addr (s : State) (f : Fd) (i : Nat := 0) : Nat := s.fld f i * 2 ^ f.lo

/-! The common header (R519) of page kind `p`. -/
def hdrEnable (p : Page) : Fd := ⟨p, 0x008, 0, 0, 1, 0⟩
def hdrDutyMode (p : Page) : Fd := ⟨p, 0x008, 0, 1, 1, 0⟩
def hdrCfgLock (p : Page) : Fd := ⟨p, 0x008, 0, 2, 1, 0⟩
def hdrReady (p : Page) : Fd := ⟨p, 0x00C, 0, 0, 1, 0⟩
def hdrErrValid (p : Page) : Fd := ⟨p, 0x00C, 0, 16, 1, 0⟩
def hdrEvent (p : Page) : Fd := ⟨p, 0x010, 0, 0, 6, 0⟩
def hdrEventEn (p : Page) : Fd := ⟨p, 0x014, 0, 0, 3, 7⟩
def hdrErrAddr (p : Page) : Fd := ⟨p, 0x01C, 0, 0, 32, 0⟩
def hdrErrKind (p : Page) : Fd := ⟨p, 0x020, 0, 0, 4, 0⟩
def hdrErrOvf (p : Page) : Fd := ⟨p, 0x020, 0, 4, 1, 0⟩
def hdrErrBit (p : Page) : Fd := ⟨p, 0x020, 0, 8, 5, 0⟩
def hdrErrDetail (p : Page) : Fd := ⟨p, 0x020, 0, 16, 16, 0⟩

/-- Records an error on a page: the first record is kept until it is cleared, a later one only sets OVF (R525). -/
def State.errlog (s : State) (p : Page) (i kind addr bitPos detail : Nat) : State :=
  if s.on (hdrErrValid p) i then s.put (hdrErrOvf p) i 1
  else
    let s := s.put (hdrErrValid p) i 1
    let s := s.put (hdrErrAddr p) i addr
    let s := s.put (hdrErrKind p) i kind
    let s := s.put (hdrErrBit p) i bitPos
    let s := s.put (hdrErrDetail p) i detail
    { s with errSeq := tset 0 s.errSeq (pageBase p i) (tget 0 s.errSeq (pageBase p i) + 1) }

/-- A KIND 3 record of a faulting address: bits [31:0] in ADDR, bits [47:32] in DETAIL (R525). -/
def State.errAddr (s : State) (p : Page) (i a : Nat) : State :=
  s.errlog p i 3 (a % 2 ^ 32) 0 (a / 2 ^ 32 % 2 ^ 16)

/-! ### Outputs and free values -/

/-- Gives one output to the world. -/
def State.emit (s : State) (o : Out) : State := { s with out := s.out ++ [o] }

/-- Reads the next free value of width `w` and advances the counter of free values. -/
def State.freeNat (s : State) (w : Nat) : Nat × State :=
  ((Config.freeValue s.free).toNat % 2 ^ w, { s with free := s.free + 1 })

/-! ### Rings of a logical device -/

/-- log2 of a ring's entries: 0 CQ, 1 TOK, 2 EVQ. -/
def State.ringLog (s : State) (ld : Nat) : Nat → Nat
  | 0 => s.fld R.LD_RING_SIZES.CQ ld
  | 1 => s.fld R.LD_RING_SIZES.TOK ld
  | _ => s.fld R.LD_RING_SIZES.EVQ ld

/-- The tail register of a ring. -/
def ringTail : Nat → Fd
  | 0 => R.LD_CQ_TAIL.INDEX
  | 1 => R.LD_TOK_TAIL.INDEX
  | _ => R.LD_EVQ_TAIL.INDEX

/-- The last value of doorbell `k` of an LD: 0 SQ tail, 1 CQ head, 2 TOK head, 3 EVQ head (R402). -/
def State.doorbell (s : State) (ld k : Nat) : Nat := tget 0 s.wharf.doorbells (4 * ld + k)

/-- Room in a ring: none while the rings are not enabled (R408). -/
def State.ringRoom (s : State) (ld ring : Nat) : Nat :=
  if s.on R.LD_CTRL.RINGS_EN ld then
    2 ^ s.ringLog ld ring - (s.fld (ringTail ring) ld + 2 ^ 32 - s.doorbell ld (ring + 1)) % 2 ^ 32
  else 0

/-- Base address of a ring. -/
def State.ringBase (s : State) (ld : Nat) : Nat → Nat
  | 0 => s.addr R.LD_CQ_BASE.ADDR ld
  | 1 => s.addr R.LD_TOK_BASE.ADDR ld
  | _ => s.addr R.LD_EVQ_BASE.ADDR ld

/-- Entry size of a ring in bytes (R402). -/
def ringEntry : Nat → Nat
  | 0 => 64
  | 1 => 16
  | _ => 32

/-- The status line: SQ head, CQ, TOK and EVQ tails, the other bytes 0 (R402). -/
def State.statusLine (s : State) (ld : Nat) : State :=
  let s := { s with wharf := { s.wharf with statusLines := tset 0 s.wharf.statusLines ld (tget 0 s.wharf.statusLines ld + 1) } }
  s.emit (.hostWrite ⟨ld, s.addr R.LD_STATUS_ADDR.ADDR ld,
    leBytes (s.fld R.LD_SQ_HEAD.INDEX ld) 4 ++ leBytes (s.fld R.LD_CQ_TAIL.INDEX ld) 4 ++
    leBytes (s.fld R.LD_TOK_TAIL.INDEX ld) 4 ++ leBytes (s.fld R.LD_EVQ_TAIL.INDEX ld) 4 ++
    List.replicate 48 0⟩)

/-- Sends an MSI-X message, or sets the pending bit of a masked vector (R410). -/
def State.sendMsix (s : State) (ld v : Nat) : State :=
  if bit s.wharf.msixEn ld then
    if tget false s.wharf.msixOpen (64 * ld + v) then s.emit (.msix ld v)
    else { s with wharf := { s.wharf with msixPend := tset false s.wharf.msixPend (64 * ld + v) true } }
  else s

/-- The interrupt register of a ring: EN, COUNT and VECTOR. -/
def irqEn : Nat → Fd
  | 0 => R.LD_IRQ_CQ.EN | 1 => R.LD_IRQ_TOK.EN | 2 => R.LD_IRQ_EVQ.EN | _ => R.DUTY_IRQ.EN
def irqCount : Nat → Fd
  | 0 => R.LD_IRQ_CQ.COUNT | 1 => R.LD_IRQ_TOK.COUNT | 2 => R.LD_IRQ_EVQ.COUNT | _ => R.DUTY_IRQ.COUNT
def irqVector : Nat → Fd
  | 0 => R.LD_IRQ_CQ.VECTOR | 1 => R.LD_IRQ_TOK.VECTOR | 2 => R.LD_IRQ_EVQ.VECTOR | _ => R.DUTY_IRQ.VECTOR

/-- Counts an entry of a ring against its interrupt and sends the message when COUNT is reached, or at once (R410).
Ring 3 is the duty request ring (R424). -/
def State.ringIrq (s : State) (ld ring : Nat) (now : Bool) : State :=
  if s.on (irqEn ring) ld then
    let n := tget 0 s.wharf.irqSince (4 * ld + ring) + 1
    if now || decide (s.fld (irqCount ring) ld ≤ n) then
      let s := { s with wharf := { s.wharf with irqSince := tset 0 s.wharf.irqSince (4 * ld + ring) 0 } }
      s.sendMsix ld (s.fld (irqVector ring) ld)
    else { s with wharf := { s.wharf with irqSince := tset 0 s.wharf.irqSince (4 * ld + ring) n } }
  else s

/-- Writes one entry at a ring's tail, then the status line, then the interrupt (R402, R410). -/
def State.ringPush (s : State) (ld ring : Nat) (bytes : List Byte) (now : Bool := false) : State :=
  let t := s.fld (ringTail ring) ld
  let s := s.emit (.hostWrite ⟨ld, s.ringBase ld ring + t % 2 ^ s.ringLog ld ring * ringEntry ring, bytes⟩)
  let s := s.put (ringTail ring) ld (t + 1)
  (s.statusLine ld).ringIrq ld ring now

/-! ### Events -/

/-- The unit that raises an event: a block with a page, or one of the pageless units of R527. -/
inductive Raiser where
  | page (p : Page) (i : Nat)
  | other (code i : Nat)
  deriving DecidableEq, Repr

/-- Block type code and instance that a record carries (R527, R534). -/
def Raiser.ids : Raiser → Nat × Nat
  | .page .core n => (0x100 + n / 64, n % 64)
  | .page .gaugeM _ => (0x70, 8)
  | .page p i => (typeCode p, i)
  | .other c i => (c, i)

/-- The 32-byte event record (R409). `info` is the information field, already in bytes. -/
def eventRecord (code : Nat) (ctx : Option Nat) (u : Raiser) (tick : Nat) (info : List Byte) : List Byte :=
  leBytes code 2 ++ leBytes (match ctx with | some c => c | none => 16) 1 ++ [0] ++
  leBytes u.ids.1 2 ++ leBytes u.ids.2 1 ++ [0] ++ leBytes tick 8 ++
  info ++ List.replicate (16 - info.length) 0

/-- Drops an event that finds its EVQ full (R409). -/
def State.evqDrop (s : State) (ld : Nat) : State :=
  let s := s.bump R.LD_EVQ_DROPPED.COUNT ld
  let s := s.put R.LD_STATUS.EVQ_OVF ld 1
  { s with wharf := { s.wharf with evqLost := tset 0 s.wharf.evqLost ld (tget 0 s.wharf.evqLost ld + 1) } }

/-- Writes the overflow record once room has returned after drops (R409). -/
def State.evqOverflow (s : State) (ld : Nat) : State :=
  let lost := tget 0 s.wharf.evqLost ld
  if lost ≠ 0 ∧ 0 < s.ringRoom ld 2 then
    let s := { s with wharf := { s.wharf with evqLost := tset 0 s.wharf.evqLost ld 0 } }
    let s := s.bumpAt R.FAULT_COUNT.COUNT 0 0
    let s := s.put (hdrEvent .ld) ld (setBit (s.fld (hdrEvent .ld) ld) 0)
    s.ringPush ld 2 (eventRecord 0x0503 (some ld) (.page .ld ld) s.tick (leBytes lost 4))
  else s

/-- Puts a record into an LD's event ring. -/
def State.evqPush (s : State) (ld : Nat) (rec : List Byte) (now : Bool) : State :=
  let s := s.evqOverflow ld
  if s.ringRoom ld 2 = 0 then s.evqDrop ld else s.ringPush ld 2 rec now

/-- LDs whose rings are enabled. -/
def State.ringLds (s : State) : List Nat := (List.range 16).filter fun n => s.on R.LD_CTRL.RINGS_EN n

/-- Raises an event: counts it in `FAULT_COUNT`, sets the class bit of the raising page's EVENT (R523), and writes
the record where R409 sends it. The containment of classes 4 and 5 is in Machine/Contain.lean. -/
def State.raise (s : State) (u : Raiser) (ctx : Option Nat) (code : Nat) (info : List Byte) : State :=
  let cls := code / 0x1000
  let s := s.bumpAt R.FAULT_COUNT.COUNT 0 cls
  let s := match u with
    | .page p i => s.put (hdrEvent p) i (setBit (s.fld (hdrEvent p) i) cls)
    | .other _ _ => s
  let wanted := match u with
    | .page p i => decide (3 ≤ cls) || bit (s.fld (hdrEventEn p) i) cls
    | .other _ _ => true
  if wanted then
    let rec' := eventRecord code ctx u s.tick info
    if cls = 5 then s.ringLds.foldl (fun s ld => s.evqPush ld rec' true) s
    else s.evqPush (ctx.getD 0) rec' (decide (4 ≤ cls))
  else s

/-- 4-byte information words. -/
def w4 (l : List Nat) : List Byte := l.flatMap fun v => leBytes v 4

/-- A handle in event information: [9:0] slot, [17:10] GEN (R517). -/
def handle (slot gen : Nat) : Nat := slot + 2 ^ 10 * gen

/-! ### Contexts -/

/-- CTX_STATUS.STATE codes (R414). -/
def ctxDisabled : Nat := 0
def ctxActive : Nat := 1
def ctxQuiescing : Nat := 2
def ctxQuiescedCode : Nat := 3

/-- The context has ended on this module (R507). -/
def State.ended (s : State) (c : Nat) : Bool := s.on R.FAULT_CTX.ENDED 0 c

/-- The module is halted (R511), or the main domain has stopped (R50). -/
def State.halted (s : State) : Bool := s.haltBegun || s.power.stopped

/-- The context may start new work: ACTIVE (R416), not ended (R507), the module not halted (R511). -/
def State.ctxRuns (s : State) (c : Nat) : Bool :=
  decide (s.fld R.CTX_STATUS.STATE c = ctxActive) && !s.ended c && !s.halted

/-- Core `n` is in context `c`'s core set. -/
def State.inSet (s : State) (c n : Nat) : Bool := bit (s.fld R.CTX_CORES.BITS c (n / 32)) (n % 32)

/-- The cores of a context's set, rising. -/
def State.coresOf (s : State) (c : Nat) : List Nat := (List.range 512).filter fun n => s.inSet c n

/-- The context that owns a core, if any. -/
def State.ownerOf (s : State) (n : Nat) : Option Nat := (List.range 16).find? fun c => s.inSet c n

/-- LD n is enabled (R395): LD0 whenever the port is up, LD n by its bit of WHARF_LD_EN. -/
def State.ldEnabled (s : State) (n : Nat) : Bool :=
  if n = 0 then s.wharf.up else bit (s.fld R.WHARF_LD_EN.EN) (n - 1)

/-- An LD reset of LD n is in progress. -/
def State.ldInReset (s : State) (n : Nat) : Bool := s.resets.any fun r => decide (r.domain = 3) && decide (r.inst = n)

/-- A context or LD reset of context c is in progress. -/
def State.ctxInReset (s : State) (c : Nat) : Bool :=
  s.resets.any fun r => (decide (r.domain = 3) || decide (r.domain = 4)) && decide (r.inst = c)

/-- This module is the context's helm (R285). -/
def State.helm (s : State) (c : Nat) : Bool := s.on R.STEP_CTRL.HELM c

/-! ### Share-weighted rotation and rotating priority -/

/-- One visit of R420 to context `c` at arbiter `a`: the deficit after the quantum is added, and how many of the
waiting costs it grants. -/
def grantLoop : Nat → List Nat → Nat × List Nat
  | d, [] => (d, [])
  | d, cost :: rest => if cost ≤ d then grantLoop (d - cost) rest else (d, cost :: rest)

/-- The head of a rotation of `n` positions (R10): the first waiting position from the pointer on. -/
def rotPick (n ptr : Nat) (waiting : Nat → Bool) : Option Nat :=
  ((List.range n).map fun i => (ptr + i) % n).find? waiting

/-- The pointer after a grant: it moves past the winner only when two or more were waiting (R10). -/
def rotNext (n ptr winner : Nat) (waiting : Nat → Bool) : Nat :=
  if 2 ≤ ((List.range n).filter waiting).length then (winner + 1) % n else ptr

end Sys2Proof.Machine
end

