-- ==== Sys2Proof/Machine/Clock.lean ====
section
/-! DEFINITION. Machine/Clock.lean: the passing of time on an empty queue. -/
namespace Sys2Proof.Machine

/-- One `TICK` passes: `TICK` counts while the root PLL is locked (R54, R55); nothing else happens by itself. -/
def State.idleTick (s : State) : State :=
  if s.on R.CLK_STATUS.ROOT_LOCK then { s with tick := (s.tick + 1) % 2 ^ 64 } else s

end Sys2Proof.Machine
end

