-- ==== Sys2Proof/Machine/Float.lean ====
section
/-! DEFINITION. Machine/Float.lean: floating-point numbers as exact dyadics, rounded once on the way out
(R83, R85, R88, R124). Integers, exact products and sums are computed in full; every rounding is to nearest, ties
to even. The payload and sign of a NaN result are free values (log entry 2). -/
namespace Sys2Proof.Machine

/-- A floating value: a NaN, an infinity, or ±m·2^e. -/
inductive FVal where
  | nan
  | inf (neg : Bool)
  | fin (neg : Bool) (m : Nat) (e : Int)
  deriving DecidableEq, Repr

/-- A binary format: precision, exponent of the least subnormal bit, exponent field width. -/
structure FFmt where
  prec : Nat
  elsb : Int
  ebits : Nat
  deriving DecidableEq, Repr

def fp32 : FFmt := ⟨24, -149, 8⟩
def bf16 : FFmt := ⟨8, -133, 8⟩
def fp64 : FFmt := ⟨53, -1074, 11⟩

/-- Reads the bits of a format with infinities and NaNs at the top exponent. -/
def decodeF (f : FFmt) (b : Nat) : FVal :=
  let mant := b % 2 ^ (f.prec - 1)
  let ex := b / 2 ^ (f.prec - 1) % 2 ^ f.ebits
  let neg := b / 2 ^ (f.prec - 1 + f.ebits) % 2 = 1
  if ex = 2 ^ f.ebits - 1 then (if mant = 0 then .inf neg else .nan)
  else if ex = 0 then .fin neg mant f.elsb
  else .fin neg (mant + 2 ^ (f.prec - 1)) (f.elsb + (ex - 1 : Nat))

/-- OCP FP8: E5M2 has infinities; E4M3 has only the NaN of all ones (R123). -/
def decodeE4M3 (b : Nat) : FVal :=
  let mant := b % 8
  let ex := b / 8 % 16
  let neg := b / 128 % 2 = 1
  if ex = 15 ∧ mant = 7 then .nan
  else if ex = 0 then .fin neg mant (-9)
  else .fin neg (mant + 8) (-9 + (ex - 1 : Nat))

def decodeE5M2 (b : Nat) : FVal := decodeF ⟨3, -16, 5⟩ (b % 256)

/-- Sign bit of a format. -/
def signBit (f : FFmt) (neg : Bool) : Nat := b2n neg * 2 ^ (f.prec - 1 + f.ebits)

/-- The bits of an infinity. -/
def infBits (f : FFmt) (neg : Bool) : Nat := signBit f neg + (2 ^ f.ebits - 1) * 2 ^ (f.prec - 1)

/-- A quiet NaN whose sign and payload are those of a free value. -/
def nanBits (f : FFmt) (free : Nat) : Nat :=
  infBits f (free.testBit 63) + 2 ^ (f.prec - 2) + free % 2 ^ (f.prec - 2)

/-- `m·2^e` cut to a format's grid: quotient, exponent of its unit, and whether what is cut off lies below, at or
above half a unit (0 nothing, 1 below, 2 at, 3 above). `sticky` says that a little more was cut off already. -/
def cutTo (f : FFmt) (m : Nat) (e : Int) (sticky : Bool) : Nat × Int × Nat :=
  let t := max (e + (Nat.log2 m + 1 : Nat) - f.prec) f.elsb
  if t ≤ e then (m * 2 ^ (e - t).toNat, t, b2n sticky)
  else
    let n := (t - e).toNat
    let q := m / 2 ^ n
    let r := m % 2 ^ n
    let h := 2 ^ (n - 1)
    (q, t, if r = 0 then b2n sticky else if r < h then 1 else if r = h then (if sticky then 3 else 2) else 3)

/-- Bits of ±q·2^t in a format, where q has at most `prec` bits or is exactly 2^prec; overflow gives infinity. -/
def packF (f : FFmt) (neg : Bool) (q : Nat) (t : Int) : Nat :=
  let mag := if q = 0 then 0 else q + (t - f.elsb).toNat * 2 ^ (f.prec - 1)
  let top := (2 ^ f.ebits - 1) * 2 ^ (f.prec - 1)
  signBit f neg + min mag top

/-- ±m·2^e rounded to nearest, ties to even. -/
def roundF (f : FFmt) (neg : Bool) (m : Nat) (e : Int) (sticky : Bool := false) : Nat :=
  if m = 0 then signBit f neg
  else
    let c := cutTo f m e sticky
    let q := if c.2.2 = 3 ∨ (c.2.2 = 2 ∧ c.1 % 2 = 1) then c.1 + 1 else c.1
    packF f neg q c.2.1

/-- Bits of a value in a format. -/
def encodeF (f : FFmt) (v : FVal) (free : Nat) : Nat :=
  match v with
  | .nan => nanBits f free
  | .inf neg => infBits f neg
  | .fin neg m e => roundF f neg m e

/-- The signed mantissa at exponent `t ≤ e`. -/
def scaled (neg : Bool) (m : Nat) (e t : Int) : Int :=
  let v : Int := (m * 2 ^ (e - t).toNat : Nat)
  if neg then -v else v

/-- The exact sum; an exact zero of unlike signs is +0 (R83: IEEE 754 default results). -/
def FVal.add : FVal → FVal → FVal
  | .nan, _ | _, .nan => .nan
  | .inf a, .inf b => if a = b then .inf a else .nan
  | .inf a, .fin .. => .inf a
  | .fin .., .inf b => .inf b
  | .fin na ma ea, .fin nb mb eb =>
    let t := min ea eb
    let v := scaled na ma ea t + scaled nb mb eb t
    if v = 0 then .fin (na && nb) 0 t else .fin (decide (v < 0)) v.natAbs t

def FVal.neg : FVal → FVal
  | .nan => .nan
  | .inf a => .inf (!a)
  | .fin n m e => .fin (!n) m e

def FVal.sub (a b : FVal) : FVal := a.add b.neg

/-- The exact product. -/
def FVal.mul : FVal → FVal → FVal
  | .nan, _ | _, .nan => .nan
  | .inf a, .inf b => .inf (a != b)
  | .inf a, .fin nb mb _ => if mb = 0 then .nan else .inf (a != nb)
  | .fin na ma _, .inf b => if ma = 0 then .nan else .inf (na != b)
  | .fin na ma ea, .fin nb mb eb => .fin (na != nb) (ma * mb) (ea + eb)

/-- Bits of a ÷ b in a format. -/
def divF (f : FFmt) (a b : FVal) (free : Nat) : Nat :=
  match a, b with
  | .nan, _ | _, .nan | .inf _, .inf _ => nanBits f free
  | .inf x, .fin nb _ _ => infBits f (x != nb)
  | .fin na _ _, .inf y => signBit f (na != y)
  | .fin na ma ea, .fin nb mb eb =>
    if mb = 0 then (if ma = 0 then nanBits f free else infBits f (na != nb))
    else if ma = 0 then signBit f (na != nb)
    else
      let k := f.prec + 2 + Nat.log2 mb + 1
      let n := ma * 2 ^ k
      roundF f (na != nb) (n / mb) (ea - eb - k) (decide (n % mb ≠ 0))

/-- Bits of √a in a format; the root of −0 is −0. -/
def sqrtF (f : FFmt) (a : FVal) (free : Nat) : Nat :=
  match a with
  | .nan | .inf true => nanBits f free
  | .inf false => infBits f false
  | .fin n m e =>
    if m = 0 then signBit f n
    else if n then nanBits f free
    else
      let k := 2 * (f.prec + 2)
      let m' := if e % 2 = 0 then m * 2 ^ k else m * 2 ^ (k + 1)
      let e' := if e % 2 = 0 then e - k else e - (k + 1)
      let r := Nat.sqrt m'
      roundF f false r (e' / 2) (decide (r * r ≠ m'))

/-- Order of two values: none for a NaN operand. −0 equals +0. -/
def FVal.cmp : FVal → FVal → Option Ordering
  | .nan, _ | _, .nan => none
  | .inf a, .inf b => some (if a = b then .eq else if a then .lt else .gt)
  | .inf a, .fin .. => some (if a then .lt else .gt)
  | .fin .., .inf b => some (if b then .gt else .lt)
  | .fin na ma ea, .fin nb mb eb =>
    let t := min ea eb
    some (compare (scaled na ma ea t) (scaled nb mb eb t))

/-- The sign of a value that is no NaN. -/
def FVal.isNeg : FVal → Bool
  | .nan => false
  | .inf n => n
  | .fin n _ _ => n

/-- Whether minimum (`lo`) or maximum takes the first operand, −0 below +0 (R85; the order of the zeros is
DEDUCED, log entry 5). -/
def fPickFirst (lo : Bool) (a b : FVal) : Bool :=
  match a.cmp b with
  | some .lt => lo
  | some .gt => !lo
  | some .eq => if lo then a.isNeg || !b.isNeg else !a.isNeg || b.isNeg
  | none => true

/-- IEEE 754 minimum and maximum on bits: one NaN operand gives the other operand (R85). -/
def minMaxF (f : FFmt) (lo : Bool) (x y free : Nat) : Nat :=
  match decodeF f x, decodeF f y with
  | .nan, .nan => nanBits f free
  | .nan, _ => y
  | _, .nan => x
  | a, b => if fPickFirst lo a b then x else y

/-- A value as an integer: rounded toward zero, or to nearest with ties to even. -/
def FVal.toInt (nearest : Bool) : FVal → Option Int
  | .nan | .inf _ => none
  | .fin n m e =>
    let q := if 0 ≤ e then m * 2 ^ e.toNat
      else
        let k := (-e).toNat
        let q := m / 2 ^ k
        let r := m % 2 ^ k
        if nearest ∧ (2 ^ k < 2 * r ∨ (2 * r = 2 ^ k ∧ q % 2 = 1)) then q + 1 else q
    some (if n then -(q : Int) else q)

/-- An integer clamped to `w` signed bits. -/
def clampS (w : Nat) (v : Int) : Int :=
  max (-(2 ^ (w - 1) : Nat)) (min v ((2 ^ (w - 1) : Nat) - 1))

/-- Saturating conversion to `w` signed bits; a NaN gives 0 (R85, R88). -/
def toIntSat (w : Nat) (nearest : Bool) (v : FVal) : Int :=
  match v with
  | .nan => 0
  | .inf n => if n then -(2 ^ (w - 1) : Nat) else (2 ^ (w - 1) : Nat) - 1
  | v => clampS w ((v.toInt nearest).getD 0)

/-- An integer as a value. -/
def ofIntF (v : Int) : FVal := .fin (decide (v < 0)) v.natAbs 0

/-- log 2 in units of 2^-160, rounded down. -/
def ln2Fix : Nat := 1013035739299659071135698605846798551586536899366

/-- e^(m·2^e) for `e ≥ -160`, as S·2^(n-160) with S in [2^160, 2^161) up to about 2^-150: argument reduction by
log 2 and a Taylor sum. -/
def expFix (neg : Bool) (m : Nat) (e : Int) : Nat × Int :=
  let x := scaled neg m e (-160)
  let n := x / (ln2Fix : Int)
  let r := (x - n * ln2Fix).toNat
  let step := fun (acc : Nat × Nat) (k : Nat) =>
    let term := acc.2 * r / 2 ^ 160 / (k + 1)
    (acc.1 + term, term)
  (((List.range 40).foldl step (2 ^ 160, 2 ^ 160)).1, n)

/-- One of the results within one unit in the last place of ±q·2^t plus a part cut off (R88). An exact value may
also come out one unit low or high. -/
def ulpResult (f : FFmt) (neg : Bool) (c : Nat × Int × Nat) (choice : BitVec 2) : Nat :=
  if c.2.2 = 0 then
    (if choice = 1#2 then packF f neg (c.1 + 1) c.2.1
     else if choice = 2#2 then packF f neg (c.1 - 1) c.2.1
     else packF f neg c.1 c.2.1)
  else if choice.getLsbD 0 then packF f neg (c.1 + 1) c.2.1 else packF f neg c.1 c.2.1

/-- Bits of e^a in FP32 (R88). -/
def vexp (b free : Nat) : Nat :=
  match decodeF fp32 b with
  | .nan => nanBits fp32 free
  | .inf true => 0
  | .inf false => infBits fp32 false
  | .fin n m e =>
    if m = 0 then ulpResult fp32 false (cutTo fp32 1 0 false) (Config.ulpChoice 0x10 (BitVec.ofNat 32 b))
    else if scaled n m e (-160) ≥ 89 * 2 ^ 160 then infBits fp32 false
    else if scaled n m e (-160) ≤ -(104 * 2 ^ 160) then
      ulpResult fp32 false (0, fp32.elsb, 1) (Config.ulpChoice 0x10 (BitVec.ofNat 32 b))
    else
      let p := expFix n m e
      ulpResult fp32 false (cutTo fp32 p.1 (p.2 - 160) true) (Config.ulpChoice 0x10 (BitVec.ofNat 32 b))

/-- Bits of 1/a in FP32 (R88). -/
def vrcp (b free : Nat) : Nat :=
  match decodeF fp32 b with
  | .nan => nanBits fp32 free
  | .inf n => signBit fp32 n
  | .fin n m e =>
    if m = 0 then infBits fp32 n
    else
      let k : Nat := 64
      ulpResult fp32 n (cutTo fp32 (2 ^ k / m) (-e - k) (decide (2 ^ k % m ≠ 0)))
        (Config.ulpChoice 0x11 (BitVec.ofNat 32 b))

/-- Bits of 1/√a in FP32 (R88). -/
def vrsqrt (b free : Nat) : Nat :=
  match decodeF fp32 b with
  | .nan | .inf true => nanBits fp32 free
  | .inf false => 0
  | .fin n m e =>
    if m = 0 then infBits fp32 n
    else if n then nanBits fp32 free
    else
      let m' := if e % 2 = 0 then m else 2 * m
      let e' := if e % 2 = 0 then e else e - 1
      let k : Nat := 160
      let q := 2 ^ k / m'
      let r := Nat.sqrt q
      let exact := decide (r * r * m' = 2 ^ k)
      ulpResult fp32 false (cutTo fp32 r (-(k : Int) / 2 - e' / 2) (!exact))
        (Config.ulpChoice 0x12 (BitVec.ofNat 32 b))

end Sys2Proof.Machine
end

