-- ==== Sys2Proof/Machine/Operands.lean ====
section
/-! DEFINITION. Machine/Operands.lean: the registers of a core, address formation, scalar arithmetic and vector lanes
(R76-R88; 03_suina_core.md). A NaN result, and a result the spec does not state, are free values: element `i` of
draw `fr` (log entries 2 and 14). -/
namespace Sys2Proof.Machine

/-! ### Registers (R76) -/

/-- s registers; s0 reads 0. -/
def Core.s (k : Core) (r : BitVec 5) : Word64 := if r = 0#5 then 0#64 else tget 0#64 k.sregs r.toNat

/-- Writes an s register; s0 ignores writes. -/
def Core.setS (k : Core) (r : Nat) (v : Word64) : Core := if r = 0 then k else { k with sregs := tset 0#64 k.sregs r v }

def Core.v (k : Core) (r : BitVec 5) : BitVec 2048 := tget 0#2048 k.vregs r.toNat
def Core.setV (k : Core) (r : Nat) (v : BitVec 2048) : Core := { k with vregs := tset 0#2048 k.vregs r v }

/-- Mask registers; m0 reads all ones. -/
def Core.m (k : Core) (r : BitVec 3) : BitVec 256 := if r = 0#3 then BitVec.allOnes 256 else tget 0#256 k.mregs r.toNat

/-- Writes a mask register; m0 ignores writes. -/
def Core.setM (k : Core) (r : Nat) (v : BitVec 256) : Core :=
  if r = 0 then k else { k with mregs := tset 0#256 k.mregs r v }

def LoopReg.zero : LoopReg := ⟨0#32, 0#48, 0#48⟩
def Core.lc (k : Core) (r : BitVec 2) : LoopReg := tget LoopReg.zero k.loops r.toNat
def Core.setLc (k : Core) (r : Nat) (v : LoopReg) : Core := { k with loops := tset LoopReg.zero k.loops r v }

def Tag.idle : Tag := ⟨false, 0, false⟩
def Core.tag (k : Core) (t : Nat) : Tag := tget Tag.idle k.tags t
def Core.setTag (k : Core) (t : Nat) (v : Tag) : Core := { k with tags := tset Tag.idle k.tags t v }

/-- Scratchpad bytes (R159). -/
def scrSize : Nat := 0xC0000
def Core.scrRead (k : Core) (a n : Nat) : List Byte := tgetAll 0#8 k.scr a n
def Core.scrWrite (k : Core) (a : Nat) (bs : List Byte) : Core := { k with scr := tsetAll 0#8 k.scr a bs }

/-! ### Scalar operations (R84, R85) -/

def sx32 (v : BitVec 32) : Word64 := v.signExtend 64

/-- Reads a floating operand from bits [31:0]. -/
def lowF (v : Word64) : Nat := v.toNat % 2 ^ 32

def boolW (b : Bool) : Word64 := if b then 1#64 else 0#64

/-- Signed quotient rounded toward zero: all ones for a zero divisor; the most negative value divided by −1 gives
itself (R83, R85). -/
def sDiv (a b : Word64) : Word64 := if b = 0#64 then BitVec.allOnes 64 else BitVec.ofInt 64 (a.toInt.tdiv b.toInt)

/-- Signed remainder with the sign of the dividend; the dividend for a zero divisor. -/
def sRem (a b : Word64) : Word64 := if b = 0#64 then a else BitVec.ofInt 64 (a.toInt.tmod b.toInt)

def uDiv (a b : Word64) : Word64 := if b = 0#64 then BitVec.allOnes 64 else BitVec.ofNat 64 (a.toNat / b.toNat)
def uRem (a b : Word64) : Word64 := if b = 0#64 then a else BitVec.ofNat 64 (a.toNat % b.toNat)

/-- A comparison of two FP32 values; a NaN gives 0. -/
def fCmp (a b : Word64) (p : Ordering → Bool) : Word64 :=
  match (decodeF fp32 (lowF a)).cmp (decodeF fp32 (lowF b)) with
  | some o => boolW (p o)
  | none => 0#64

/-- An FP32 result in RD[31:0], with RD[63:32] = 0. -/
def f32 (v : FVal) (free : Nat) : Word64 := BitVec.ofNat 64 (encodeF fp32 v free)

/-- The result of a format R operation. -/
def rResult (op : ROp) (a b c : Word64) (free : Nat) : Word64 :=
  let fa := decodeF fp32 (lowF a)
  let fb := decodeF fp32 (lowF b)
  let sh := b.toNat % 64
  match op with
  | .add => a + b
  | .sub => a - b
  | .mul => a * b
  | .mulh => BitVec.ofInt 64 (a.toInt * b.toInt / 2 ^ 64)
  | .mulhu => BitVec.ofNat 64 (a.toNat * b.toNat / 2 ^ 64)
  | .div => sDiv a b
  | .divu => uDiv a b
  | .rem => sRem a b
  | .remu => uRem a b
  | .and => a &&& b
  | .or => a ||| b
  | .xor => a ^^^ b
  | .sll => a <<< sh
  | .srl => a >>> sh
  | .sra => a.sshiftRight sh
  | .slt => boolW (a.slt b)
  | .sltu => boolW (a.ult b)
  | .min => if a.slt b then a else b
  | .max => if a.slt b then b else a
  | .minu => if a.ult b then a else b
  | .maxu => if a.ult b then b else a
  | .sel => if c ≠ 0#64 then a else b
  | .fadd => f32 (fa.add fb) free
  | .fsub => f32 (fa.sub fb) free
  | .fmul => f32 (fa.mul fb) free
  | .fdiv => BitVec.ofNat 64 (divF fp32 fa fb free)
  | .fsqrt => BitVec.ofNat 64 (sqrtF fp32 fa free)
  | .fmin => BitVec.ofNat 64 (minMaxF fp32 true (lowF a) (lowF b) free)
  | .fmax => BitVec.ofNat 64 (minMaxF fp32 false (lowF a) (lowF b) free)
  | .fma => f32 ((fa.mul fb).add (decodeF fp32 (lowF c))) free
  | .fcvtIF => BitVec.ofInt 64 (toIntSat 64 false fa)
  | .fcvtFI => f32 (ofIntF a.toInt) free
  | .feq => fCmp a b fun o => o == .eq
  | .flt => fCmp a b fun o => o == .lt
  | .fle => fCmp a b fun o => o != .gt

/-- The result of a format I operation. -/
def iResult (op : IOp) (a : Word64) (imm : BitVec 32) : Word64 :=
  let b := sx32 imm
  let sh := imm.toNat % 64
  match op with
  | .addi => a + b
  | .andi => a &&& b
  | .ori => a ||| b
  | .xori => a ^^^ b
  | .slli => a <<< sh
  | .srli => a >>> sh
  | .srai => a.sshiftRight sh
  | .slti => boolW (a.slt b)

/-- A loaded value: zero- or sign-extended (R84). -/
def extendLoad (size : BitVec 2) (sx : Bool) (bs : List Byte) : Word64 :=
  let n := 2 ^ size.toNat
  let v := ofLe (bs.take n)
  if sx then BitVec.ofInt 64 (sext (8 * n) v) else BitVec.ofNat 64 v

/-- A comparison of a branch (R86). -/
def bHolds (c : BCond) (a b : Word64) : Bool :=
  match c with
  | .eq => decide (a = b)
  | .ne => decide (a ≠ b)
  | .lt => a.slt b
  | .ge => !a.slt b
  | .ltu => a.ult b
  | .geu => !a.ult b

/-- An address with bits [5:0] taken as 0. -/
def bundleAddr (v : Word64) : BitVec 48 := BitVec.ofNat 48 (v.toNat % 2 ^ 48 / 64 * 64)

/-! ### Vector lanes (R76, R87, R88) -/

/-- Bits of a lane by TYPE. -/
def laneBits : Nat → Nat
  | 1 => 16 | 3 => 8 | _ => 32

def laneCount (ty : Nat) : Nat := 2048 / laneBits ty

/-- Lane `i` as a number. -/
def lane (v : BitVec 2048) (ty i : Nat) : Nat := v.toNat / 2 ^ (laneBits ty * i) % 2 ^ laneBits ty

/-- The vector with the lanes of `f`. -/
def ofLanes (ty : Nat) (f : Nat → Nat) : BitVec 2048 :=
  BitVec.ofNat 2048 ((List.range (laneCount ty)).foldl
    (fun acc i => acc + f i % 2 ^ laneBits ty * 2 ^ (laneBits ty * i)) 0)

/-- Whether a mask enables lane `i`: bit 4i of a 32-bit type, 2i of BF16, i of INT8. -/
def laneOn (m : BitVec 256) (ty i : Nat) : Bool := m.getLsbD (i * (laneBits ty / 8))

def isFloatTy (ty : Nat) : Bool := decide (ty ≤ 1)
def fmtOf (ty : Nat) : FFmt := if ty = 1 then bf16 else fp32

/-- An integer result: wrapped, or clamped where SAT is 1. -/
def intOut (w : Nat) (sat : Bool) (v : Int) : Nat := twos w (if sat then clampS w v else v)

/-- An integer result whose overflow without SAT the spec does not state (log entry 15). -/
def intOutOpen (w : Nat) (sat : Bool) (v : Int) (free : Nat) : Nat :=
  if clampS w v = v ∨ sat = true then twos w (clampS w v) else free % 2 ^ w

/-- A lane of a two- or three-source operation. -/
def laneAlu (code : VCode) (ty : Nat) (sat : Bool) (a b c free : Nat) : Nat :=
  let w := laneBits ty
  let f := fmtOf ty
  let fa := decodeF f a
  let fb := decodeF f b
  let ia := sext w a
  let ib := sext w b
  if isFloatTy ty then
    match code with
    | .vadd => encodeF f (fa.add fb) free
    | .vsub => encodeF f (fa.sub fb) free
    | .vmul => encodeF f (fa.mul fb) free
    | .vfma => encodeF f ((fa.mul fb).add (decodeF f c)) free
    | .vmin => minMaxF f true a b free
    | .vmax => minMaxF f false a b free
    | .vabs => a % 2 ^ (w - 1)
    | .vneg => a ^^^ 2 ^ (w - 1)
    | .vexp => vexp a free
    | .vrcp => vrcp a free
    | .vrsqrt => vrsqrt a free
    | _ => a
  else
    match code with
    | .vadd => intOut w sat (ia + ib)
    | .vsub => intOut w sat (ia - ib)
    | .vmul => intOut w sat (ia * ib)
    | .vfma => intOutOpen w sat (ia * ib + sext w c) free
    | .vmin => if ia ≤ ib then a else b
    | .vmax => if ia ≤ ib then b else a
    | .vabs => intOutOpen w sat (ia.natAbs : Int) free
    | .vneg => intOutOpen w sat (-ia) free
    | .vand => a &&& b
    | .vor => a ||| b
    | .vxor => a ^^^ b
    | .vshl => a * 2 ^ (b % w) % 2 ^ w
    | .vsra => twos w (ia / (2 ^ (b % w) : Nat))
    | .vsrl => a / 2 ^ (b % w)
    | _ => a

/-- A comparison of two lanes. -/
def laneCmp (code : VCode) (ty a b : Nat) : Bool :=
  let o := if isFloatTy ty then (decodeF (fmtOf ty) a).cmp (decodeF (fmtOf ty) b)
    else some (compare (sext (laneBits ty) a) (sext (laneBits ty) b))
  match o with
  | none => false
  | some o =>
    match code with
    | .vceq => o == .eq
    | .vclt => o == .lt
    | _ => o != .gt

/-- A conversion of one lane (R88). -/
def laneCvt (ty ty2 : Nat) (sat : Bool) (a free : Nat) : Nat :=
  if isFloatTy ty then
    let v := decodeF (fmtOf ty) a
    if isFloatTy ty2 then encodeF (fmtOf ty2) v free else twos (laneBits ty2) (toIntSat (laneBits ty2) true v)
  else
    let v := sext (laneBits ty) a
    if isFloatTy ty2 then encodeF (fmtOf ty2) (ofIntF v) free else intOut (laneBits ty2) sat v

/-- One level of a reduction tree: lanes 2i and 2i + 1; a disabled lane is left out. -/
def treeLevel (f : Nat → Nat → Nat) : List (Option Nat) → List (Option Nat)
  | a :: b :: t =>
    (match a, b with
     | some x, some y => some (f x y)
     | some x, none => some x
     | none, y => y) :: treeLevel f t
  | l => l

/-- The fixed binary tree of R88 over at most 2^8 lanes. -/
def treeFold (f : Nat → Nat → Nat) (l : List (Option Nat)) : Option Nat :=
  ((List.range 8).foldl (fun l _ => treeLevel f l) l).head?.join

/-- A lane widened to FP32. -/
def widenF (ty a : Nat) : Nat := if ty = 1 then a * 65536 else a

/-- The result of a reduction, as the 64 bits of an s register; a maximum or minimum of no lanes is not stated
(log entry 16). -/
def vReduce (code : VCode) (ty : Nat) (a : BitVec 2048) (m : BitVec 256) (free : Nat → Nat) : Word64 :=
  let n := laneCount ty
  let on := fun i => laneOn m ty i
  if isFloatTy ty then
    let ls := (List.range n).map fun i => if on i then some (widenF ty (lane a ty i)) else none
    let f : Nat → Nat → Nat := fun x y =>
      match code with
      | .vrsum => encodeF fp32 ((decodeF fp32 x).add (decodeF fp32 y)) (free 0)
      | .vrmax => minMaxF fp32 false x y (free 0)
      | _ => minMaxF fp32 true x y (free 0)
    match treeFold f ls with
    | some v => BitVec.ofNat 64 v
    | none => if code = .vrsum then 0#64 else BitVec.ofNat 64 (free 1 % 2 ^ 32)
  else
    let ls := ((List.range n).filter on).map fun i => sext (laneBits ty) (lane a ty i)
    match code, ls with
    | .vrsum, _ => BitVec.ofInt 64 (ls.foldl (· + ·) 0)
    | .vrmax, x :: t => BitVec.ofInt 64 (t.foldl max x)
    | _, x :: t => BitVec.ofInt 64 (t.foldl min x)
    | _, [] => BitVec.ofNat 64 (free 1)

/-- Merges lanes by the mask: a disabled lane is 0 under MZ, and otherwise keeps the destination's value (R87). -/
def maskLanes (ty : Nat) (m : BitVec 256) (mz : Bool) (old : BitVec 2048) (f : Nat → Nat) : BitVec 2048 :=
  ofLanes ty fun i => if laneOn m ty i then f i else if mz then 0 else lane old ty i

/-- The vector result of an operation that writes a vector register. -/
def vResult (code : VCode) (f : VFields) (a b c old : BitVec 2048) (m : BitVec 256) (sa : Word64) (mem : List Byte)
    (free : Nat → Nat) : BitVec 2048 :=
  let ty := f.ty.toNat
  match code with
  | .vcvt =>
    let ty2 := f.ty2.toNat
    maskLanes ty2 m f.mz old fun i =>
      if i < laneCount ty then laneCvt ty ty2 f.sat (lane a ty i) (free i) else free i
  | .vperm => maskLanes ty m f.mz old fun i => lane a ty (lane b ty i % laneCount ty)
  | .vbcast => maskLanes ty m f.mz old fun _ => sa.toNat
  | .vsel => ofLanes ty fun i => if laneOn m ty i then lane a ty i else lane b ty i
  | .vmov => maskLanes ty m f.mz old fun i => lane a ty i
  | .vld => let v : BitVec 2048 := BitVec.ofNat 2048 (ofLe mem); maskLanes ty m f.mz old fun i => lane v ty i
  | code => maskLanes ty m f.mz old fun i => laneAlu code ty f.sat (lane a ty i) (lane b ty i) (lane c ty i) (free i)

/-- The mask a compare writes: the bit of every enabled lane, and of a disabled one 0 under MZ; every other bit keeps
its value (log entry 17). -/
def cmpMask (code : VCode) (f : VFields) (a b : BitVec 2048) (old m : BitVec 256) : BitVec 256 :=
  let ty := f.ty.toNat
  let step := laneBits ty / 8
  BitVec.ofNat 256 ((List.range 256).foldl (fun acc j =>
    let v := if j % step ≠ 0 then old.getLsbD j
      else if laneOn m ty (j / step) then laneCmp code ty (lane a ty (j / step)) (lane b ty (j / step))
      else !f.mz && old.getLsbD j
    acc + b2n v * 2 ^ j) 0)

/-- The result of an operation on whole masks. -/
def maskOp (code : VCode) (a b : BitVec 256) : BitVec 256 :=
  match code with
  | .mand => a &&& b
  | .mor => a ||| b
  | .mxor => a ^^^ b
  | _ => ~~~a

end Sys2Proof.Machine
end

