-- ==== Sys2Proof/Machine/Mem.lean ====
section
/-! DEFINITION. Machine/Mem.lean: T1 and T2 by physical address, their allocation, and the page tables
(R177-R183, R207-R217, R251; 07_memory_tiers_and_sluice.md, 08_translation_and_sequence_ranges.md). -/
namespace Sys2Proof.Machine

/-! ### Bytes -/

/-- Bytes of HBM (768 GiB). -/
def hbmSize : Nat := 768 * 2 ^ 30

/-- Reads `n` bytes of HBM; a byte nothing has written reads 0 after the zero-fill of R61. -/
def State.hbmRead (s : State) (a n : Nat) : List Byte := tgetAll 0 s.hbm a n

def State.hbmWrite (s : State) (a : Nat) (bs : List Byte) : State := { s with hbm := tsetAll 0 s.hbm a bs }

/-- Reads a little-endian 64-bit word of HBM. -/
def State.hbm64 (s : State) (a : Nat) : Nat := ofLe (s.hbmRead a 8)

/-- The address of a byte of a subpage in `State.basin` or `State.hbm`. -/
def physAddr (loc off : Nat) : Nat := loc * 65536 + off % 65536

/-- Reads bytes of a subpage in tier 0 or 1. A Basin location is 512 d + subpage, so it is linear in
`State.basin`. -/
def State.physRead (s : State) (tier loc off n : Nat) : List Byte :=
  if tier = 0 then tgetAll 0 s.basin (physAddr loc off) n else tgetAll 0 s.hbm (physAddr loc off) n

def State.physWrite (s : State) (tier loc off : Nat) (bs : List Byte) : State :=
  if tier = 0 then { s with basin := tsetAll 0 s.basin (physAddr loc off) bs }
  else { s with hbm := tsetAll 0 s.hbm (physAddr loc off) bs }

/-- Zeroes a subpage (R65, R175). -/
def State.physZero (s : State) (tier loc : Nat) : State :=
  if tier = 0 then { s with basin := tclear s.basin (loc * 65536) 65536 }
  else { s with hbm := tclear s.hbm (loc * 65536) 65536 }

/-! ### Allocation -/

/-- The first number at or after `k`, below `n`, that `used` does not list; `used` is a canonical table. -/
def nextFree {α : Type} (n : Nat) : Nat → Table α → Option Nat
  | k, [] => if k < n then some k else none
  | k, (j, _) :: t => if j < k then nextFree n k t else if j = k then nextFree n (k + 1) t
    else if k < n then some k else none

/-- A subpage that is not in use, at or after a freely drawn place and wrapping: the spec does not say which free
subpage the module takes (log entry 8). -/
def pickFree {α : Type} (n draw : Nat) (used : Table α) : Option Nat :=
  match nextFree n (draw % n) used with
  | some k => some k
  | none => nextFree n 0 used

/-- HBM subpage `n` lies in the tables that firmware reserves: 24 MiB of reference counts and 64 MiB of message
records, 1,408 subpages (R251, R389). -/
def State.hbmReserved (s : State) (n : Nat) : Bool :=
  match s.power.fwBase with
  | some b => decide (b ≤ n ∧ n < b + 1408)
  | none => false

/-- Whether HBM subpage `n` can be granted: it lies in a stack that serves (R71) and outside firmware's tables. -/
def State.hbmServes (s : State) (n : Nat) : Bool :=
  decide (n < 12582912) && !bit s.power.hbmExcluded (n / 393216) && !s.hbmReserved n

/-- Tries subpages of HBM from the drawn place on, passing over excluded stacks. -/
def State.hbmPick (s : State) (draw : Nat) : Option Nat :=
  let tries := (List.range 34).filterMap fun i =>
    pickFree 12582912 (if i = 0 then draw else if i = 33 then s.power.fwBase.getD 0 + 1408
      else ((draw % 12582912) / 393216 + i) % 32 * 393216) s.hbmUse
  tries.find? s.hbmServes

/-- Basin subpages retired under R173 are never granted. -/
def State.basinRetired (s : State) (loc : Nat) : Bool :=
  bit (s.fld R.BASIN_RETIRED.SUBPAGE (loc / 512) (loc % 512 / 32)) (loc % 32)

/-- A free Basin subpage of a die; none in a slice whose clear has failed (R175). -/
def State.basinPick (s : State) (die draw : Nat) : Option Nat :=
  if bit s.basinBad die then none
  else (((List.range 512).map fun i => 512 * die + (draw + i) % 512).find? fun loc =>
    decide ((tget Use.none s.basinUse loc).kind = 0) && !s.basinRetired loc)

/-- Usage of a tier by a context (R196). -/
def State.usage (s : State) (c tier : Nat) : Nat := s.fld R.SLUICE_USAGE.USED c tier

/-- Whether a context may hold `n` more subpages in a tier (R196). -/
def State.quotaRoom (s : State) (c tier n : Nat) : Bool :=
  decide (s.usage c tier + n ≤ s.fld R.SLUICE_QUOTA.LIMIT c tier)

def State.useAdd (s : State) (c tier n : Nat) : State := s.setFld R.SLUICE_USAGE.USED c tier (s.usage c tier + n)
def State.useSub (s : State) (c tier n : Nat) : State := s.setFld R.SLUICE_USAGE.USED c tier (s.usage c tier - n)

/-- Takes a free subpage in T1 (on a die) or T2 for a context; none where nothing is free. It reads as zeros. -/
def State.take (s : State) (c tier kind die : Nat) : Option (Nat × State) :=
  let draw := s.freeNat 32
  let s := draw.2
  if tier = 0 then
    (s.basinPick die draw.1).map fun loc =>
      (loc, { s with basinUse := tset Use.none s.basinUse loc ⟨kind, c⟩ }.useAdd c 0 1)
  else
    (s.hbmPick draw.1).map fun n => (n, { s with hbmUse := tset Use.none s.hbmUse n ⟨kind, c⟩ }.useAdd c 1 1)

/-- Frees a subpage of T1 or T2, zeroed (R65, R175, R185). -/
def State.drop (s : State) (c tier loc : Nat) : State :=
  if tier = 0 then ({ s with basinUse := tset Use.none s.basinUse loc Use.none } : State).physZero 0 loc |>.useSub c 0 1
  else if tier = 1 then
    ({ s with hbmUse := tset Use.none s.hbmUse loc Use.none } : State).physZero 1 loc |>.useSub c 1 1
  else s.useSub c tier 1

/-! ### Context and core state -/

def State.ctx (s : State) (c : Nat) : Ctx := tget Ctx.reset s.ctxs c
def State.setCtx (s : State) (c : Nat) (x : Ctx) : State := { s with ctxs := tset Ctx.reset s.ctxs c x }
def State.modCtx (s : State) (c : Nat) (f : Ctx → Ctx) : State := s.setCtx c (f (s.ctx c))
def State.core (s : State) (n : Nat) : Core := tget Core.reset s.cores n
def State.setCore (s : State) (n : Nat) (x : Core) : State := { s with cores := tset Core.reset s.cores n x }
def State.modCore (s : State) (n : Nat) (f : Core → Core) : State := s.setCore n (f (s.core n))

/-! ### Accounting -/

/-- Adds to a counter that keeps its remainder below one unit (R421): whole units, and what remains. -/
def unitsOf (rem n unit : Nat) : Nat × Nat := ((rem + n) / unit, (rem + n) % unit)

/-- HBM bytes read or written for a context (R421). -/
def State.hbmBytes (s : State) (c n : Nat) : State :=
  let u := unitsOf (s.ctx c).remHbm n 4096
  (s.modCtx c fun x => { x with remHbm := u.2 }).bump R.CTX_ACCT_HBM.COUNT c u.1

/-- Packet bytes injected for a context (R421). -/
def State.fabricBytes (s : State) (c n : Nat) : State :=
  let u := unitsOf (s.ctx c).remFabric n 4096
  (s.modCtx c fun x => { x with remFabric := u.2 }).bump R.CTX_ACCT_FABRIC.COUNT c u.1

/-! ### Page tables (R207-R211) -/

/-- Index of an address at table level 0, 1, 2 or 3. -/
def tableIndex (va : Nat) : Nat → Nat
  | 0 => va / 2 ^ 39 % 512
  | 1 => va / 2 ^ 30 % 512
  | 2 => va / 2 ^ 21 % 512
  | _ => va / 2 ^ 16 % 32

/-- An L0, L1 or L2 entry points to a table: V is 1 and no reserved bit is set (R208, R210). -/
def dirEntryOk (level e : Nat) : Bool :=
  bit e 0 && decide (field e 1 7 = 0) && decide (field e 40 24 = 0) &&
    (decide (level = 2) || decide (field e 8 4 = 0))

/-- A leaf entry is allocated: V is 1 and it holds no reserved bit (R209, R210). -/
def leafOk (e : Nat) : Bool :=
  bit e 0 && decide (field e 6 10 = 0) && decide (field e 60 4 = 0) &&
    (match field e 4 2 with
     | 0 => decide (field e 16 44 < 4096)
     | 1 => decide (field e 16 44 < 12582912)
     | 2 => decide (field e 16 44 < 2 ^ 36)
     | _ => true)

def leafTier (e : Nat) : Nat := field e 4 2
def leafLoc (e : Nat) : Nat := field e 16 44

/-- A leaf entry: permissions READ, WRITE, EXEC in the low bits of `perm`. -/
def mkLeaf (perm tier loc : Nat) : Nat := 1 + 2 * (perm % 8) + 16 * tier + 2 ^ 16 * loc

/-- HBM address of a context's root table. -/
def State.root (s : State) (c : Nat) : Nat := s.addr R.XLAT_ROOT.ADDR c

/-- HBM address of the entry for `va` at a level, walking from the root; the level at which the walk ends early
with a reserved encoding is given by the second component. -/
def State.entryAddr (s : State) (c va : Nat) : Option Nat × Option Nat :=
  let a0 := s.root c + 8 * tableIndex va 0
  let e0 := s.hbm64 a0
  if !dirEntryOk 0 e0 then (none, if bit e0 0 then some a0 else none)
  else
    let a1 := field e0 8 32 * 256 + 8 * tableIndex va 1
    let e1 := s.hbm64 a1
    if !dirEntryOk 1 e1 then (none, if bit e1 0 then some a1 else none)
    else
      let a2 := field e1 8 32 * 256 + 8 * tableIndex va 2
      let e2 := s.hbm64 a2
      if !dirEntryOk 2 e2 then (none, if bit e2 0 then some a2 else none)
      else
        let a3 := field e2 8 32 * 256 + 8 * tableIndex va 3
        let e3 := s.hbm64 a3
        (some a3, if bit e3 0 && !leafOk e3 then some a3 else none)

/-- The leaf entry of a subpage as the table holds it; 0 where it is not allocated or malformed (R210). -/
def State.leaf (s : State) (c sub : Nat) : Nat :=
  match s.entryAddr c (sub * 65536) with
  | (some a, _) => if leafOk (s.hbm64 a) then s.hbm64 a else 0
  | (none, _) => 0

/-- Unused place for a table of a kind (1 a 4 KiB table, 2 a leaf table) in the context's table memory. -/
def tablePlace (tables : Table Nat) (kind : Nat) (subs : List Nat) : Option Nat :=
  let size := if kind = 1 then 4096 else 256
  (subs.flatMap fun n => (List.range (65536 / size)).map fun i => n * 65536 + i * size).find? fun a =>
    decide (tget 0 tables a = 0)

/-- Allocates a zeroed page table (R221): in table memory the context holds already, or in a new subpage of T2
(log entry 9). -/
def State.newTable (s : State) (c kind : Nat) : Option (Nat × State) :=
  let subs := s.hbmUse.filterMap fun e => if e.2 = ⟨kind, c⟩ then some e.1 else none
  match tablePlace (s.ctx c).tables kind subs with
  | some a => some (a, s.modCtx c fun x => { x with tables := tset 0 x.tables a kind })
  | none =>
    (s.take c 1 kind 0).map fun p => (p.1 * 65536, p.2.modCtx c fun x => { x with tables := tset 0 x.tables (p.1 * 65536) kind })

/-- The next table below an entry, made where there is none. -/
def State.descend (s : State) (c a level : Nat) : Option (Nat × State) :=
  let e := s.hbm64 a
  if dirEntryOk level e then some (field e 8 32 * 256, s)
  else
    (s.newTable c (if level = 2 then 2 else 1)).map fun p =>
      (p.1, p.2.hbmWrite a (leBytes (1 + p.1) 8))

/-- The address of a subpage's leaf entry, with the tables above it made as needed. -/
def State.makePath (s : State) (c va : Nat) : Option (Nat × State) :=
  match s.descend c (s.root c + 8 * tableIndex va 0) 0 with
  | none => none
  | some (t1, s) =>
    match s.descend c (t1 + 8 * tableIndex va 1) 1 with
    | none => none
    | some (t2, s) =>
      match s.descend c (t2 + 8 * tableIndex va 2) 2 with
      | none => none
      | some (t3, s) => some (t3 + 8 * tableIndex va 3, s)

/-- Whether a table of `n` entries holds a valid one. -/
def State.tableUsed (s : State) (a n : Nat) : Bool := (List.range n).any fun i => bit (s.hbm64 (a + 8 * i)) 0

/-- Releases the table that an entry names if nothing below it is valid (R221). -/
def State.pruneAt (s : State) (c a n : Nat) : State :=
  let e := s.hbm64 a
  let t := field e 8 32 * 256
  if bit e 0 && !s.tableUsed t n then
    let s := s.hbmWrite a (leBytes 0 8)
    let s := s.modCtx c fun x => { x with tables := tset 0 x.tables t 0 }
    let sub := t / 65536
    if (s.ctx c).tables.any fun p => decide (p.1 / 65536 = sub) then s else s.drop c 1 sub
  else s

/-- Releases the tables above a subpage that hold no valid entry any more. -/
def State.prune (s : State) (c va : Nat) : State :=
  let a0 := s.root c + 8 * tableIndex va 0
  let a1 := field (s.hbm64 a0) 8 32 * 256 + 8 * tableIndex va 1
  let a2 := field (s.hbm64 a1) 8 32 * 256 + 8 * tableIndex va 2
  ((s.pruneAt c a2 32).pruneAt c a1 512).pruneAt c a0 512

/-- Writes the leaf entry of a subpage, as one 64-bit write (R215); false where no table could be had. -/
def State.setLeaf (s : State) (c sub e : Nat) : Bool × State :=
  if e = 0 then
    match s.entryAddr c (sub * 65536) with
    | (some a, _) => (true, (s.hbmWrite a (leBytes 0 8)).prune c (sub * 65536))
    | (none, _) => (true, s)
  else
    match s.makePath c (sub * 65536) with
    | some (a, s) => (true, s.hbmWrite a (leBytes e 8))
    | none => (false, s)

/-! ### TLBs (R212-R215) -/

/-- Key of a 2 MiB page in `State.dieTlb`. -/
def tlbKey (die c page : Nat) : Nat := (16 * die + c) * 2 ^ 27 + page

/-- The 32 leaves of a 2 MiB page as the table holds them. -/
def State.leafTable (s : State) (c page : Nat) : List Nat := (List.range 32).map fun i => s.leaf c (32 * page + i)

/-- Drops a 2 MiB page of a context from every die TLB and core TLB, and marks the walks it meets (R215, R225). -/
def State.invalidate (s : State) (c page : Nat) : State :=
  { s with
    dieTlb := s.dieTlb.filter fun e => !(List.range 8).any fun d => decide (e.1 = tlbKey d c page)
    walks := s.walks.map fun w => if w.ctx = c ∧ w.page = page then { w with stale := true } else w
    cores := s.cores.map fun e => (e.1, { e.2 with
      itlb := e.2.itlb.filter fun t => !(decide (t.ctx = c) && decide (t.leaf / 32 = page))
      dtlb := e.2.dtlb.filter fun t => !(decide (t.ctx = c) && decide (t.leaf / 32 = page)) }) }

/-- Drops every translation of a context (R225, R229). -/
def State.invalidateAll (s : State) (c : Nat) : State :=
  { s with
    dieTlb := s.dieTlb.filter fun e => decide (e.1 / 2 ^ 27 % 16 ≠ c)
    walks := s.walks.map fun w => if w.ctx = c then { w with stale := true } else w
    cores := s.cores.map fun e => (e.1, { e.2 with
      itlb := e.2.itlb.filter fun t => decide (t.ctx ≠ c)
      dtlb := e.2.dtlb.filter fun t => decide (t.ctx ≠ c) }) }

/-- Adds a leaf table to a die TLB of 4,096 entries; a full TLB loses an entry the spec does not name (log entry
10). -/
def State.dieInstall (s : State) (die c page : Nat) (leaves : List Nat) : State :=
  let mine := s.dieTlb.filter fun e => decide (e.1 / 2 ^ 31 = die)
  if mine.length < 4096 then { s with dieTlb := tset [] s.dieTlb (tlbKey die c page) leaves }
  else
    let draw := s.freeNat 12
    let victim := (mine[draw.1]?.map Prod.fst).getD 0
    { draw.2 with dieTlb := tset [] (s.dieTlb.filter fun e => decide (e.1 ≠ victim)) (tlbKey die c page) leaves }

/-- What an access needs of a leaf: 1 READ, 2 WRITE, 3 EXEC. -/
def leafGrants (e need : Nat) : Bool := bit e need

/-- A failed translation is counted and its address recorded (R216). -/
def State.xlatFail (s : State) (c va : Nat) : State :=
  (s.bump R.XLAT_FAULTS.COUNT c).errAddr .xlat c va

/-- Whether an address lies in the context's range (R216). -/
def State.vaInRange (s : State) (c va : Nat) : Bool :=
  decide (s.addr R.XLAT_VA_LO.ADDR c ≤ va) && decide (va < s.addr R.XLAT_VA_HI.ADDR c)

/-- An engine's translation on a die, through the die TLB and, on a miss, a walk that installs the leaf table: the
leaf entry, or 0 where the translation fails (R212, R213, R216). -/
def State.translate (s : State) (die c va need : Nat) : Nat × State :=
  let page := va / 2 ^ 21
  let hit := tget [] s.dieTlb (tlbKey die c page)
  let p : List Nat × State :=
    if hit ≠ [] then (hit, s)
    else
      let leaves := s.leafTable c page
      let s := (s.bump R.XLAT_TLB_MISSES.COUNT c).hbmBytes c 8
      let s := match (s.entryAddr c va).2 with
        | some a => s.errAddr .xlat c a
        | none => s
      (leaves, if leaves.any (fun e => e != 0) then s.dieInstall die c page leaves else s)
  let e := p.1[va / 65536 % 32]?.getD 0
  if s.vaInRange c va && leafOk e && leafGrants e need then (e, p.2) else (0, p.2.xlatFail c va)

/-- What a read of the unified range gives. -/
inductive Got where
  | bytes (bs : List Byte)
  | xlat              -- the translation fails
  | far               -- it reaches T3
  deriving DecidableEq, Repr

/-- Splits a range at subpage boundaries: address and length of each piece. -/
def pieces (va : Nat) : Nat → Nat → List (Nat × Nat)
  | 0, _ => []
  | fuel + 1, n =>
    if n = 0 then []
    else
      let k := min n (65536 - va % 65536)
      (va, k) :: pieces (va + k) fuel (n - k)

/-- Reads a range of the unified range from T1 and T2 for an engine on a die; `far` where any part of it lies in T3.
HBM bytes are counted (R421). -/
def State.uread (s : State) (die c va n : Nat) : Got × State :=
  (pieces va (n / 65536 + 2) n).foldl
    (fun (acc : Got × State) p =>
      match acc.1 with
      | .bytes bs =>
        let t := acc.2.translate die c p.1 1
        if t.1 = 0 then (.xlat, t.2)
        else if 2 ≤ leafTier t.1 then (.far, t.2)
        else
          (.bytes (bs ++ t.2.physRead (leafTier t.1) (leafLoc t.1) p.1 p.2),
            if leafTier t.1 = 1 then t.2.hbmBytes c p.2 else t.2)
      | _ => acc)
    (.bytes [], s)

def Ctx.copy (x : Ctx) (sub : Nat) : Copy := tget Copy.none x.copies sub
def Ctx.setCopy (x : Ctx) (sub : Nat) (k : Copy) : Ctx := { x with copies := tset Copy.none x.copies sub k }
def Ctx.move (x : Ctx) (sub : Nat) : Copy := tget Copy.none x.moves sub
def Ctx.setMove (x : Ctx) (sub : Nat) (k : Copy) : Ctx := { x with moves := tset Copy.none x.moves sub k }

/-- A write to a subpage: the copy it reaches becomes dirty, and a fill or a write-back it overlaps is stale
(R182, R187). -/
def Ctx.noteWrite (x : Ctx) (sub : Nat) : Ctx :=
  let k := x.copy sub
  let x := if k = Copy.none then x
    else x.setCopy sub { k with written := true, dirty := k.dirty || decide (2 ≤ k.state ∧ k.state ≠ 5) }
  let m := x.move sub
  if m = Copy.none then x else x.setMove sub { m with written := true }

/-- Writes to T3 at a leaf's location: pooled memory through the host port, peer memory on its node (R181, R209). -/
def State.farWrite (s : State) (tier loc off : Nat) (bs : List Byte) : State :=
  if tier = 2 then
    if s.on R.WHARF_LINK.UIO then s.emit (.uioWrite (loc * 65536 + off) bs) else s
  else s.emit (.peerWrite (field loc 24 12) (field loc 36 8) (field loc 0 24 * 65536 + off) bs)

/-- Asks T3 for bytes at a leaf's location; the answer comes with the command that completes the access. -/
def State.farAsk (s : State) (c tier loc off n : Nat) : State :=
  if tier = 2 then
    if s.on R.WHARF_LINK.UIO then s.emit (.hostRead c (loc * 65536 + off) n) else s
  else s.emit (.peerRead (field loc 24 12) (field loc 36 8) (field loc 0 24 * 65536 + off) n)

/-- Writes bytes of the unified range, in every tier, for an engine on a die; the
first failing piece stops it. -/
def State.uwrite (s : State) (die c va : Nat) (bs : List Byte) : Got × State :=
  (pieces va (bs.length / 65536 + 2) bs.length).foldl
    (fun (acc : Got × State) p =>
      match acc.1 with
      | .bytes _ =>
        let t := acc.2.translate die c p.1 2
        if t.1 = 0 then (.xlat, t.2)
        else if 2 ≤ leafTier t.1 then
          (.bytes [], (t.2.modCtx c fun x => x.noteWrite (p.1 / 65536)).farWrite (leafTier t.1) (leafLoc t.1)
            (p.1 % 65536) ((bs.drop (p.1 - va)).take p.2))
        else
          let s := t.2.physWrite (leafTier t.1) (leafLoc t.1) p.1 ((bs.drop (p.1 - va)).take p.2)
          let s := s.modCtx c fun x => x.noteWrite (p.1 / 65536)
          (.bytes [], if leafTier t.1 = 1 then s.hbmBytes c p.2 else s)
      | _ => acc)
    (.bytes [], s)

/-- `n` freely drawn bytes, of draw `f`. -/
def freeBytes (f n : Nat) : List Byte := (List.range n).map fun i => BitVec.ofNat 8 (Config.free f i).toNat

/-- The bytes of an engine's read; freely drawn ones where it failed and the spec states no effect (log entry 40). -/
def orFree (r : Got × State) (n : Nat) : List Byte × State :=
  match r.1 with
  | .bytes bs => (bs, r.2)
  | _ => (freeBytes r.2.free n, { r.2 with free := r.2.free + 1 })

end Sys2Proof.Machine
end

