-- ==== Sys2Proof/Machine/DutyOps.lean ====
section
/-! DEFINITION. Machine/DutyOps.lean: posting and withdrawing duty requests (R423-R428,
16_contexts_shares_and_duty_modes.md). -/
namespace Sys2Proof.Machine

/-- A duty is host-assisted: `CTRL.DUTY_MODE` of its page (R423). -/
def State.hostAssisted (s : State) (p : Page) (i : Nat) : Bool := s.on (hdrDutyMode p) i

/-- Room in a context's request ring; none while the ring is not enabled (R424). -/
def State.dutyRoom (s : State) (c : Nat) : Nat :=
  if s.on R.DUTY_CTRL.RING_EN c then
    2 ^ s.fld R.DUTY_RING_SIZES.REQ c - (s.fld R.DUTY_REQ_TAIL.INDEX c + 2 ^ 32 - s.fld R.DUTY_REQ_HEAD.INDEX c) % 2 ^ 32
  else 0

/-- `DUTY_STATUS` follows the requests. -/
def State.dutySync (s : State) (c : Nat) : State :=
  let s := s.put R.DUTY_STATUS.OUTSTANDING c (s.ctx c).duties.length
  s.put R.DUTY_STATUS.RING_FULL c (b2n ((s.ctx c).duties.any fun r => !r.posted))

/-- A request entry (R425). -/
def dutyEntry (kind phase id ready : Nat) (payload : List Byte) : List Byte :=
  leBytes kind 1 ++ leBytes phase 1 ++ [0, 0] ++ leBytes id 4 ++ leBytes ready 8 ++ payload ++
    List.replicate (112 - payload.length) 0

/-- Posts the first request that waits for room (R424). -/
def State.dutyPost (s : State) (c : Nat) : State :=
  match (s.ctx c).duties.findIdx? (fun r => !r.posted) with
  | none => s
  | some k =>
    if s.dutyRoom c = 0 then s
    else
      let size := 2 ^ s.fld R.DUTY_RING_SIZES.REQ c
      let i := s.fld R.DUTY_REQ_TAIL.INDEX c
      match (s.ctx c).duties[k]? with
      | none => s
      | some r =>
        let s := s.emit (.hostWrite ⟨c, s.addr R.DUTY_REQ_BASE.ADDR c + i % size * 128,
          dutyEntry r.kind (i / size % 2) i r.ready r.payload⟩)
        let s := (s.put R.DUTY_REQ_TAIL.INDEX c (i + 1)).bump R.DUTY_POSTED.COUNT c
        let s := s.modCtx c fun x => { x with duties := x.duties.set k { r with posted := true, id := i } }
        (s.ringIrq c 3 false).dutySync c

/-- A duty has a request: it is posted, or it waits for room and is counted (R424). `note` says what waits for the
answer. -/
def State.dutyRequest (s : State) (c kind note : Nat) (payload : List Byte) : State :=
  let waits := (s.ctx c).duties.any fun r => !r.posted
  let s := s.modCtx c fun x => { x with duties := x.duties ++ [⟨kind, note, 0, s.tick, false, payload⟩] }
  let s := if s.dutyRoom c = 0 ∨ waits = true then s.bump R.DUTY_RING_FULL.COUNT c else s
  (if waits then s else s.dutyPost c).dutySync c

/-- Takes a request out. -/
def State.dutyTake (s : State) (c k : Nat) : State :=
  (s.modCtx c fun x => { x with duties := x.duties.eraseIdx k }).dutySync c

end Sys2Proof.Machine
end

