-- ==== Sys2Proof/Machine/Net.lean ====
section
/-! DEFINITION. Machine/Net.lean: the router's choice of a port and local injection (R348-R358,
13_optical_fabric_and_slices.md), and the issue of messages (R384-R390, 14_rack_memory_semantics.md). -/
namespace Sys2Proof.Machine

/-- CRC-32C, reflected, with initial value and final inversion of all ones (R265). -/
def crc32cByte (c b : Nat) : Nat :=
  (List.range 8).foldl (fun v _ => if v % 2 = 1 then (v / 2) ^^^ 0x82F63B78 else v / 2) (c ^^^ b)

def crc32c (bs : List Byte) : Nat := (bs.foldl (fun c b => crc32cByte c b.toNat) 0xFFFFFFFF) ^^^ 0xFFFFFFFF

/-- Raises an event unless it was raised with the same key within the last `ticks` TICKs. -/
def State.raiseOnce (s : State) (key ticks : Nat) (u : Raiser) (c : Option Nat) (code : Nat) (info : List Byte) :
    State :=
  let t := tget 0 s.told key
  if t ≠ 0 ∧ s.tick < t - 1 + ticks then s
  else ({ s with told := tset 0 s.told key (s.tick + 1) } : State).raise u c code info

/-- TICKs in a millisecond (R54). -/
def msTicks : Nat := 100000

/-- Keys of `State.told`: the event, and what it is limited by. -/
def toldKey (code i : Nat) : Nat := code * 2 ^ 24 + i

/-! ### Links and routes -/

def linkUp : Nat := 2

/-- State of link k (R337). -/
def State.linkState (s : State) (k : Nat) : Nat := s.fld R.LINK_STATE.STATE (k / 16) (k % 16)
def State.setLink (s : State) (k v : Nat) : State := s.setFld R.LINK_STATE.STATE (k / 16) (k % 16) v

/-- `ROUTE_PORTS_UP`: the links that are UP (R337). -/
def State.portsUp (s : State) : Nat := bitMap 32 fun k => decide (s.linkState k = linkUp)

def State.node (s : State) : Nat := s.fld R.LOCK_SELF.NODE
def State.slice (s : State) : Nat := s.fld R.LOCK_SELF.SLICE
def State.route (s : State) (n : Nat) : Route := tget Route.none s.fabric.routes n

/-- Ports a mask offers: those UP, and, where the mask reaches its destination through another slice's module, only
those whose neighbour has said yes (R353, R361). -/
def State.usable (s : State) (dst mask : Nat) (transit : Bool) : Nat :=
  bitMap 32 fun k => bit mask k && bit s.portsUp k && (!transit || s.fabric.granted.any fun g =>
    decide (g.link = k ∧ g.slice = s.slice) && g.ranges.any fun r => decide (r.1 ≤ dst ∧ dst ≤ r.2))

def State.linkLayer (s : State) (k : Nat) : LinkLayer := tget LinkLayer.reset s.fabric.links k
def State.setLinkLayer (s : State) (k : Nat) (l : LinkLayer) : State :=
  { s with fabric := { s.fabric with links := tset LinkLayer.reset s.fabric.links k l } }

/-- Credits a channel has free: its dedicated credits, and of the shared pool what is left of its 768 (R347). -/
def LinkLayer.free (l : LinkLayer) (vc : Nat) : Nat :=
  l.ded[vc]?.getD 0 + min l.shared (768 - l.pool[vc]?.getD 0)

/-- Credits a port has free for a channel (R347). -/
def State.credits (s : State) (k vc : Nat) : Nat := (s.linkLayer k).free vc

/-- Flits of a packet (R345, R349): 256 bytes of packet data each (log entry 12: each packet opens a flit). -/
def packetFlits (p : Packet) : Nat := (32 + p.payload.length + 255) / 256

/-- Spends `n` credits of a channel, dedicated ones first (R347). -/
def LinkLayer.spend (l : LinkLayer) (vc n : Nat) : LinkLayer :=
  let d := l.ded[vc]?.getD 0
  let fromDed := min d n
  { l with
    ded := l.ded.set vc (d - fromDed)
    shared := l.shared - (n - fromDed)
    pool := l.pool.set vc (l.pool[vc]?.getD 0 + (n - fromDed))
    txNext := (l.txNext + n) % 4096 }

/-- Gives a packet to a port: it starts while its channel has credits and nothing of that channel waits, and waits in
order otherwise (R347). -/
def State.sendPort (s : State) (k : Nat) (p : Packet) : State :=
  let l := s.linkLayer k
  if packetFlits p ≤ l.free p.vc ∧ ¬ l.waiting.any (fun q => decide (q.vc = p.vc)) then
    (s.setLinkLayer k (l.spend p.vc (packetFlits p))).emit (.port k p)
  else s.setLinkLayer k { l with waiting := l.waiting ++ [p] }

/-- Starts the waiting packets that the port's credits now allow, each channel in order. -/
def State.drainPort (s : State) (k : Nat) : State :=
  let q := (s.linkLayer k).waiting
  q.foldl (fun s p => s.sendPort k p) (s.setLinkLayer k { s.linkLayer k with waiting := [] })

/-- The port with the most free credits, the lower on a tie. -/
def State.freest (s : State) (ports : List Nat) (vc : Nat) : Nat :=
  match ports with
  | [] => 0
  | p :: ps => ps.foldl (fun best k => if s.credits best vc < s.credits k vc then k else best) p

/-- The bytes hashed for a port's choice: SRC, DST and the offset bits, packed in that order (log entry 11). -/
def portHash (p : Packet) (withOffset : Bool) : Nat :=
  let off := if withOffset then ofLe (p.head.take 5) / 64 else 0
  crc32c (leBytes (p.src + 2 ^ 12 * p.dst + 2 ^ 24 * off) 8)

/-- The port of a usable set that a packet takes (R353). -/
def State.choosePort (s : State) (p : Packet) (set : Nat) : Nat :=
  let ports := bitsSet set 32
  if p.vc < 4 then ports[portHash p true % ports.length]?.getD 0
  else if p.vc < 6 then s.freest ports p.vc
  else if p.vc = 6 then ports.head?.getD 0
  else ports[portHash p false % ports.length]?.getD 0

def routeUnit : Raiser := .page .route 0

/-- Sends a packet by the route entry of its destination: it leaves on a port, or is dropped as unreachable
(R353, R354). -/
def State.forward (s : State) (p : Packet) : State :=
  let e := s.route p.dst
  let pri := s.usable p.dst e.pri e.priTransit
  let alt := s.usable p.dst e.alt e.altTransit
  let set := if pri ≠ 0 then pri else alt
  if !e.v || decide (set = 0) then
    (s.bump R.ROUTE_UNREACHABLE.COUNT 0).raiseOnce (toldKey 0x2411 p.dst) msTicks routeUnit none 0x2411 (w4 [p.dst])
  else
    let s := if pri = 0 then s.bump R.ROUTE_ALT_USED.COUNT 0 else s
    let transit := if pri ≠ 0 then e.priTransit else e.altTransit
    let p := if transit && !p.hop && decide (p.vc ≠ 6) then { p with vc := 7 } else p
    s.sendPort (s.choosePort p set) p

/-- Injects a packet of this module, whose SRC and SLICE it writes; false where it is refused at the source (R349,
R354, R368). A packet for the module's own node does not enter the fabric. -/
def State.injectOwn (s : State) (p : Packet) : Bool × State :=
  let p := { p with src := s.node, slice := s.slice, hop := false }
  let e := s.route p.dst
  if !e.v || decide (e.slice ≠ s.slice ∨ s.slice = 0) then (false, s.bump R.ROUTE_REFUSED.COUNT 0)
  else if p.dst = s.node then (true, s.emit (.inject p))
  else (true, s.forward p)

/-- A packet injected for a context, which its fabric bytes are charged to (R421). -/
def State.inject (s : State) (c : Nat) (p : Packet) : Bool × State :=
  let r := s.injectOwn p
  if r.1 && decide (p.dst ≠ s.node) then (true, r.2.fabricBytes c (32 + p.payload.length)) else r

/-! ### Messages -/

def State.message (s : State) (id : Nat) : Message := tget Message.none s.rack.messages id
def State.setMessage (s : State) (id : Nat) (m : Message) : State :=
  { s with rack := { s.rack with messages := tset Message.none s.rack.messages id m } }

/-- Identifiers a context holds: `MSG_STATUS.INFLIGHT` (R387). -/
def State.inflight (s : State) (c : Nat) : Nat :=
  (s.rack.messages.filter fun e => e.2.busy && decide (e.2.ctx = c)).length

/-- Bytes 8-31 of a message packet (R388). -/
def msgHead (id gen inc index len key roff region : Nat) : List Byte :=
  leBytes id 2 ++ leBytes gen 1 ++ [0] ++ leBytes inc 2 ++ leBytes index 2 ++ leBytes len 4 ++ leBytes key 4 ++
    leBytes roff 5 ++ leBytes region 1 ++ [0, 0]

/-- Packet types of R375, by message operation 1 PUT, 2 GET, 3 SEND. -/
def msgType : Nat → Nat
  | 1 => 0x10 | 2 => 0x11 | _ => 0x13

/-- The packets of a message: up to 4,096 payload bytes each; a GET asks with one packet (R385). -/
def msgPackets (id inc : Nat) (m : Message) : List Packet :=
  let n := if m.op = 2 then 1 else max 1 ((m.len + 4095) / 4096)
  (List.range n).map fun i =>
    { dst := m.node, src := 0, slice := 0, vc := 4, hop := false, type := msgType m.op,
      head := msgHead id m.gen inc i m.len m.key m.roff m.region,
      payload := if m.op = 2 then [] else (m.data.drop (4096 * i)).take 4096 }

/-- Sends every packet of a message; false where its route refuses it. -/
def State.sendPackets (s : State) (id : Nat) (m : Message) : Bool × State :=
  (msgPackets id s.rack.msgInc m).foldl
    (fun acc p => let r := acc.2.inject m.ctx p; (acc.1 && r.1, r.2)) (true, s)

/-- Issues a message under the next free identifier, whose generation advances (R387); it waits where there is none,
and false says that its route refuses it. -/
def State.issueMsg (s : State) (m : Message) : Bool × State :=
  let ids := (List.range 4096).map fun i => (s.rack.msgPtr + i) % 4096
  match ids.find? (fun i => !(s.message i).busy) with
  | some id =>
    if s.inflight m.ctx < s.fld R.MSG_LIMIT.LIMIT m.ctx then
      let m := { m with gen := ((s.message id).gen + 1) % 256, busy := true, resends := 0 }
      let s := (s.setMessage id m)
      let s := { s with rack := { s.rack with msgPtr := (id + 1) % 4096 } }
      let r := s.sendPackets id m
      if r.1 then r else (false, s.setMessage id { m with busy := false })
    else (true, ({ s with rack := { s.rack with waiting := s.rack.waiting ++ [m] } } : State).bump R.MSG_ID_WAITS.COUNT m.ctx)
  | none => (true, ({ s with rack := { s.rack with waiting := s.rack.waiting ++ [m] } } : State).bump R.MSG_ID_WAITS.COUNT m.ctx)

/-- A SEND of one of the module's own units for a context: 1 Sluice, 2 Barge engine, 3 serving controller. `note` is
what the unit needs at completion. -/
def State.sendOwn (s : State) (c who node region note : Nat) (bytes : List Byte) : Bool × State :=
  s.issueMsg { Message.none with
    ctx := c, who := who, op := 3, node := node, region := region, data := bytes, len := bytes.length, note := note }

/-- Abandons a context's messages, those of the units `who` names (R390): status ABANDONED, their identifiers
free. Tags of abandoned `X_MSG` operations complete. -/
def State.abandonMsgs (s : State) (c : Nat) (who : Nat → Bool) : State :=
  let mine := s.rack.messages.filter fun e => e.2.busy && decide (e.2.ctx = c) && who e.2.who
  let s := mine.foldl (fun s e =>
    let s := s.setMessage e.1 { e.2 with busy := false }
    if e.2.who = 0 then
      let s := (s.bump R.MSG_FAILS.COUNT c).put R.MSG_LAST_FAIL.STATUS c 11
      let s := (s.put R.MSG_LAST_FAIL.NODE c e.2.node).put R.MSG_LAST_FAIL.REGION c e.2.region
      s.modCore e.2.core fun k => { k with
        scr := tsetAll 0 k.scr (e.2.desc * 64 + 32) (leBytes (11 + 2 ^ 31) 4)
        tags := tset ⟨false, 0, false⟩ k.tags e.2.tag ⟨false, 11, false⟩ }
    else s) s
  { s with rack := { s.rack with waiting := s.rack.waiting.filter fun m => !(decide (m.ctx = c) && who m.who) } }

/-! ### Step messages (R301) -/

/-- The 32-byte header of a step message. -/
def stepHeader (kind convoy step inst node count1 count2 : Nat) : List Byte :=
  leBytes kind 1 ++ [0] ++ leBytes convoy 2 ++ leBytes step 8 ++ leBytes inst 1 ++ [0, 0, 0] ++ leBytes node 2 ++
    leBytes count1 2 ++ leBytes count2 2 ++ List.replicate 10 0

/-- The instance a member runs; the helm's register may be ahead of it while a replay is under way. -/
def State.curInst (s : State) (c : Nat) : Nat :=
  if (s.ctx c).member.active then (s.ctx c).member.inst else s.fld R.STEP_STATUS.INSTANCE c

/-- Sends a step message of a context to a node. Its kind stands in the message's note. -/
def State.sendStep (s : State) (c kind node count1 count2 : Nat) (body : List Byte) : Bool × State :=
  s.sendOwn c 3 node 0 kind
    (stepHeader kind (s.fld R.BARGE_CFG.CONVOY c) (s.fld R.STEP_NUMBER.STEP c)
      (if kind = 1 ∨ kind = 3 then s.fld R.STEP_STATUS.INSTANCE c else s.curInst c) s.node count1 count2 ++ body)

def State.helmNode (s : State) (c : Nat) : Nat := s.fld R.STEP_NODES.HELM_NODE c

/-- The convoy's members (R285). -/
def State.members (s : State) (c : Nat) : List Nat :=
  (List.range (s.fld R.STEP_NODE_COUNT.COUNT c)).map fun i => s.fld R.STEP_NODES.NODE_LO c + i

end Sys2Proof.Machine
end

