-- ==== Sys2Proof/Machine/Contain.lean ====
section
/-! DEFINITION. Machine/Contain.lean: ending a request, fencing a core, ending a context and halting the module
(R41, R105-R111, R303, R506-R514; 03_suina_core.md, 21_faults_fencing_recovery.md). -/
namespace Sys2Proof.Machine

/-! ### Requests -/

def State.entry (s : State) (c slot : Nat) : Entry := tget Entry.none (s.ctx c).entries slot
def State.setEntry (s : State) (c slot : Nat) (e : Entry) : State :=
  s.modCtx c fun x => { x with entries := tset Entry.none x.entries slot { e with changed := true } }

/-- A request-end completion (R303, R407). -/
def endCqe (slot : Nat) (e : Entry) (code : Nat) : List Byte :=
  [2, BitVec.ofNat 8 code, 0, 0] ++ leBytes (slot + 2 ^ 10 * e.gen + 2 ^ 18 * e.tenant) 4 ++ leBytes e.tag 8 ++
    leBytes e.startLen 4 ++ leBytes e.curLen 4 ++ leBytes e.genLen 4 ++ leBytes e.late 4 ++
    leBytes e.first 8 ++ leBytes e.last 8 ++ List.replicate 16 0

/-- Writes a completion, or drops it where the CQ has no room (R408). -/
def State.cqPush (s : State) (ld : Nat) (bytes : List Byte) : State :=
  if s.ringRoom ld 0 = 0 then s.bump R.LD_CQ_DROPPED.COUNT ld else s.ringPush ld 0 bytes

/-- Ends a request: its entry goes DRAINING with its end code, its completion is written and counted (R303, R314). -/
def State.endRequest (s : State) (c slot code : Nat) : State :=
  let e := s.entry c slot
  let s := s.setEntry c slot { e with state := 3, endCode := code, cancel := false }
  let s := s.bumpAt R.MANI_ENDS.COUNT c (code - 1)
  s.cqPush c (endCqe slot e code)

/-- Slots in PREFILL or DECODE. -/
def Ctx.live (x : Ctx) : List Nat := x.entries.filterMap fun e => if e.2.state = 1 ∨ e.2.state = 2 then some e.1 else none

/-- Ends every live request of a context with a code. -/
def State.endAll (s : State) (c code : Nat) : State := (s.ctx c).live.foldl (fun s slot => s.endRequest c slot code) s

/-! ### Cores -/

def coreIdle : Nat := 0
def coreReady : Nat := 1
def coreRunning : Nat := 2
def coreTrapped : Nat := 3
def coreHalted : Nat := 4
def coreFenced : Nat := 5

def State.coreState (s : State) (n : Nat) : Nat := s.fld R.CORE_STATE.STATE n
def State.setCoreState (s : State) (n v : Nat) : State := s.put R.CORE_STATE.STATE n v

/-- Invalidates a core's caches, TLBs, predictor and return stack (R105). -/
def Core.invalidate (k : Core) : Core :=
  { k with dcache := [], icache := [], itlb := [], dtlb := [], bht := [], rstack := [] }

/-- Discards a core's unretired work: pending loads, run-ahead, a waiting `HALT` (R81, R108). -/
def Core.discard (k : Core) : Core := { k with pend := [], ra := none, halting := false, nodeWait := 0, nodeAns := none }

/-- Stops a core at a bundle boundary with a state. -/
def State.stopCore (s : State) (n v : Nat) : State :=
  ((s.modCore n Core.discard).put R.CORE_STATE.RA_ACTIVE n 0).setCoreState n v

/-- Zeroes a core's scratchpad (R175). -/
def State.clearScr (s : State) (n : Nat) : State := s.modCore n fun k => { k with scr := [] }

/-- Advances the generation of a core's node operations, so that late answers are dropped (R378). -/
def State.nextCoreGen (s : State) (n : Nat) : State :=
  { s with rack := { s.rack with coreGen := tset 0 s.rack.coreGen n ((tget 0 s.rack.coreGen n + 1) % 256) } }

/-- Whether a step instance of the context is in flight on this member and not past Rake commit (R108, R244). -/
def State.replayable (s : State) (c : Nat) : Bool :=
  let m := (s.ctx c).member
  m.active && !m.helmSent && !m.committed

/-! ### Barges and replay -/

/-- Abandons every OPEN barge of a context: its tag drains, and waits for it complete with status 2 (R276, R305). -/
def State.abandonBarges (s : State) (c : Nat) : State :=
  let s := s.modCtx c fun x => { x with
    barges := x.barges.map fun e => (e.1, { e.2 with draining := true })
    halves := []
    received := []
    arrived := []
    returned := []
    loadPend := [] }
  (s.coresOf c).foldl (fun s n =>
    s.modCore n fun k => (k.xops.filter fun x => decide (x.kind = 0x4C ∨ x.kind = 0x4D ∨ x.kind = 0x4E)).foldl
      (fun k x => { k with
        tags := tset ⟨false, 0, false⟩ k.tags x.tag ⟨false, 0, false⟩
        xops := k.xops.filter fun y => decide (y.tag ≠ x.tag)
        scr := if x.kind = 0x4D then tsetAll 0 k.scr (x.a * 64) (2 :: List.replicate 63 0) else k.scr }) k) s

/-- Sends the convoy-end message: a member to its helm, the helm to every member (R508). -/
def State.sendConvoyEnd (s : State) (c code : Nat) : State :=
  let body := leBytes code 2 ++ [0, 0]
  if s.helm c then (s.members c).foldl (fun s n => (s.sendStep c 6 n 0 0 body).2) s
  else (s.sendStep c 6 (s.helmNode c) 0 0 body).2

/-- Ends a context after its class 4 event `code` has been raised (R507, R508, R510). -/
def State.endCtx (s : State) (c code : Nat) : State :=
  if s.ended c || s.ctxInReset c then s
  else
    let s := (s.coresOf c).foldl (fun s n => if s.coreState n = coreRunning then s.stopCore n coreReady else s) s
    let s := s.abandonBarges c
    let s := s.abandonMsgs c fun _ => true
    let s := (s.setFld R.FAULT_CTX.ENDED 0 c 1).setFld R.FAULT_CTX.CODE 0 c code
    let s := if s.fld R.CTX_STATUS.STATE c = ctxActive then s.put R.CTX_STATUS.STATE c ctxQuiescing else s
    let s := s.modCtx c fun x => { x with member := Member.idle, posts := [] }
    let s := s.put R.STEP_STATUS.PHASE c 0
    let s := if s.helm c then
        let s := s.endAll c 7
        s.modCtx c fun x => { x with helm := { Helm.idle with ended := true, refillAt := x.helm.refillAt } }
      else s
    if s.on R.STEP_CTRL.EN c then s.sendConvoyEnd c code else s

/-- Raises a class 4 event of a context and ends it (R507). -/
def State.ctxFault (s : State) (u : Raiser) (c code : Nat) (info : List Byte) : State :=
  (s.raise u (some c) code info).endCtx c code

/-- Sends READY, SCATTERED or REPLAY to the helm; a message its route refuses ends the context (R508). -/
def State.toHelm (s : State) (c kind count1 count2 : Nat) (body : List Byte) : State :=
  let r := s.sendStep c kind (s.helmNode c) count1 count2 body
  if r.1 then r.2 else r.2.ctxFault (.page .step c) c 0x4801 (w4 [s.helmNode c, 0x4801])

/-- Raises `REPLAY` for the instance in flight, once (R514): the Rake's staged rows and the barges go (R247, R276). -/
def State.raiseReplay (s : State) (c cause : Nat) (nodes : List Nat) : State :=
  if s.replayable c && !(s.ctx c).member.replaying && !s.ended c then
    let nodes := nodes.take 16
    let s := s.abandonBarges c
    let s := s.abandonMsgs c fun w => decide (w = 2)
    let s := s.modCtx c fun x => { x with member := { x.member with replaying := true } }
    s.toHelm c 5 nodes.length cause (nodes.flatMap fun n => leBytes n 2)
  else s

/-! ### Fencing -/

/-- `CORE_FENCE` bits [12:8] (R107): 0 PARITY, 1 SCR_UE, 2 WDOG, 3 BIST, 4 COMMAND. -/
def fenceCause : Nat → Fd
  | 0 => R.CORE_FENCE.PARITY | 1 => R.CORE_FENCE.SCR_UE | 2 => R.CORE_FENCE.WDOG
  | 3 => R.CORE_FENCE.BIST | _ => R.CORE_FENCE.COMMAND

def State.fenceBits (s : State) (n : Nat) : Nat :=
  bitMap 5 fun i => s.on (fenceCause i) n

/-- Takes core `n` out of its context's core set (R108, R417). -/
def State.leaveSet (s : State) (n : Nat) : State :=
  match s.ownerOf n with
  | some c =>
    let s := s.setFld R.CTX_CORES.BITS c (n / 32) (clrBit (s.fld R.CTX_CORES.BITS c (n / 32)) (n % 32))
    s.put R.CTX_STATUS.CORES c (s.fld R.CTX_STATUS.CORES c - 1)
  | none => s

/-- Fences a core (R107-R111). A later detector only adds its cause bit. The scratchpad clear ends with
`FENCE_CLEAR_DONE`. -/
def State.fenceCore (s : State) (n cause : Nat) : State :=
  if s.coreState n = coreFenced then s.put (fenceCause cause) n 1
  else
    let owner := s.ownerOf n
    let s := s.put (fenceCause cause) n 1
    let s := (s.stopCore n coreFenced).nextCoreGen n
    let s := s.modCore n fun k => { k with
      engine := Engine.reset, tags := [], xops := [], bistPassed := false, clearing := true, dropped := 0 }
    let s := (s.leaveSet n).put R.CORE_STATE.CTX n 0
    let s := s.raise (.page .core n) owner 0x2101 (w4 [n, s.fenceBits n])
    match owner with
    | some c =>
      let s := s.raiseReplay c 1 []
      if s.fld R.CTX_STATUS.CORES c = 0 then s.ctxFault (.page .ctx c) c 0x4102 [] else s
    | none => s

/-! ### Module-fatal events -/

/-- Raises a class 5 event and latches the fatal record (R41, R511, R512). -/
def State.fatal (s : State) (u : Raiser) (code : Nat) (info : List Byte) : State :=
  let s := s.raise u none code info
  let s := s.put R.FAULT_STATUS.FATAL_COUNT 0 (min 255 (s.fld R.FAULT_STATUS.FATAL_COUNT + 1))
  let s := s.put R.FAULT_STATUS.FAULT_L 0 1
  if s.on R.FAULT_STATUS.FATAL_VALID then s
  else
    let s := s.put R.FAULT_STATUS.FATAL_VALID 0 1
    let s := (s.put R.FAULT_FATAL_CODE.CODE 0 code).put R.FAULT_FATAL_CODE.BLOCK 0 u.ids.1
    let s := (s.put R.FAULT_FATAL_INST.INSTANCE 0 u.ids.2).put R.FAULT_FATAL_TICK.TICK 0 s.tick
    (s.put R.FAULT_FATAL_INFO0.INFO 0 (ofLe (info.take 8))).put R.FAULT_FATAL_INFO1.INFO 0 (ofLe ((info.drop 8).take 8))

/-- Every Weir setting goes to 1 and boost is revoked (R445, R511). -/
def State.weirFloor (s : State) : State :=
  let s := (List.range 8).foldl (fun s d => s.setFld R.WEIR_DIE.N 0 d 1) s
  s.put R.CLK_STATUS.BOOST_ACTIVE 0 0

/-- Stops every RUNNING core at a bundle boundary (R445, R511). -/
def State.stopAll (s : State) : State :=
  (List.range 512).foldl (fun s n => if s.coreState n = coreRunning then s.stopCore n coreRunning else s) s

/-- Optical transmit stops on every link: each UP or training link goes DOWN (R445, R511). -/
def State.lightsOff (s : State) : State :=
  (List.range 32).foldl (fun s k =>
    if s.linkState k = 0 ∨ s.linkState k = 4 ∨ s.linkState k = 5 then s
    else s.setLink k 4) s

/-- Halts the module on a class 5 event (R511, R512). -/
def State.halt (s : State) (u : Raiser) (code : Nat) (info : List Byte) : State :=
  let s := s.fatal u code info
  if s.on R.FAULT_STATUS.HALTED then s
  else
    let s := { s.weirFloor.stopAll with haltBegun := true }
    let s := (List.range 16).foldl (fun s c => if s.helm c then s.endAll c 7 else s) s
    s.lightsOff.put R.FAULT_STATUS.HALTED 0 1

end Sys2Proof.Machine
end

