-- ==== Sys2Proof/Machine/XlatOps.lean ====
section
/-! DEFINITION. Machine/XlatOps.lean: the translation update queue, its application at a boundary and the epochs
(R189, R207-R229, R251-R253; 08_translation_and_sequence_ranges.md). -/
namespace Sys2Proof.Machine

def xlatUnit (c : Nat) : Raiser := .page .xlat c

/-! ### Epochs (R224) -/

/-- X-slot operations that hold translations of the unified range while they run. -/
def holdsRange (kind : Nat) : Bool := decide (kind = 0x30 ∨ kind = 0x48 ∨ kind = 0x54)

/-- An access or private copy of the context still holds epoch `e`. -/
def State.epochHeld (s : State) (c e : Nat) : Bool :=
  (s.coresOf c).any fun n =>
    (s.core n).pend.any (fun p => decide (p.epoch = e)) ||
      (s.core n).xops.any fun x => holdsRange x.kind && decide (x.epoch = e)

def State.epoch (s : State) (c : Nat) : Nat := s.fld R.XLAT_EPOCH.EPOCH c
def State.oldest (s : State) (c : Nat) : Nat := s.fld R.XLAT_OLDEST.EPOCH c

/-- Retires the oldest epoch if it lies below the current one and nothing holds it. -/
def State.retireEpoch (s : State) (c : Nat) : State :=
  if s.oldest c ≠ s.epoch c ∧ s.epochHeld c (s.oldest c) = false then s.put R.XLAT_OLDEST.EPOCH c (s.oldest c + 1) else s

/-! ### Homes and reference counts (R251) -/

def State.refsOf (s : State) (loc : Nat) : Nat := tget 0 s.refs loc
def State.setRefs (s : State) (loc n : Nat) : State := { s with refs := tset 0 s.refs loc n }

/-- Takes one leaf off a home: a T2 home is released and zeroed when no leaf names it any more. -/
def State.dropHome (s : State) (c tier loc : Nat) : State :=
  if tier = 1 then
    if s.refsOf loc ≤ 1 then (s.setRefs loc 0).drop c 1 loc else s.setRefs loc (s.refsOf loc - 1)
  else s.drop c tier loc

/-- A free 64 KiB unit of peer T3 from `SLUICE_PEER`: the spec does not say which unit of the region the Sluice
takes, so it is freely drawn (log entry 31). -/
def State.peerPlace (s : State) (c : Nat) : Nat × State :=
  let r := s.freeNat 24
  (r.1 + 2 ^ 24 * s.fld R.SLUICE_PEER.NODE c + 2 ^ 36 * s.fld R.SLUICE_PEER.REGION c, r.2)

/-- The home's leaf entry of a subpage: what the Sluice keeps while a copy is mapped, the table's leaf otherwise
(R180). -/
def State.homeLeaf (s : State) (c sub : Nat) : Nat :=
  let k := (s.ctx c).copy sub
  if k.state = 2 ∨ k.state = 3 ∨ k.state = 4 ∨ k.state = 6 then k.home else s.leaf c sub

/-! ### Edits (R221, R222) -/

/-- A step over a range of subpages that may fail as a whole. -/
def overSubs (f : State → Nat → Nat → Option State) (s : State) (base count : Nat) : Option State :=
  (List.range count).foldl (fun acc i => acc.bind fun s => f s (base + i) i) (some s)

/-- ALLOC of one subpage. -/
def State.allocOne (c tier perm : Nat) (s : State) (sub _i : Nat) : Option State :=
  if tier = 1 then
    (s.take c 1 3 0).bind fun p =>
      let r := (p.2.setRefs p.1 1).setLeaf c sub (mkLeaf perm 1 p.1)
      if r.1 then some r.2 else none
  else
    let p := s.peerPlace c
    let r := (p.2.useAdd c 3 1).setLeaf c sub (mkLeaf perm 3 p.1)
    if r.1 then some (r.2.farWrite 3 p.1 0 (List.replicate 65536 0)) else none

/-- MAP_POOLED of one subpage. -/
def State.mapOne (c perm first : Nat) (s : State) (sub i : Nat) : Option State :=
  let r := (s.useAdd c 2 1).setLeaf c sub (mkLeaf perm 2 ((first + i) % 2 ^ 36))
  if r.1 then some r.2 else none

/-- Drops what the Sluice holds for a subpage beside its home: its copy and a destination being filled. -/
def State.dropCopies (s : State) (c sub : Nat) : State :=
  let k := (s.ctx c).copy sub
  let s := if k = Copy.none ∨ k.state = 5 then s else s.drop c k.tier k.loc
  let m := (s.ctx c).move sub
  let s := if m = Copy.none ∨ m.state = 5 then s else s.drop c m.tier m.loc
  s.modCtx c fun x => { x with
    copies := tset Copy.none x.copies sub Copy.none
    moves := tset Copy.none x.moves sub Copy.none
    queue := x.queue.filter fun e => !(decide (20 ≤ e.op ∧ e.op ≤ 23) && decide (e.arg0 = sub * 65536)) }

/-- FREE of one subpage: its write-back is abandoned with its copy. -/
def State.freeOne (c : Nat) (s : State) (sub : Nat) : State :=
  let home := s.homeLeaf c sub
  let s := (s.dropCopies c sub).dropHome c (leafTier home) (leafLoc home)
  (s.setLeaf c sub 0).2

/-- A leaf entry with other permissions. -/
def withPerm (e perm : Nat) : Nat := if e = 0 then 0 else e - 2 * field e 1 3 + 2 * (perm % 8)

/-- PERM of one subpage. -/
def State.permOne (c perm : Nat) (s : State) (sub : Nat) : State :=
  let k := (s.ctx c).copy sub
  let s := if k = Copy.none then s else s.modCtx c fun x => x.setCopy sub { k with home := withPerm k.home perm }
  (s.setLeaf c sub (withPerm (s.leaf c sub) perm)).2

/-- The range of a descriptor in bytes, in whole 2 MiB pages (R217). -/
def Desc.span (d : Desc) : Nat := (d.groups * d.pairs + 31) / 32 * 2 ^ 21

def Ctx.desc (x : Ctx) (slot : Nat) : Option Desc :=
  let d := tget Desc.none x.descs slot
  if d = Desc.none then none else some d

/-- The subpage that holds the KV page of a group and pair. -/
def Desc.sub (d : Desc) (group pair : Nat) : Nat := d.base / 65536 + group * d.pairs + pair

/-- Whether a subpage lies in a descriptor's range. -/
def Desc.holds (d : Desc) (sub : Nat) : Bool :=
  decide (d.base / 65536 ≤ sub) && decide (sub < d.base / 65536 + d.span / 65536)

/-- Moves a leaf to another location, its permissions unchanged. -/
def State.leafTo (s : State) (c sub tier loc : Nat) : State :=
  (s.setLeaf c sub (mkLeaf (field (s.leaf c sub) 1 3) tier loc)).2

/-- Adds a location to those that wait to be freed (R189): `epoch` is the one that must have become the oldest. -/
def State.releaseAt (s : State) (c tier loc epoch : Nat) (isCopy : Bool) : State :=
  s.modCtx c fun x => { x with releases := x.releases ++ [⟨tier, loc, epoch, isCopy⟩] }

/-- Switches a READY copy in, at once or at a boundary (R186). -/
def State.switchIn (s : State) (c sub : Nat) : State :=
  let k := (s.ctx c).copy sub
  let home := s.leaf c sub
  (s.leafTo c sub k.tier k.loc).modCtx c fun x => x.setCopy sub { k with state := 2, home := home, written := false }

/-- Switches an UNMAPPING copy back to its home; the copy is RELEASING from here on. -/
def State.switchBack (s : State) (c sub epoch : Nat) : State :=
  let k := (s.ctx c).copy sub
  let s := (s.leafTo c sub (leafTier k.home) (leafLoc k.home)).releaseAt c k.tier k.loc epoch true
  (s.modCtx c fun x => x.setCopy sub Copy.none).bump R.SLUICE_EVICTED.COUNT c

/-- Switches a subpage to the filled destination of a MOVE, of a copy moving up, or of a copy-on-write (R190, R204). -/
def State.switchMove (s : State) (c sub epoch : Nat) : State :=
  let m := (s.ctx c).move sub
  let k := (s.ctx c).copy sub
  let home := s.homeLeaf c sub
  let s := s.leafTo c sub m.tier m.loc
  let s := s.modCtx c fun x => x.setMove sub Copy.none
  if m.why = 5 then
    (s.releaseAt c k.tier k.loc epoch true).modCtx c fun x => x.setCopy sub { m with
      state := 2, home := home, dirty := k.dirty, pin := m.pin || k.pin, written := false, why := k.why }
  else
    let s := if k = Copy.none then s
      else (s.releaseAt c k.tier k.loc epoch true).modCtx c fun x => x.setCopy sub Copy.none
    let s := if m.tier = 1 then { s.setRefs m.loc 1 with hbmUse := tset Use.none s.hbmUse m.loc ⟨3, c⟩ } else s
    if m.why = 3 then (s.dropHome c (leafTier home) (leafLoc home)).bump R.RAKE_COW.COUNT c
    else s.releaseAt c (leafTier home) (leafLoc home) epoch false

/-! FORK (R253) -/

def forkSrc (a : Nat) : Nat := field a 0 10
def forkDst (a : Nat) : Nat := field a 18 10
def forkTokens (a : Nat) : Nat := field a 36 21

/-- Subpages of the source and destination that a FORK shares. -/
def forkPairs (src dst : Desc) (tokens : Nat) : List (Nat × Nat) :=
  (List.range ((tokens + 255) / 256)).flatMap fun p =>
    (List.range src.pairs).map fun j => (src.sub p j, dst.sub p j)

/-- The reason a FORK is refused, 0 for none. -/
def State.forkCause (s : State) (c a : Nat) : Nat :=
  match (s.ctx c).desc (forkSrc a), (s.ctx c).desc (forkDst a) with
  | some src, some dst =>
    if src.gen ≠ field a 10 8 ∨ dst.gen ≠ field a 28 8 then 1
    else if src.pairs ≠ dst.pairs then 2
    else
      let l := forkPairs src dst (forkTokens a)
      if l.any fun p => s.leaf c p.2 != 0 then 3
      else if l.any fun p => let h := s.homeLeaf c p.1; h == 0 || leafTier h != 1 then 4
      else if l.any fun p => decide (65535 ≤ s.refsOf (leafLoc (s.homeLeaf c p.1))) then 5
      else 0
  | _, _ => 1

/-- Address of the summary of a slot, pair and group (R236). -/
def State.summaryAddr (s : State) (c slot pair group : Nat) : Nat :=
  s.addr R.ATTN_IDX_BASE.ADDR c + slot * s.fld R.ATTN_IDX_STRIDE.STRIDE c * 2 ^ 21 + (pair * 4096 + group) * 256

/-- Copies the summaries of the full groups a FORK shares. -/
def State.forkSummaries (s : State) (c a pairs : Nat) : State :=
  (List.range (forkTokens a / 256)).foldl (fun s p =>
    (List.range pairs).foldl (fun s j =>
      let r := orFree (s.uread 0 c (s.summaryAddr c (forkSrc a) j p) 256) 256
      (r.2.uwrite 0 c (r.2.summaryAddr c (forkDst a) j p) r.1).2) s) s

/-- Performs a FORK: each leaf of the destination names the source's home, with the source's permissions. -/
def State.forkApply (s : State) (c a : Nat) : Option State :=
  match (s.ctx c).desc (forkSrc a), (s.ctx c).desc (forkDst a) with
  | some src, some dst =>
    ((forkPairs src dst (forkTokens a)).foldl (fun (acc : Option State) p => acc.bind fun s =>
      let h := s.homeLeaf c p.1
      let r := s.setLeaf c p.2 (mkLeaf (field (s.leaf c p.1) 1 3) 1 (leafLoc h))
      if r.1 then some (r.2.setRefs (leafLoc h) (r.2.refsOf (leafLoc h) + 1)) else none) (some s)).map
      fun s => s.forkSummaries c a src.pairs
  | _, _ => none

/-! ### Applying the queue -/

def Edit.base (e : Edit) : Nat := e.arg0 / 65536

/-- Every subpage of an edit satisfies `p`. -/
def Edit.all (e : Edit) (p : Nat → Bool) : Bool := (List.range e.count).all fun i => p (e.base + i)

/-- Whether the context still is within its quotas in a tier. -/
def State.withinQuota (s : State) (c tier : Nat) : Bool := decide (s.usage c tier ≤ s.fld R.SLUICE_QUOTA.LIMIT c tier)

/-- The descriptor that a SEQ_SET edit carries (R217, R221). -/
def Edit.desc (e : Edit) : Desc := ⟨field e.arg0 10 8, field e.arg0 21 27 * 2 ^ 21, field e.arg1 0 12, field e.arg1 16 13⟩

/-- The state after an edit, or the cause of its refusal (R222); an edit is refused whole. -/
def State.applyEdit (s : State) (c : Nat) (e : Edit) : Except Nat State :=
  let next := s.epoch c + 1
  let fit (o : Option State) : Except Nat State :=
    match o with
    | some t => if t.withinQuota c e.tier && t.withinQuota c 1 then .ok t else .error 4
    | none => .error 4
  match e.op with
  | 1 =>
    if e.all fun sub => s.leaf c sub == 0 then fit (overSubs (State.allocOne c e.tier (e.arg1 % 8)) s e.base e.count)
    else .error 3
  | 2 =>
    if e.all fun sub => s.leaf c sub == 0 then
      fit (overSubs (State.mapOne c (e.arg1 % 8) (field e.arg1 16 36)) s e.base e.count)
    else .error 3
  | 3 =>
    if e.all fun sub => s.leaf c sub != 0 then
      .ok ((List.range e.count).foldl (fun s i => State.freeOne c s (e.base + i)) s)
    else .error 5
  | 4 =>
    if e.all fun sub => s.leaf c sub != 0 then
      .ok ((List.range e.count).foldl (fun s i => State.permOne c (e.arg1 % 8) s (e.base + i)) s)
    else .error 5
  | 5 =>
    let slot := field e.arg0 0 10
    let d := e.desc
    if d.base < s.addr R.XLAT_VA_LO.ADDR c ∨ s.addr R.XLAT_VA_HI.ADDR c < d.base + d.span then .error 1
    else if (s.ctx c).descs.any fun o => decide (o.1 ≠ slot ∧ o.2.base < d.base + d.span ∧ d.base < o.2.base + o.2.span) then
      .error 2
    else .ok (s.modCtx c fun x => { x with descs := tset Desc.none x.descs slot d })
  | 6 => .ok (s.modCtx c fun x => { x with descs := tset Desc.none x.descs (field e.arg0 0 10) Desc.none })
  | 20 => if ((s.ctx c).copy e.base).state = 1 then .ok (s.switchIn c e.base) else .error 0
  | 21 => if ((s.ctx c).copy e.base).state = 4 then .ok (s.switchBack c e.base next) else .error 0
  | 24 =>
    let cause := s.forkCause c e.arg0
    if cause ≠ 0 then .error cause
    else
      match s.forkApply c e.arg0 with
      | some t => .ok t
      | none => .error 4
  | _ => if ((s.ctx c).move e.base).state = 1 then .ok (s.switchMove c e.base next) else .error 0

/-- The 2 MiB pages whose entries an edit writes. -/
def State.editPages (s : State) (c : Nat) (e : Edit) : List Nat :=
  if e.op = 5 ∨ e.op = 6 then []
  else if e.op = 24 then
    match (s.ctx c).desc (forkSrc e.arg0), (s.ctx c).desc (forkDst e.arg0) with
    | some a, some b => ((forkPairs a b (forkTokens e.arg0)).map fun p => p.2 / 32).eraseDups
    | _, _ => []
  else ((List.range ((e.base + e.count - 1) / 32 + 1 - e.base / 32)).map fun i => e.base / 32 + i)

/-- A refused edit is reported to its submitter (R222): the host by an event, the Rake by what R249 and R253 say. A
switch of the Sluice that is refused is discarded. -/
def State.editRefused (s : State) (c : Nat) (e : Edit) (cause : Nat) : State :=
  if e.src = 0 then
    (s.bump R.XLAT_UQ_REFUSED.COUNT c).raise (xlatUnit c) (some c) 0x0221 (w4 [e.seq, cause])
  else if e.op = 24 then
    ((s.put R.RAKE_CMD_RESULT.RESULT c cause).put R.RAKE_CMD_RESULT.BUSY c 0).raise (.page .rake c) (some c) 0x0303 (w4 [cause])
  else s

/-- A FORK that has been performed reports its completion. -/
def State.editDone (s : State) (c : Nat) (e : Edit) : State :=
  let s := s.bump R.XLAT_UQ_APPLIED.COUNT c
  if e.op = 24 then
    ((s.put R.RAKE_CMD_RESULT.RESULT c 0).put R.RAKE_CMD_RESULT.BUSY c 0).raise (.page .rake c) (some c) 0x0303 (w4 [0])
  else s

/-- Applies the queue in order: the state, and the 2 MiB pages edited; and the Rake's allocations that were refused,
as edits. -/
def State.applyEdits (s : State) (c : Nat) : State × List Nat × List Edit :=
  let q := (s.ctx c).queue
  q.foldl (fun (acc : State × List Nat × List Edit) e =>
    let pages := acc.1.editPages c e
    match acc.1.applyEdit c e with
    | .ok t => (t.editDone c e, acc.2.1 ++ pages, acc.2.2)
    | .error cause => (acc.1.editRefused c e cause, acc.2.1, if e.src = 2 ∧ e.op = 1 then acc.2.2 ++ [e] else acc.2.2))
    (s.modCtx c fun x => { x with queue := [] }, [], [])

/-- The boundary's part that R224 shows: apply, invalidate, advance the epoch, and retire the one before it if nothing
holds it. The Rake's refused allocations are answered beside. -/
def State.applyQueue (s : State) (c : Nat) : State × List Edit :=
  let r := s.applyEdits c
  let pages := r.2.1.eraseDups
  let s := if 256 < pages.length then r.1.invalidateAll c else pages.foldl (fun s p => s.invalidate c p) r.1
  let s := s.put R.XLAT_EPOCH.EPOCH c (s.epoch c + 1)
  (s.retireEpoch c, r.2.2)

/-- Whether a boundary must wait because the epoch before the current one is live (R224). -/
def State.epochBlocked (s : State) (c : Nat) : Bool := decide (s.oldest c ≠ s.epoch c)

/-- Holds a boundary: the wait is counted once. -/
def State.epochWait (s : State) (c : Nat) : State :=
  if s.on R.XLAT_STATUS.EPOCH_WAIT c then s
  else (s.put R.XLAT_STATUS.EPOCH_WAIT c 1).bump R.XLAT_EPOCH_WAITS.COUNT c

/-! ### Submission (R220, R221) -/

/-- Puts an internal edit into the queue. -/
def State.internalEdit (s : State) (c src op tier arg0 arg1 count : Nat) : State :=
  s.modCtx c fun x => { x with
    queue := x.queue ++ [⟨x.seqNext, src, op, tier, arg0, arg1, count⟩]
    seqNext := (x.seqNext + 1) % 2 ^ 32 }

/-- Removes a queued switch that is withdrawn (R188). -/
def State.withdraw (s : State) (c sub : Nat) : State :=
  s.modCtx c fun x => { x with
    queue := x.queue.filter fun e => !(decide (20 ≤ e.op ∧ e.op ≤ 23) && decide (e.arg0 = sub * 65536)) }

/-- Host edits queued. -/
def Ctx.hostEdits (x : Ctx) : Nat := (x.queue.filter fun e => decide (e.src = 0)).length

/-- A submission uses a reserved encoding (R221). -/
def badEdit (duty : Bool) (op tier a0 a1 count : Nat) : Bool :=
  let subsOk := decide (a0 % 65536 = 0 ∧ a0 < 2 ^ 48)
  let good := match op with
    | 1 => subsOk && decide (tier = 1 ∨ tier = 3) && decide (a1 < 8)
    | 2 => subsOk && decide (tier = 2) && decide (a1 - field a1 16 36 * 65536 < 8)
    | 3 => subsOk && decide (tier = 0 ∧ a1 = 0)
    | 4 => subsOk && decide (tier = 0 ∧ a1 < 8)
    | 5 => decide (tier = 0 ∧ count = 1 ∧ field a0 18 3 = 0 ∧ a0 < 2 ^ 48 ∧ field a1 12 4 = 0 ∧ a1 < 2 ^ 29) &&
        decide (1 ≤ field a1 0 12 ∧ 1 ≤ field a1 16 13 ∧ field a1 16 13 ≤ 4096)
    | 6 => decide (tier = 0 ∧ count = 1 ∧ a0 < 1024 ∧ a1 = 0)
    | 7 => subsOk && decide (tier = 0 ∧ a1 = 0) && duty
    | _ => false
  !good || decide (count = 0)

def State.uqResult (s : State) (c accepted full bad seqno : Nat) : State :=
  let s := (s.put R.XLAT_UQ_RESULT.ACCEPTED c accepted).put R.XLAT_UQ_RESULT.FULL c full
  (s.put R.XLAT_UQ_RESULT.BAD c bad).put R.XLAT_UQ_RESULT.SEQNO c seqno

/-- A write of `XLAT_UQ_OP` (R220, R221, R227). -/
def State.submitEdit (s : State) (c op tier count : Nat) : State :=
  let a0 := s.fld R.XLAT_UQ_ARG0.ARG c
  let a1 := s.fld R.XLAT_UQ_ARG1.ARG c
  if badEdit (s.on (hdrDutyMode .xlat) c) op tier a0 a1 count then s.uqResult c 0 0 1 0
  else if op = 7 then
    let pages := s.editPages c ⟨0, 0, 7, 0, a0, 0, count⟩
    let s := pages.foldl (fun s p => s.invalidate c p) s
    (s.uqResult c 0 0 0 0).put R.XLAT_UQ_RESULT.DONE c 0
  else if 3072 ≤ (s.ctx c).hostEdits then s.uqResult c 0 1 0 0
  else
    let seq := (s.ctx c).seqNext
    (s.internalEdit c 0 op tier a0 a1 count).uqResult c 1 0 0 seq

end Sys2Proof.Machine
end

