-- ==== Sys2Proof/Machine/SluiceOps.lean ====
section
/-! DEFINITION. Machine/SluiceOps.lean: the Sluice's copies, quotas, victims, commands and failures, and the
attribution of uncorrectable errors in T1 and T2 (R170-R173, R180-R206; 06_scratchpads_and_basin.md,
07_memory_tiers_and_sluice.md). -/
namespace Sys2Proof.Machine

def sluiceUnit (c : Nat) : Raiser := .page .sluice c

/-! ### Requests that lose data (R172, R199, R219) -/

/-- Records a fault of a request for the next READY; the helm raises its event once per request. -/
def State.reqFault (s : State) (c slot gen code ev : Nat) (u : Raiser) : State :=
  let m := (s.ctx c).member
  let s := if m.faults.any fun f => decide (f.1 = slot ∧ f.2.1 = gen ∧ f.2.2 = code) then s
    else s.modCtx c fun x => { x with member := { x.member with faults := x.member.faults ++ [(slot, gen, code)] } }
  if s.helm c && !(s.ctx c).helm.seen.any fun f => decide (f = (slot, gen)) then
    let s := s.modCtx c fun x => { x with helm := { x.helm with seen := x.helm.seen ++ [(slot, gen)] } }
    s.raise u (some c) ev (w4 [handle slot gen, 0] ++ leBytes (s.entry c slot).tag 8)
  else s

/-- Subpages of a descriptor that hold KV pages. -/
def Desc.pages (d : Desc) : List Nat := (List.range (d.groups * d.pairs)).map fun i => d.base / 65536 + i

/-- A leaf names a location. -/
def leafAt (e tier loc : Nat) : Bool := e != 0 && decide (leafTier e = tier ∧ leafLoc e = loc)

/-- The sequences whose page tables map a location, as slot and subpage (R172, R199). -/
def State.kvMaps (s : State) (c tier loc : Nat) : List (Nat × Nat) :=
  (s.ctx c).descs.flatMap fun d =>
    (d.2.pages.filter fun sub => leafAt (s.leaf c sub) tier loc || leafAt (s.homeLeaf c sub) tier loc).map fun sub =>
      (d.1, sub)

/-- Ends every request that maps a location. -/
def State.kvFault (s : State) (c tier loc code ev : Nat) (u : Raiser) : State :=
  (((s.kvMaps c tier loc).map Prod.fst).eraseDups).foldl (fun s slot =>
    s.reqFault c slot (tget Desc.none (s.ctx c).descs slot).gen code ev u) s

/-- A KV page of T3 was late or failed: every request that maps it ends with `TIER_FAULT` (R199). -/
def State.tierFault (s : State) (c tier loc : Nat) : State :=
  if s.kvMaps c tier loc = [] then s
  else (s.kvFault c tier loc 6 0x3202 (sluiceUnit c)).bump R.SLUICE_TIER_FAULTS.COUNT c

/-! ### Room and victims (R196, R197) -/

/-- Space on its way back to a tier: copies being switched away, and locations being released. -/
def Ctx.coming (x : Ctx) (tier : Nat) : Nat :=
  (x.copies.filter fun e => decide (e.2.tier = tier ∧ (e.2.state = 4 ∨ (e.2.state = 3 ∧ e.2.back = true)))).length +
    (x.releases.filter fun r => decide (r.tier = tier)).length

/-- Stagings that wait for space in a tier. -/
def Ctx.waiting (x : Ctx) (tier : Nat) : List (Nat × Copy) :=
  x.copies.filter fun e => decide (e.2.state = 5 ∧ e.2.tier = tier)

/-- Layers whose schedule names a subpage. -/
def Ctx.layersOf (x : Ctx) (sub : Nat) : List Nat :=
  x.sched.filterMap fun r =>
    if r.2.ranges.any fun g => decide (g.1 ≤ sub ∧ sub < g.1 + g.2.1) then some r.1 else none

/-- Layers until the next scheduled start of a subpage, counted forward into the next step; none where the schedule
does not name it. -/
def State.distance (s : State) (c sub : Nat) : Option Nat :=
  let n := max 1 (s.fld R.SLUICE_LST_COUNT.COUNT c)
  (((s.ctx c).layersOf sub).map fun l => (l + n - (s.ctx c).layer % n) % n).min?

/-- Lead of the current layer. -/
def Ctx.leadNow (x : Ctx) : Nat := (tget LayerSched.none x.sched x.layer).lead

/-- Copies of a tier that may be victims. -/
def State.evictable (s : State) (c tier : Nat) : List (Nat × Copy) :=
  (s.ctx c).copies.filter fun e =>
    decide (e.2.state = 2 ∧ e.2.tier = tier) && !e.2.pin && !e.2.stuck &&
      (match s.distance c e.1 with
       | some d => decide ((s.ctx c).leadNow < d)
       | none => true)

/-- The first of those with the largest measure. -/
def largest (l : List (Nat × Copy)) (f : Nat × Copy → Nat) : Option Nat :=
  (l.foldl (fun (best : Option (Nat × Nat)) e =>
    match best with
    | none => some (e.1, f e)
    | some b => if b.2 < f e then some (e.1, f e) else some b) none).map Prod.fst

/-- Turns a list to begin at a drawn place: the spec does not order equal candidates (log entry 32). -/
def turned {α : Type} (l : List α) (draw : Nat) : List α :=
  l.drop (draw % max 1 l.length) ++ l.take (draw % max 1 l.length)

/-- The victim of R197: clean copies of the layer farthest away, then clean copies the schedule does not name, the
least recently staged first, then dirty ones. -/
def State.victim (s : State) (c tier : Nat) (dirtyToo : Bool) : Option Nat × State :=
  let r := s.freeNat 32
  let all := turned (r.2.evictable c tier) r.1
  let clean := all.filter fun e => !e.2.dirty
  let named := clean.filter fun e => (s.distance c e.1).isSome
  let others := clean.filter fun e => (s.distance c e.1).isNone
  let dirty := all.filter fun e => e.2.dirty
  let pick := match largest named fun e => (s.distance c e.1).getD 0 with
    | some v => some v
    | none =>
      match largest others fun e => 2 ^ 64 - e.2.order with
      | some v => some v
      | none => if dirtyToo then dirty.head?.map Prod.fst else none
  (pick, r.2)

/-- Automatic eviction runs: `EN` is 1 and the duty is the module's (R205). -/
def State.autoSluice (s : State) (c : Nat) : Bool := s.on R.SLUICE_CTRL.EN c && !s.on (hdrDutyMode .sluice) c

/-- Switches a clean mapped copy away: at once where its leaf grants no write, otherwise at the next boundary (R186). -/
def State.unmap (s : State) (c sub : Nat) : State :=
  if bit (s.leaf c sub) 2 then
    (s.modCtx c fun x => x.setCopy sub { x.copy sub with state := 4, written := false }).internalEdit c 1 21 0 (sub * 65536) 0 1
  else (s.switchBack c sub (s.epoch c)).invalidate c (sub / 32)

/-- Starts evicting a mapped copy: a dirty one is written back first (R182). -/
def State.evictCopy (s : State) (c sub : Nat) : State :=
  let k := (s.ctx c).copy sub
  if k.dirty then
    s.modCtx c fun x => x.setCopy sub { k with state := 3, back := true, written := false, retries := 0 }
  else s.unmap c sub

/-- A free destination in T1, on a drawn die or the next that has one (log entry 33), or in T2, within the quota. -/
def State.place (s : State) (c tier kind : Nat) : Option (Nat × State) :=
  if s.quotaRoom c tier 1 then
    if tier = 0 then
      let r := s.freeNat 3
      ((List.range 8).filterMap fun i => r.2.take c 0 kind ((r.1 + i) % 8)).head?
    else s.take c tier kind 0
  else none

/-- Asks T3 for a subpage that a transfer reads. -/
def State.askSub (s : State) (c e : Nat) : State :=
  if 2 ≤ leafTier e then s.farAsk c (leafTier e) (leafLoc e) 0 65536 else s

/-- Begins a fill of a copy into a destination. -/
def State.beginFill (s : State) (c sub : Nat) (k : Copy) (loc : Nat) : State :=
  (s.modCtx c fun x => x.setCopy sub { k with state := 0, loc := loc, written := false, retries := 0 }).askSub c
    (s.homeLeaf c sub)

/-- Starts the stagings that wait for space, oldest first, as far as there is room. -/
def State.fillWaiting (s : State) (c tier : Nat) : State :=
  let l := ((s.ctx c).waiting tier).mergeSort fun a b => decide (a.2.order ≤ b.2.order)
  l.foldl (fun s e => match s.place c tier 4 with
    | some p => p.2.beginFill c e.1 e.2 p.1
    | none => s) s

/-- Stages one subpage: 0 begun or needless, 1 refused by quota, 2 not allocated. -/
def State.stageSub (s : State) (c sub tier : Nat) (pin : Bool) (why layer : Nat) : Nat × State :=
  let e := s.leaf c sub
  let x := s.ctx c
  let k := x.copy sub
  let m := x.move sub
  let setPin (s : State) : State := if pin then s.modCtx c fun x => x.setCopy sub { x.copy sub with pin := true } else s
  if e = 0 then (2, s)
  else if k = Copy.none then
    if leafTier e ≤ tier then (0, s)
    else
      let imm := !bit e 2 && decide (why ≠ 6)
      let new : Copy := ⟨0, tier, 0, 0, pin, false, false, imm, false, false, why, layer, x.order, 0⟩
      let s := s.modCtx c fun x => { x with order := x.order + 1 }
      match s.place c tier 4 with
      | some p => (0, p.2.beginFill c sub new p.1)
      | none =>
        if (s.ctx c).coming tier > ((s.ctx c).waiting tier).length then
          (0, s.modCtx c fun x => x.setCopy sub { new with state := 5 })
        else if s.autoSluice c then
          match s.victim c tier true with
          | (some v, s) => (0, (s.evictCopy c v).modCtx c fun x => x.setCopy sub { new with state := 5 })
          | (none, s) => (1, s)
        else (1, s)
  else if k.state = 4 then
    (0, setPin ((s.withdraw c sub).modCtx c fun x => x.setCopy sub { k with state := 2 }))
  else if k.state = 3 ∧ k.back = true then (0, setPin (s.modCtx c fun x => x.setCopy sub { k with back := false }))
  else if tier < k.tier ∧ k.state = 2 ∧ m = Copy.none then
    match s.place c tier 4 with
    | some p => (0, p.2.modCtx c fun x => x.setMove sub
        { k with state := 0, tier := tier, loc := p.1, home := e, pin := pin, written := false, why := 5, retries := 0 })
    | none => (1, s)
  else (0, setPin s)

/-- A range of the layer schedule is readable from T1 or T2 (R193). -/
def State.rangeReady (s : State) (c : Nat) (g : Nat × Nat × Nat × Nat × Bool) : Bool :=
  (List.range g.2.1).all fun i => let e := s.leaf c (g.1 + i); e != 0 && decide (leafTier e ≤ 1)

def Ctx.layerSched (x : Ctx) (l : Nat) : LayerSched := tget LayerSched.none x.sched l

/-- What `X_LWAIT` waits for: WEIGHT ranges, and FALLBACK ranges of a layer that runs WIDENED. -/
def State.layerReady (s : State) (c l : Nat) : Bool :=
  ((s.ctx c).layerSched l).ranges.all fun g =>
    if g.2.2.2.1 = 0 ∨ (g.2.2.2.1 = 1 ∧ s.fld R.ASSAY_LSTATE.STATE c l = 3) then s.rangeReady c g else true

/-- Layer `l` has FALLBACK ranges, all readable from T1 or T2 (R188 step 5). -/
def State.fallbackReady (s : State) (c l : Nat) : Bool :=
  let r := ((s.ctx c).layerSched l).ranges.filter fun g => decide (g.2.2.2.1 = 1)
  !r.isEmpty && r.all fun g => s.rangeReady c g

/-- A refused or failed staging of a layer has the effect of R195: `cause` 0 quota, 1 transfer. -/
def State.stageFailed (s : State) (c why layer tier cause : Nat) : State :=
  if why = 0 then s.ctxFault (sluiceUnit c) c 0x4202 (w4 [layer, cause])
  else if why = 2 then s.modCtx c fun x => { x with stageFail := if x.stageFail.contains layer then x.stageFail else x.stageFail ++ [layer] }
  else if cause = 0 ∧ !(s.ctx c).member.quotaTold.contains layer then
    (s.modCtx c fun x => { x with member := { x.member with quotaTold := x.member.quotaTold ++ [layer] } }).raise
      (sluiceUnit c) (some c) 0x0211 (w4 [layer, tier])
  else s

/-- Whether a refused WEIGHT range ends the context: only where the home lies in T3 and there is no copy (R195). -/
def State.needsCopy (s : State) (c sub : Nat) : Bool := decide (2 ≤ leafTier (s.homeLeaf c sub))

/-- Stages one range of a layer. -/
def State.stageRange (s : State) (c layer : Nat) (g : Nat × Nat × Nat × Nat × Bool) : State :=
  let why := if g.2.2.2.1 = 0 then 0 else if g.2.2.2.1 = 1 then 2 else 6
  (List.range g.2.1).foldl (fun s i =>
    let sub := g.1 + i
    let r := s.stageSub c sub g.2.2.1 g.2.2.2.2 why layer
    if r.1 = 1 ∧ (why ≠ 0 ∨ r.2.needsCopy c sub = true) ∧ (r.2.ctx c).copy sub = Copy.none then
      r.2.stageFailed c why layer g.2.2.1 0
    else r.2) s

/-- Payload of a tier-migration request (R425): need, tier, layer, address, count. -/
def migrationRequest (need tier layer sub count : Nat) : List Byte :=
  leBytes need 1 ++ leBytes tier 1 ++ leBytes layer 1 ++ List.replicate 5 0 ++ leBytes (sub * 65536) 8 ++ leBytes count 4

/-- `ASSAY_LCFG[l]` and `ASSAY_LTHRESH[l]` at reset, as the registers read. -/
def lcfgReset : Nat := 0x04000842
def lthreshReset : Nat := 0xCCD

/-- A FALLBACK range is staged for a sampled, staging or widened layer (R192). -/
def State.wantsFallback (s : State) (c l : Nat) : Bool :=
  bit (tget lcfgReset (s.ctx c).lcfg l) 0 || decide (2 ≤ s.fld R.ASSAY_LSTATE.STATE c l)

/-- Stages a layer's ranges, or posts the need where the duty is the host's (R192, R205). -/
def State.stageLayer (s : State) (c l : Nat) : State :=
  if s.on R.SLUICE_CTRL.EN c && s.on R.SLUICE_CTRL.LST_EN c then
    ((s.ctx c).layerSched l).ranges.foldl (fun s g =>
      if g.2.2.2.1 = 1 ∧ s.wantsFallback c l = false then s
      else if s.on (hdrDutyMode .sluice) c then
        if (List.range g.2.1).all fun i => let e := s.leaf c (g.1 + i); e == 0 || decide (leafTier e ≤ g.2.2.1) then s
        else s.dutyRequest c 5 0 (migrationRequest 0 g.2.2.1 l g.1 g.2.1)
      else s.stageRange c l g) s
  else s

/-! ### Commands (R204) -/

/-- The command is finished with a subpage. -/
def State.cmdSettled (s : State) (c : Nat) (cmd : SluiceCmd) (sub : Nat) : Bool :=
  let x := s.ctx c
  let k := x.copy sub
  let busy := (x.move sub) != Copy.none
  match cmd.op with
  | 1 => !busy && (k == Copy.none || decide (k.state = 2 ∨ k.state = 6))
  | 2 => !busy && k == Copy.none
  | 3 => !busy
  | _ => decide (k.state ≠ 3)

/-- A transfer of the subpage is in flight (R198). -/
def Ctx.inFlight (x : Ctx) (sub : Nat) : Bool :=
  let k := x.copy sub
  (k != Copy.none && decide (k.state = 0 ∨ k.state = 3 ∨ k.state = 6)) ||
    ((x.move sub) != Copy.none && decide ((x.move sub).state = 0))

/-- Records the first subpage at which a command fails. -/
def State.cmdFail (s : State) (c sub result : Nat) : State :=
  s.modCtx c fun x => match x.cmd with
    | some cmd =>
      let i := sub - cmd.base
      let earlier := match cmd.stop with
        | some p => decide (p.1 ≤ i)
        | none => false
      if cmd.base ≤ sub ∧ i < cmd.count ∧ earlier = false then { x with cmd := some { cmd with stop := some (i, result) } } else x
    | none => x

/-- The Sluice begins MOVE of one subpage: a destination in the target tier, filled from where the data are now. -/
def State.moveSub (s : State) (c sub tier : Nat) : Nat × State :=
  let home := s.homeLeaf c sub
  if leafTier home = tier then (0, s)
  else if !s.quotaRoom c tier 1 then (1, s)
  else
    let begin (s : State) (loc : Nat) : State :=
      (s.modCtx c fun x => x.setMove sub
        ⟨0, tier, loc, home, false, false, false, false, false, false, 4, 256, 0, 0⟩).askSub c (s.leaf c sub)
    if tier = 1 then
      match s.place c 1 4 with
      | some p => (0, begin p.2 p.1)
      | none => (1, s)
    else if tier = 2 then
      let r := s.freeNat 36
      (0, begin (r.2.useAdd c 2 1) r.1)
    else
      let r := s.peerPlace c
      (0, begin (r.2.useAdd c 3 1) r.1)

/-- One subpage of the command in progress. -/
def State.cmdSub (s : State) (c : Nat) (cmd : SluiceCmd) (sub : Nat) : State :=
  let k := (s.ctx c).copy sub
  if s.leaf c sub = 0 then s.cmdFail c sub 2
  else
    match cmd.op with
    | 1 =>
      let r := s.stageSub c sub cmd.tier cmd.pin 1 256
      let s := if r.1 = 1 ∧ s.on (hdrDutyMode .sluice) c = true then
          r.2.dutyRequest c 5 0 (migrationRequest 1 cmd.tier 0xFF sub 1)
        else r.2
      if r.1 = 0 then s else s.cmdFail c sub r.1
    | 2 =>
      if k = Copy.none then s
      else if k.state = 1 then (s.withdraw c sub).drop c k.tier k.loc |>.modCtx c fun x => x.setCopy sub Copy.none
      else if k.state = 5 then s.modCtx c fun x => x.setCopy sub Copy.none
      else if k.state = 2 then
        (s.modCtx c fun x => x.setCopy sub { k with pin := false }).evictCopy c sub
      else s
    | 3 =>
      let r := s.moveSub c sub cmd.tier
      if r.1 = 0 then r.2 else r.2.cmdFail c sub r.1
    | _ =>
      if k.state = 2 ∧ k.dirty = true then
        s.modCtx c fun x => x.setCopy sub { k with state := 3, back := false, written := false, retries := 0 }
      else s

/-- Acts on the subpages of the command that no transfer holds, and completes the command when every subpage before
its stop is settled (log entry 34). -/
def State.cmdAdvance (s : State) (c : Nat) : State :=
  match (s.ctx c).cmd with
  | none => s
  | some cmd0 =>
    let s := cmd0.todo.foldl (fun s sub =>
      match (s.ctx c).cmd with
      | none => s
      | some cmd =>
        if (s.ctx c).inFlight sub || (match cmd.stop with | some p => decide (cmd.base + p.1 ≤ sub) | none => false) then s
        else (s.modCtx c fun x => { x with cmd := x.cmd.map fun q => { q with todo := q.todo.filter fun t => t != sub } }).cmdSub c cmd sub) s
    match (s.ctx c).cmd with
    | none => s
    | some cmd =>
      let n := match cmd.stop with
        | some p => p.1
        | none => cmd.count
      let open_ := cmd.todo.any fun t => decide (t < cmd.base + n)
      if !open_ && (List.range n).all fun i => s.cmdSettled c cmd (cmd.base + i) then
        let result := match cmd.stop with
          | some p => p.2
          | none => 0
        let s := s.modCtx c fun x => { x with cmd := none }
        let s := (s.put R.SLUICE_STATUS.CMD_BUSY c 0).put R.SLUICE_CMD_RESULT.RESULT c result
        (s.put R.SLUICE_CMD_RESULT.DONE c n).raise (sluiceUnit c) (some c) 0x0212 (w4 [result, n])
      else s

/-- A write of `SLUICE_CMD` (R204); reserved combinations have been turned away by the write itself. -/
def State.sluiceCommand (s : State) (c op tier : Nat) (pin : Bool) : State :=
  if s.on R.SLUICE_STATUS.CMD_BUSY c then s.errlog .sluice c 4 0 0 0
  else
    let base := s.fld R.SLUICE_CMD_BASE.SUB c
    let count := s.fld R.SLUICE_CMD_COUNT.COUNT c
    let s := s.put R.SLUICE_STATUS.CMD_BUSY c 1
    (s.modCtx c fun x => { x with
      cmd := some ⟨op, tier, pin, base, count, (List.range count).map fun i => base + i, none⟩ }).cmdAdvance c

/-! ### Uncorrectable errors in T1 and T2 (R172, R173, R200) -/

/-- Unit that raises an event for a line (R534). -/
def lineUnit (tier loc : Nat) : Raiser := if tier = 0 then .page .basin (loc / 512) else .other 0x24 (loc / 393216)

/-- Information of a line: die, or 8 + stack, and the line, in 128-byte units of the slice or stack (log entry 35). -/
def lineInfo (tier loc off : Nat) : List Nat :=
  if tier = 0 then [loc / 512, loc % 512 * 512 + off / 128] else [8 + loc / 393216, loc % 393216 * 512 + off / 128]

/-- What an error in a line has come to: `BASIN_UE_LAST.OUTCOME` (R172). -/
abbrev Charged := Nat × Nat × State

/-- Subpage of a context whose copy, or whose destination being filled, lies at a location. -/
def subOf (t : Table Copy) (tier loc : Nat) : Option Nat :=
  (t.find? fun e => decide (e.2.tier = tier ∧ e.2.loc = loc ∧ e.2.state ≠ 5)).map Prod.fst

/-- Clean data are staged again (R172, R202); a step that read them is replayed. -/
def State.restage (s : State) (c tier loc off : Nat) (read : Bool) : State :=
  let s := s.raise (lineUnit tier loc) (some c) 0x2204 (w4 (lineInfo tier loc off ++ [c]))
  if read then s.raiseReplay c 2 [] else s

/-- Dirty data are lost: requests end for KV pages, which are released; otherwise the context ends. -/
def State.loseDirty (s : State) (c tier loc off : Nat) : Nat × State :=
  let maps := s.kvMaps c tier loc
  if maps ≠ [] then
    let s := s.kvFault c tier loc 7 0x3201 (lineUnit tier loc)
    (3, maps.foldl (fun s p => (State.freeOne c s p.2).invalidate c (p.2 / 32)) s)
  else (4, s.ctxFault (lineUnit tier loc) c 0x4201 (w4 [tier] ++ leBytes (loc * 65536 + off) 8))

/-- Charges an uncorrectable error in T1 or T2 by what the Sluice records for the subpage: outcome, context, state. -/
def State.charge (s : State) (tier loc off : Nat) (read : Bool) : Charged :=
  let u := if tier = 0 then tget Use.none s.basinUse loc else tget Use.none s.hbmUse loc
  let c := u.ctx
  let x := s.ctx c
  let line := off - off % 128
  match u.kind with
  | 0 => (1, 0, (s.physWrite tier loc line (List.replicate 128 0)).raise (lineUnit tier loc) none 0x2203 (w4 (lineInfo tier loc off)))
  | 3 => let r := s.loseDirty c tier loc off; (r.1, c, r.2)
  | 4 =>
    match subOf x.copies tier loc with
    | some sub =>
      let k := x.copy sub
      if k.dirty && decide (2 ≤ k.state) then let r := s.loseDirty c tier loc off; (r.1, c, r.2)
      else if k.state = 6 then (2, c, s)
      else if k.state ≤ 1 then
        let s := ((s.withdraw c sub).modCtx c fun x => x.setCopy sub { k with state := 0, written := false }).askSub c (s.leaf c sub)
        (2, c, s.restage c tier loc off read)
      else
        let s := ((s.withdraw c sub).modCtx c fun x => x.setCopy sub { k with state := 6, retries := 0 }).askSub c k.home
        (2, c, s.restage c tier loc off read)
    | none =>
      match subOf x.moves tier loc with
      | some sub =>
        let s := ((s.withdraw c sub).modCtx c fun x => x.setMove sub { x.move sub with state := 0, written := false }).askSub c (s.leaf c sub)
        (2, c, s.restage c tier loc off read)
      | none => (1, c, (s.physWrite tier loc line (List.replicate 128 0)).raise (lineUnit tier loc) none 0x2203 (w4 (lineInfo tier loc off)))
  | _ => (4, c, s.ctxFault (xlatUnit c) c 0x4201 (w4 [2] ++ leBytes (loc * 65536 + off) 8))

/-- Retires a Basin subpage whose line fails again (R173); a copy in it gives way to its home, and a clean one is
staged anew (R202). -/
def State.retireSub (s : State) (loc : Nat) : State :=
  let d := loc / 512
  let i := loc % 512
  if s.basinRetired loc then s
  else
    let u := tget Use.none s.basinUse loc
    let s := s.setFld R.BASIN_RETIRED.SUBPAGE d (i / 32) (setBit (s.fld R.BASIN_RETIRED.SUBPAGE d (i / 32)) (i % 32))
    let s := s.put R.BASIN_STATUS.RETIRED d (s.fld R.BASIN_STATUS.RETIRED d + 1)
    let s := s.raise (.page .basin d) none 0x2205 (w4 [d, i])
    match subOf (s.ctx u.ctx).copies 0 loc with
    | none => s
    | some sub =>
      let k := (s.ctx u.ctx).copy sub
      if k.state = 0 ∨ k.state = 1 then
        let s := ((s.withdraw u.ctx sub).modCtx u.ctx fun x => x.setCopy sub Copy.none).drop u.ctx 0 loc
        (s.stageSub u.ctx sub k.tier k.pin k.why k.layer).2
      else
        let s := s.leafTo u.ctx sub (leafTier k.home) (leafLoc k.home)
        let s := ((s.modCtx u.ctx fun x => x.setCopy sub Copy.none).drop u.ctx 0 loc).invalidate u.ctx (sub / 32)
        if bit (s.leaf u.ctx sub) 2 then s else (s.stageSub u.ctx sub k.tier k.pin k.why k.layer).2

/-- An uncorrectable error in a Basin line (R172, R173): charged, counted and recorded. `again` says that the read
back after the rewrite shows another. -/
def State.basinUe (s : State) (loc off : Nat) (scrub again : Bool) : State :=
  let d := loc / 512
  let s := s.bumpSat R.BASIN_UE_COUNT.COUNT d 0
  let r := s.charge 0 loc off (!scrub)
  let s := if again then r.2.2.retireSub loc else r.2.2
  let outcome := if again then 5 else r.1
  let s := (s.put R.BASIN_UE_LAST.LINE d (loc % 512 * 512 + off / 128)).put R.BASIN_UE_LAST.OUTCOME d outcome
  let s := (s.put R.BASIN_UE_LAST.SCRUB d (b2n scrub)).put R.BASIN_UE_LAST.CTX d r.2.1
  s.put R.BASIN_UE_LAST.TICK_LO d (s.tick % 2 ^ 32)

/-- A corrected error in a Basin line (R170). -/
def State.basinCe (s : State) (loc off : Nat) : State :=
  let d := loc / 512
  let s := s.bumpSat R.BASIN_CE_COUNT.COUNT d 0
  if s.on R.BASIN_CTRL.CE_EVT_EN d then
    s.raiseOnce (toldKey 0x2202 d) 1000 (.page .basin d) none 0x2202 (w4 [d, loc % 512 * 512 + off / 128])
  else s

/-- A corrected error at an HBM controller (R200). -/
def State.hbmCeAt (s : State) (loc off : Nat) : State :=
  let k := loc / 393216
  ({ s with hbmCe := tset 0 s.hbmCe k (tget 0 s.hbmCe k + 1) } : State).raiseOnce (toldKey 0x2206 k) 1000 (.other 0x24 k) none
    0x2206 (w4 [k] ++ leBytes (loc * 65536 + off) 8)

/-- What the check bits of a read of T1 or T2 show: the state after correction or attribution. -/
def State.lineEcc (s : State) (tier loc off : Nat) (e : Ecc) : State :=
  match e with
  | .ok => s
  | .corrected _ _ => if tier = 0 then s.basinCe loc off else s.hbmCeAt loc off
  | .uncorrectable => if tier = 0 then s.basinUe loc off false false else (s.charge tier loc off true).2.2

/-! ### Transfers (R183-R190, R202, R203) -/

/-- A successful transfer on a T3 path clears its failure mark (R184). -/
def State.pathOk (s : State) (c tier : Nat) : State :=
  if 2 ≤ tier then s.put R.SLUICE_STATUS.HOME_FAIL c (clrBit (s.fld R.SLUICE_STATUS.HOME_FAIL c) (tier - 2)) else s

/-- A transfer to or from T3 has failed after its retries (R184). -/
def State.pathFailed (s : State) (c e sub : Nat) : State :=
  let s := s.bump R.SLUICE_T3_FAILS.COUNT c
  let s := s.put R.SLUICE_STATUS.HOME_FAIL c (setBit (s.fld R.SLUICE_STATUS.HOME_FAIL c) (leafTier e - 2))
  let node := if leafTier e = 3 then field (leafLoc e) 24 12 else 0
  s.raise (sluiceUnit c) (some c) 0x2211 (w4 [leafTier e, node] ++ leBytes (sub * 65536) 8)

/-- The 65,536 bytes of a subpage: from T1 or T2, or as T3 answered. -/
def State.subBytes (s : State) (e : Nat) (data : List Byte) : List Byte :=
  if 2 ≤ leafTier e then data.take 65536 ++ List.replicate (65536 - data.length) 0
  else s.physRead (leafTier e) (leafLoc e) 0 65536

/-- Puts a subpage's bytes at a location of any tier. -/
def State.subPut (s : State) (c tier loc : Nat) (bs : List Byte) : State :=
  if 2 ≤ tier then (s.farWrite tier loc 0 bs).pathOk c tier
  else
    let s := s.physWrite tier loc 0 bs
    if tier = 1 then s.hbmBytes c 65536 else s

/-- HBM bytes that a transfer's source costs (R421). -/
def State.subCost (s : State) (c e : Nat) : State :=
  if leafTier e = 1 then s.hbmBytes c 65536 else s.pathOk c (leafTier e)

/-- A copy's fill ends: a stale one starts again; a clean read-only one switches at once, any other at the next
boundary (R186, R187). -/
def State.fillDone (s : State) (c sub : Nat) (data : List Byte) : State :=
  let k := (s.ctx c).copy sub
  let e := s.leaf c sub
  if k.written then (s.modCtx c fun x => x.setCopy sub { k with written := false, retries := 0 }).askSub c e
  else
    let s := (s.subCost c e).subPut c k.tier k.loc (s.subBytes e data)
    let s := (s.bump R.SLUICE_STAGED.COUNT c).modCtx c fun x => x.setCopy sub { k with state := 1 }
    if k.immediate && !bit e 2 then (s.switchIn c sub).invalidate c (sub / 32)
    else s.internalEdit c 1 20 0 (sub * 65536) 0 1

/-- A destination of a MOVE, of a copy moving up or of a copy-on-write has been filled; a stale fill starts again. -/
def State.moveDone (s : State) (c sub : Nat) (data : List Byte) : State :=
  let m := (s.ctx c).move sub
  let e := s.leaf c sub
  if m.written then (s.modCtx c fun x => x.setMove sub { m with written := false, retries := 0 }).askSub c e
  else
    let s := (s.subCost c e).subPut c m.tier m.loc (s.subBytes e data)
    let s := s.modCtx c fun x => x.setMove sub { m with state := 1 }
    let s := if m.tier ≤ 1 ∧ m.why ≠ 4 then s.bump R.SLUICE_STAGED.COUNT c else s
    s.internalEdit c 1 (if m.why = 3 then 23 else 22) 0 (sub * 65536) 0 1

/-- A write-back ends (R182): one overtaken by a write starts again; otherwise the copy is clean, and is switched away
where it was being evicted. -/
def State.writtenBack (s : State) (c sub : Nat) : State :=
  let k := (s.ctx c).copy sub
  if k.written then s.modCtx c fun x => x.setCopy sub { k with written := false, retries := 0 }
  else
    let s := s.subPut c (leafTier k.home) (leafLoc k.home) (s.physRead k.tier k.loc 0 65536)
    let s := if k.tier = 1 then s.hbmBytes c 65536 else s
    let s := (s.bump R.SLUICE_WRITTEN_BACK.COUNT c).modCtx c fun x =>
      x.setCopy sub { k with state := 2, dirty := false, stuck := false, back := false }
    if k.back then s.unmap c sub else s

/-- A refill ends: the copy is readable again (R202). -/
def State.refilled (s : State) (c sub : Nat) (data : List Byte) : State :=
  let k := (s.ctx c).copy sub
  let s := (s.subCost c k.home).subPut c k.tier k.loc (s.subBytes k.home data)
  (s.bump R.SLUICE_STAGED.COUNT c).modCtx c fun x => x.setCopy sub { k with state := 2, dirty := false, written := false }

/-- A transfer has failed for good (R184, R195, R199, R202, R203). -/
def State.transferFailed (s : State) (c sub : Nat) : State :=
  let x := s.ctx c
  let k := x.copy sub
  let m := x.move sub
  if m != Copy.none && decide (m.state = 0) then
    let e := if 2 ≤ leafTier (s.leaf c sub) then s.leaf c sub else mkLeaf 0 m.tier m.loc
    let s := s.pathFailed c e sub
    let s := if m.tier = 1 ∧ 2 ≤ leafTier e then s.tierFault c (leafTier e) (leafLoc e) else s
    ((s.drop c m.tier m.loc).modCtx c fun x => x.setMove sub Copy.none).cmdFail c sub 3
  else if k.state = 0 then
    let s := s.pathFailed c (s.leaf c sub) sub
    let s := (s.drop c k.tier k.loc).modCtx c fun x => x.setCopy sub Copy.none
    if k.why = 1 then s.cmdFail c sub 3
    else s.stageFailed c k.why k.layer k.tier 1
  else if k.state = 3 then
    let s := s.pathFailed c k.home sub
    let s := s.modCtx c fun x => x.setCopy sub { k with state := 2, stuck := true, back := false }
    (s.raise (sluiceUnit c) (some c) 0x2212 (leBytes (sub * 65536) 8)).cmdFail c sub 3
  else if k.state = 6 then
    let s := s.pathFailed c k.home sub
    (s.loseDirty c k.tier k.loc 0).2
  else s

/-- One transfer of a subpage has ended: `failed` is one failure of a T3 transfer, retried up to three times (R184); a
pooled one fails at once where UIO was not negotiated (R400); `ue` is an uncorrectable error in what was read from T1 or T2. -/
def State.transferDone (s : State) (c sub : Nat) (data : List Byte) (failed ue : Bool) : State :=
  let x := s.ctx c
  let k := x.copy sub
  let m := x.move sub
  let moving := m != Copy.none && decide (m.state = 0)
  let src := if !moving && decide (k.state = 3) then mkLeaf 0 k.tier k.loc
    else if !moving && decide (k.state = 6) then k.home else s.leaf c sub
  let t3 := decide (2 ≤ leafTier src) || (moving && decide (2 ≤ m.tier)) || (decide (k.state = 3) && decide (2 ≤ leafTier k.home))
  let pooled := decide (leafTier src = 2) || (moving && decide (m.tier = 2)) || (decide (k.state = 3) && decide (leafTier k.home = 2))
  if !x.inFlight sub || s.halted then s
  else if pooled && !s.on R.WHARF_LINK.UIO then s.transferFailed c sub
  else if ue && decide (leafTier src ≤ 1) then s.lineEcc (leafTier src) (leafLoc src) 0 .uncorrectable
  else if failed && t3 then
    if moving then
      if m.retries < 3 then (s.modCtx c fun x => x.setMove sub { m with retries := m.retries + 1 }).askSub c src
      else s.transferFailed c sub
    else if k.retries < 3 then (s.modCtx c fun x => x.setCopy sub { k with retries := k.retries + 1 }).askSub c src
    else s.transferFailed c sub
  else if moving then s.moveDone c sub data
  else if k.state = 0 then s.fillDone c sub data
  else if k.state = 3 then s.writtenBack c sub
  else s.refilled c sub data

/-- A write of a T1 or T2 subpage from outside the translation counts as a write of what the Sluice holds there (R182,
R187, R399): a copy at that place, or a home that a transfer is reading. -/
def State.noteLoc (s : State) (tier loc : Nat) : State :=
  let c := (tget Use.none (if tier = 0 then s.basinUse else s.hbmUse) loc).ctx
  let x := s.ctx c
  let hits := (x.copies.filter fun e => decide (e.2.tier = tier ∧ e.2.loc = loc) ||
      (decide (e.2.state ≤ 1) && leafAt e.2.home tier loc)).map Prod.fst ++
    (x.moves.filter fun e => leafAt e.2.home tier loc).map Prod.fst
  s.modCtx c fun x => hits.foldl Ctx.noteWrite x

/-! ### Release (R189) -/

/-- An access of the context in flight still uses a location. -/
def State.locInUse (s : State) (c tier loc : Nat) : Bool :=
  (s.coresOf c).any fun n => (s.core n).xops.any fun x => x.sel.any fun e => decide (x.kind = 0x30) && leafAt e tier loc

/-- Frees the RELEASING locations that no reader can still hold, then starts what waited for their space. -/
def State.freeReleased (s : State) (c : Nat) : State :=
  let ready (r : Release) : Bool := decide (r.epoch ≤ s.oldest c) && !s.locInUse c r.tier r.loc
  let l := (s.ctx c).releases
  let s := s.modCtx c fun x => { x with releases := x.releases.filter fun r => !ready r }
  let s := (l.filter ready).foldl (fun s r =>
    if r.isCopy then s.drop c r.tier r.loc else s.dropHome c r.tier r.loc) s
  ((s.fillWaiting c 0).fillWaiting c 1).cmdAdvance c

/-- A quota lowered below usage evicts clean victims down to it (R197). -/
def State.quotaCut (s : State) (c tier : Nat) : State :=
  let excess := s.usage c tier - s.fld R.SLUICE_QUOTA.LIMIT c tier
  (List.range (min excess ((s.ctx c).copies.length))).foldl (fun s _ =>
    match s.victim c tier false with
    | (some v, s) => s.evictCopy c v
    | (none, s) => s) s

end Sys2Proof.Machine
end

