-- ==== Sys2Proof/Machine/CoreOps.lean ====
section
/-! DEFINITION. Machine/CoreOps.lean: what a core does beside its arithmetic: translation through its TLBs, fetch,
exceptions, transfer tags, the scratchpad's error reports and writes from outside (R90-R105, R164-R171, R212-R216;
03_suina_core.md, 06_scratchpads_and_basin.md, 08_translation_and_sequence_ranges.md). -/
namespace Sys2Proof.Machine

def coreUnit (n : Nat) : Raiser := .page .core n
def dieOf (n : Nat) : Nat := n / 64
def State.ctxOf (s : State) (n : Nat) : Nat := s.fld R.CORE_STATE.CTX n

/-! ### Exceptions (R91-R93) -/

/-- Takes an exception: the core is TRAPPED, the bundle's address, the cause and slot, and the data address are saved,
and its context ends. -/
def State.trap (s : State) (n cause slot addr : Nat) : State :=
  let pc := (s.core n).pc.toNat
  let s := s.stopCore n coreTrapped
  let s := (s.put R.CORE_EPC.PC n pc).put R.CORE_ECAUSE.CAUSE n cause
  let s := (s.put R.CORE_ECAUSE.SLOT n slot).put R.CORE_EADDR.ADDR n addr
  s.ctxFault (coreUnit n) (s.ctxOf n) 0x4101 (w4 [n, cause + 256 * slot] ++ leBytes pc 8)

/-! ### Translation by a core (R212-R216, R228) -/

/-- What a translation by a core comes to. -/
inductive Xlat where
  | ok (e : Nat)
  | wait
  | fail
  deriving DecidableEq, Repr

/-- A TLB with an entry added; a full one of `size` entries loses one that the spec does not name (log entry 10). -/
def tlbAdd (t : List TlbEntry) (size draw : Nat) (e : TlbEntry) : List TlbEntry :=
  if t.length < size then t ++ [e] else t.eraseIdx (draw % size) ++ [e]

/-- Puts a leaf into a core's instruction or data TLB. -/
def State.tlbInstall (s : State) (n : Nat) (fetch : Bool) (leaf c e : Nat) : State :=
  let r := s.freeNat 32
  r.2.modCore n fun k =>
    if fetch then { k with itlb := tlbAdd k.itlb 32 r.1 ⟨leaf, c, e⟩ } else { k with dtlb := tlbAdd k.dtlb 64 r.1 ⟨leaf, c, e⟩ }

/-- Starts a walk on a die unless one for the page runs there already, or 16 do (R213). -/
def State.startWalk (s : State) (die c va cls : Nat) (write fetch : Bool) : State :=
  let mine := s.walks.filter fun w => decide (w.die = die)
  if mine.any (fun w => decide (w.ctx = c ∧ w.page = va / 2 ^ 21)) then s
  else if 16 ≤ mine.length then s
  else { s.bump R.XLAT_TLB_MISSES.COUNT c with
    walks := s.walks ++ [⟨die, c, va / 2 ^ 21, false, false, false, false, write, fetch, cls, va⟩] }

/-- A walk that has failed the access to a page for good (R228). -/
def Walk.failsFor (w : Walk) (die c va : Nat) : Bool := w.failed && decide (w.die = die ∧ w.ctx = c ∧ w.page = va / 2 ^ 21)

/-- Takes the failed walk of an access out; false where there is none. -/
def State.takeFailed (s : State) (die c va : Nat) : Bool × State :=
  if s.walks.any fun w => w.failsFor die c va then
    (true, { s with walks := s.walks.filter fun w => !w.failsFor die c va })
  else (false, s)

/-- A leaf allows a core's access: permission, and T1 or T2 for a fetch. -/
def coreGrants (e need : Nat) : Bool := leafOk e && leafGrants e need && !(decide (need = 3) && decide (2 ≤ leafTier e))

/-- A translation by core `n`: through its own TLB, then the die's; a miss starts a walk and waits. In host-assisted
mode an entry with V = 0 is first handled by a walk (R228). -/
def State.coreXlat (s : State) (n va need : Nat) : Xlat × State :=
  let c := s.ctxOf n
  let die := dieOf n
  let fetch := decide (need = 3)
  let tlb := if fetch then (s.core n).itlb else (s.core n).dtlb
  let failed := s.takeFailed die c va
  if !s.vaInRange c va || failed.1 then (.fail, failed.2.xlatFail c va)
  else
    match tlb.find? fun t => decide (t.leaf = va / 65536 ∧ t.ctx = c) with
    | some t => if coreGrants t.entry need then (.ok t.entry, s) else (.fail, s.xlatFail c va)
    | none =>
      let hit := tget [] s.dieTlb (tlbKey die c (va / 2 ^ 21))
      let e := hit[va / 65536 % 32]?.getD 0
      if hit = [] ∨ (e = 0 ∧ s.on (hdrDutyMode .xlat) c = true) then
        (.wait, s.startWalk die c va 0 (decide (need = 2)) fetch)
      else if coreGrants e need then (.ok e, s.tlbInstall n fetch (va / 65536) c e)
      else (.fail, s.xlatFail c va)

/-- A translation by an engine of a die. In host-assisted mode an entry with V = 0 is first handled by a walk. -/
def State.engXlat (s : State) (die c va need cls : Nat) : Xlat × State :=
  let failed := s.takeFailed die c va
  if failed.1 then (.fail, failed.2.xlatFail c va)
  else if s.on (hdrDutyMode .xlat) c && s.vaInRange c va && decide (s.leaf c (va / 65536) = 0) then
    (.wait, s.startWalk die c va cls (decide (need = 2)) false)
  else
    let r := s.translate die c va need
    if r.1 = 0 then (.fail, r.2) else (.ok r.1, r.2)

/-- A subpage is being refilled, and the memory holds accesses to it (R202). -/
def State.held? (s : State) (c sub : Nat) : Bool := decide (((s.ctx c).copy sub).state = 6 ∧ (s.ctx c).copy sub ≠ Copy.none)

/-! ### Fetch (R97) -/

/-- The bytes of a 512-bit bundle as a number. -/
def bundleBits (bs : List Byte) : BitVec 512 := BitVec.ofNat 512 (ofLe bs)

/-- The instruction-cache line at the PC, if the cache holds it. -/
def Core.line (k : Core) : Option (List Byte) :=
  let l := tget [] k.icache (k.pc.toNat / 64)
  if l = [] then none else some l

/-- Adds a line to the instruction cache of 1,024 lines. -/
def icacheAdd (t : Table (List Byte)) (draw key : Nat) (bs : List Byte) : Table (List Byte) :=
  if t.length < 1024 then tset [] t key bs
  else tset [] (t.filter fun e => decide (some e.1 ≠ t[draw % 1024]?.map Prod.fst)) key bs

/-- Adds a line to the data cache of 512 lines. -/
def dcacheAdd (t : Table (List Byte)) (draw key : Nat) (bs : List Byte) : Table (List Byte) :=
  if t.length < 512 then tset [] t key bs
  else tset [] (t.filter fun e => decide (some e.1 ≠ t[draw % 512]?.map Prod.fst)) key bs

/-- The next bundle of a core: its bytes, or a wait, or a fetch that fails. -/
inductive Fetched where
  | bundle (bits : BitVec 512)
  | wait
  | fail
  deriving DecidableEq, Repr

/-- Fetches the bundle at the PC: from the instruction cache, or through translation from T1 or T2. -/
def State.fetch (s : State) (n : Nat) : Fetched × State :=
  match (s.core n).line with
  | some bs => (.bundle (bundleBits bs), s)
  | none =>
    let pc := (s.core n).pc.toNat
    match s.coreXlat n pc 3 with
    | (.wait, s) => (.wait, s)
    | (.fail, s) => (.fail, s)
    | (.ok e, s) =>
      if s.held? (s.ctxOf n) (pc / 65536) then (.wait, s)
      else
        let bs := s.physRead (leafTier e) (leafLoc e) pc 64
        let r := s.freeNat 32
        let s := r.2.modCore n fun k => { k with icache := icacheAdd k.icache r.1 (pc / 64) bs }
        (.bundle (bundleBits bs), if leafTier e = 1 then s.hbmBytes (s.ctxOf n) 64 else s)

/-! ### Tags and X-slot operations (R90) -/

/-- Marks a tag BUSY. -/
def Core.tagBusy (k : Core) (t : Nat) : Core := k.setTag t ⟨true, 0, false⟩

/-- Completes a tag, and takes its operation out. -/
def Core.tagDone (k : Core) (t status : Nat) (wcoll : Bool) : Core :=
  { k.setTag t ⟨false, status, wcoll⟩ with xops := k.xops.filter fun x => decide (x.tag ≠ t) }

/-- Records an operation dispatched with a tag. -/
def State.xPend (s : State) (n : Nat) (x : XPend) : State :=
  s.modCore n fun k => { k.tagBusy x.tag with xops := k.xops ++ [{ x with epoch := s.epoch (s.ctxOf n) }] }

def XPend.mk' (tag kind a b c d : Nat) : XPend := ⟨tag, kind, a, b, c, d, [], 0, [], false⟩

/-- An operation that completes at once with status 0. -/
def State.xDone (s : State) (n tag : Nat) : State := s.modCore n fun k => k.tagDone tag 0 false

/-- The pending operation of a kind with a tag. -/
def Core.xop (k : Core) (tag kind : Nat) : Option XPend := k.xops.find? fun x => decide (x.tag = tag ∧ x.kind = kind)

/-! ### The scratchpad's reports (R164-R171) -/

/-- Counts a dropped write of a port of core `n`'s scratchpad (R165). -/
def State.wcoll (s : State) (n port : Nat) : State :=
  let d := n / 64
  let c := n % 64
  let f := if port = 0 then R.SCR_WCOLL.P0 else if port = 1 then R.SCR_WCOLL.P1 else R.SCR_WCOLL.P2
  let new := !s.on f d c
  let s := (s.setFld f d c 1).bumpSat R.SCR_WCOLL.COUNT d c
  if new && s.on R.SCR_DIE_CTRL.WCOLL_EVT_EN d then s.raise (.page .scr d) none 0x0201 (w4 [n, port]) else s

/-- Writes bytes but for the 64-byte words that a higher-numbered port wins (R164). -/
def Core.scrWriteBut (k : Core) (a : Nat) (bs : List Byte) (drop : List Nat) : Core :=
  if drop = [] then k.scrWrite a bs
  else { k with scr := (bs.foldl (fun (p : Nat × Table Byte) b =>
    (p.1 + 1, if drop.contains (p.1 / 64) then p.2 else tset 0#8 p.2 p.1 b)) (a, k.scr)).2 }

/-- Words of a write that are lost. -/
def lostWords (a n : Nat) (drop : List Nat) : List Nat :=
  drop.eraseDups.filter fun w => decide (a / 64 ≤ w) && decide (w * 64 < a + n)

/-- A write of a port into core `n`'s scratchpad, with its lost words reported (R164, R165). -/
def State.scrPut (s : State) (n port a : Nat) (bs : List Byte) (drop : List Nat) : State :=
  (lostWords a bs.length drop).foldl (fun s _ => s.wcoll n port) (s.modCore n fun k => k.scrWriteBut a bs drop)

/-- A corrected error in core `n`'s scratchpad (R170). -/
def State.scrCe (s : State) (n bank row : Nat) : State :=
  let d := n / 64
  let s := s.bumpSat R.SCR_CE.COUNT d (n % 64)
  let s := (s.setFld R.SCR_CE.LAST_BANK d (n % 64) bank).setFld R.SCR_CE.LAST_ROW d (n % 64) row
  if s.on R.SCR_DIE_CTRL.CE_EVT_EN d then s.raiseOnce (toldKey 0x2201 d) 1000 (.page .scr d) none 0x2201 (w4 [n, bank, row]) else s

/-- What the check bits of a scratchpad read show: an uncorrectable error fences the core (R170, R171). -/
def State.scrEcc (s : State) (n : Nat) (e : Ecc) : State :=
  match e with
  | .ok => s
  | .corrected bank row => s.scrCe n bank row
  | .uncorrectable => s.fenceCore n 1

/-- A write of an outside agent into a scratchpad through P2: discarded and counted while the core is FENCED (R108). -/
def State.scrInbound (s : State) (n a : Nat) (bs : List Byte) : State :=
  if s.coreState n = coreFenced then s.modCore n fun k => { k with dropped := k.dropped + 1 }
  else s.modCore n fun k => k.scrWrite a bs

/-! ### Memory accesses of a core -/

/-- Writes at a leaf's location for a core of context `c`, with what a write does to the Sluice's copies (R182). -/
def State.leafWrite (s : State) (c e va : Nat) (bs : List Byte) : State :=
  let s := s.modCtx c fun x => x.noteWrite (va / 65536)
  if 2 ≤ leafTier e then s.farWrite (leafTier e) (leafLoc e) (va % 65536) bs
  else
    let s := s.physWrite (leafTier e) (leafLoc e) va bs
    if leafTier e = 1 then s.hbmBytes c bs.length else s

/-- Updates the data-cache line that holds written bytes, if it is present (R98); a line of it that a load has asked for
will not be filled. -/
def Core.dcacheWrite (k : Core) (va : Nat) (bs : List Byte) : Core :=
  let k := { k with pend := k.pend.map fun p => if p.line = va / 64 then { p with fill := false } else p }
  let l := tget [] k.dcache (va / 64)
  if l = [] then k
  else { k with dcache := tset [] k.dcache (va / 64) (l.take (va % 64) ++ bs ++ l.drop (va % 64 + bs.length)) }

/-- Drops the data-cache lines that hold a byte of a range; all of them for a length of 0 (R85). -/
def Core.dinv (k : Core) (a n : Nat) : Core :=
  { k with dcache := if n = 0 then [] else k.dcache.filter fun e => !(decide (e.1 * 64 < a + n) && decide (a < e.1 * 64 + 64)) }

/-- The CORE scope is open and reaches core `n` (R484, R485). -/
def State.coreScope (s : State) (n : Nat) : Bool :=
  bit (s.fld R.DBG_SCOPE.SCOPES) 0 &&
    (decide (s.coreState n = coreIdle) || bit (s.fld R.DBG_SCOPE.MASK) (s.ctxOf n))

end Sys2Proof.Machine
end

