-- ==== Sys2Proof/Machine/AssayOps.lean ====
section
/-! DEFINITION. Machine/AssayOps.lean: the sampling of tiles, the comparison and the helm's layer states
(R137-R158; 05_assay_width_control.md). -/
namespace Sys2Proof.Machine

def assayRaiser (c : Nat) : Raiser := .page .assay c

/-! ### What is in force (R158) -/

/-- `ASSAY_LCFG[l]` as the register reads. -/
def State.lcfgReg (s : State) (c l : Nat) : Nat :=
  s.fld R.ASSAY_LCFG.EN c l + 2 * s.fld R.ASSAY_LCFG.ACTION c l + 8 * s.fld R.ASSAY_LCFG.RATE c l +
    256 * s.fld R.ASSAY_LCFG.FBW c l + 4096 * s.fld R.ASSAY_LCFG.DRAFT c l + 65536 * s.fld R.ASSAY_LCFG.HOLD c l

/-- The layer table in force: that of the step's start while a step is in flight, the registers otherwise. -/
def State.lcfg (s : State) (c l : Nat) : Nat :=
  if (s.ctx c).member.active then tget lcfgReset (s.ctx c).lcfg l else s.lcfgReg c l

/-- Takes the layer table over for a step that starts. -/
def State.takeLcfg (s : State) (c : Nat) : State :=
  s.modCtx c fun x => { x with
    lcfg := (List.range 256).foldl (fun t l => tset lcfgReset t l (s.lcfgReg c l)) []
    lthresh := (List.range 256).foldl (fun t l => tset lthreshReset t l (s.fld R.ASSAY_LTHRESH.THRESH c l)) [] }

def layerEn (cfg : Nat) : Bool := bit cfg 0
def layerAction (cfg : Nat) : Nat := field cfg 1 2
def layerRate (cfg : Nat) : Nat := field cfg 3 5
def layerDraft (cfg : Nat) : Bool := bit cfg 12
def layerHold (cfg : Nat) : Nat := field cfg 16 16

/-! ### Sampling (R139, R142, R143) -/

/-- The tile of ordinal `t` in layer `l` is sampled in the current step. -/
def State.sampled (s : State) (c l t : Nat) : Bool :=
  s.on R.ASSAY_CTRL.EN c && layerEn (s.lcfg c l) && decide (s.fld R.ASSAY_LSTATE.STATE c l ≠ 3) &&
    s.on R.ASSAY_LSTATE.REF_READY c l &&
    decide ((t + s.fld R.STEP_NUMBER.STEP c) % 2 ^ layerRate (s.lcfg c l) = 0)

/-- Both operations act only where the Assay runs for the layer (R143). -/
def State.assayOn (s : State) (c l : Nat) : Bool := s.on R.ASSAY_CTRL.EN c && layerEn (s.lcfg c l)

/-- `X_ASEL`: the record of 512 ordinals. -/
def State.xAsel (s : State) (n tag dst l obase : Nat) : State :=
  let c := s.ctxOf n
  let v := bitMap 512 fun i => s.sampled c l (obase * 512 + i)
  (s.modCore n fun k => k.scrWrite (dst * 64) (leBytes v 64)).xDone n tag

/-! ### The comparison (R144-R146) -/

/-- Core `n` has an `X_ASSAY` the unit has not granted. -/
def State.assayWaits (s : State) (n : Nat) : Bool :=
  (s.core n).xops.any fun x => decide (x.kind = 0x40) && !x.granted

/-- Die `d`'s unit, if free, grants the next core in rotation. -/
def State.assayGrant (s : State) (d : Nat) : State :=
  if tget 0 s.assayUnit d ≠ 0 then s
  else
    let waits (i : Nat) : Bool := s.assayWaits (64 * d + i)
    match rotPick 64 (tget 0 s.assayPtr d) waits with
    | none => s
    | some i =>
      let s := { s with
        assayUnit := tset 0 s.assayUnit d (64 * d + i + 1)
        assayPtr := tset 0 s.assayPtr d (rotNext 64 (tget 0 s.assayPtr d) i waits) }
      s.modCore (64 * d + i) fun k => { k with
        xops := k.xops.map fun x => if x.kind = 0x40 then { x with granted := true } else x }

/-- `X_ASSAY`: a request of the die's unit, or dropped at once. -/
def State.xAssay (s : State) (n tag nsrc rsrc rowsM1 l ord : Nat) : State :=
  let c := s.ctxOf n
  if s.assayOn c l then
    (s.xPend n { XPend.mk' tag 0x40 (nsrc * 64) (rsrc * 64) (rowsM1 + 256 * l) ord with granted := false }).assayGrant (dieOf n)
  else (s.bump R.ASSAY_DROPPED.COUNT c).xDone n tag

def FVal.abs : FVal → FVal
  | .nan => .nan
  | .inf _ => .inf false
  | .fin _ m e => .fin false m e

def FVal.finite : FVal → Bool
  | .fin .. => true
  | _ => false

/-- Rounds a finite value to double precision. -/
def toDouble (v : FVal) : FVal := decodeF fp64 (encodeF fp64 v 0)

/-- The sum of a list in double precision, in order. -/
def sumDouble (l : List FVal) : FVal := l.foldl (fun a v => toDouble (a.add v)) (.fin false 0 0)

/-- Numerator and denominator of the quotient of two non-negative values times 65,536. -/
def ratioFix (a b : FVal) : Nat :=
  match a, b with
  | .fin _ ma ea, .fin _ mb eb =>
    let t := min ea eb
    ma * 2 ^ (ea - t).toNat * 65536 / (mb * 2 ^ (eb - t).toNat)
  | _, _ => 0xFFFFFFFF

def FVal.isZero : FVal → Bool
  | .fin _ m _ => decide (m = 0)
  | _ => false

/-- The FP32 values of rows of sixteen, from bytes. -/
def tileValues (bs : List Byte) (n : Nat) : List FVal :=
  (List.range n).map fun i => decodeF fp32 (ofLe ((bs.drop (4 * i)).take 4))

/-- E of a sample in 16.16, or none where it is discarded (R145; log entry 36: the quotient is truncated exactly). -/
def sampleError (nb rb : List Byte) (rows : Nat) : Option Nat :=
  let ns := tileValues nb (16 * rows)
  let rs := tileValues rb (16 * rows)
  if rs.any fun v => !v.finite then none
  else if ns.any fun v => !v.finite then some 0xFFFFFFFF
  else
    let a := sumDouble ((ns.zip rs).map fun (p : FVal × FVal) => (toDouble (p.1.sub p.2)).abs)
    let b := sumDouble (rs.map FVal.abs)
    if b.isZero then some (if a.isZero then 0 else 0xFFFFFFFF) else some (min (ratioFix a b) 0xFFFFFFFF)

/-- Records a sample of a layer on a die. -/
def Ctx.addSample (x : Ctx) (die l e : Nat) : Ctx :=
  let k := 256 * die + l
  { x with
    errs := tset 0 x.errs k (max (tget 0 x.errs k) (e + 1))
    counts := tset 0 x.counts k (tget 0 x.counts k + 1) }

/-- What a comparison records. -/
def State.assayRecord (s : State) (c die l : Nat) (e : Option Nat) : State :=
  match e with
  | none => s.bump R.ASSAY_SKIPPED.COUNT c
  | some e =>
    let s := s.modCtx c fun x => x.addSample die l e
    if s.helm c then s else s.bump R.ASSAY_SAMPLES.COUNT c

/-- Combines the dies' results of a step: layer, largest E and count (R146). -/
def Ctx.assayReport (x : Ctx) : List (Nat × Nat × Nat) :=
  (List.range 256).filterMap fun l =>
    let n := ((List.range 8).map fun d => tget 0 x.counts (256 * d + l)).foldl (· + ·) 0
    let e := ((List.range 8).map fun d => tget 0 x.errs (256 * d + l)).foldl max 0
    if n = 0 then none else some (l, e - 1, n)

/-! ### The helm's layer states (R148-R156) -/

def State.lstate (s : State) (c l : Nat) : Nat := s.fld R.ASSAY_LSTATE.STATE c l
def State.setLstate (s : State) (c l v : Nat) : State := s.setFld R.ASSAY_LSTATE.STATE c l v

/-- Layers in a state. -/
def State.layersIn (s : State) (c v : Nat) : List Nat := (List.range 256).filter fun l => decide (s.lstate c l = v)

/-- `ASSAY_STATUS` follows the layer states. -/
def State.assaySync (s : State) (c : Nat) : State :=
  (s.put R.ASSAY_STATUS.QDEPTH c (s.layersIn c 1).length).put R.ASSAY_STATUS.HELD c
    ((s.layersIn c 2).length + (s.layersIn c 3).length)

/-- A layer enters NARROW (R152); `t` is the first step built after it. -/
def State.enterNarrow (s : State) (c l t : Nat) : State :=
  let s := (s.setLstate c l 0).setFld R.ASSAY_LSTATE.HOLD_LEFT c l 0
  let s := s.modCtx c fun x => { x with narrowAt := tset 0 x.narrowAt l t, overshoot := tset 0 x.overshoot l 0,
                                        stageFail := x.stageFail.filter fun k => k != l }
  s.raise (assayRaiser c) (some c) 0x0183 (w4 [l])

/-- A layer enters WIDENED with its hold count at HOLD. -/
def State.enterWidened (s : State) (c l : Nat) : State :=
  let s := (s.setLstate c l 3).setFld R.ASSAY_LSTATE.HOLD_LEFT c l (layerHold (s.lcfgReg c l))
  s.raise (assayRaiser c) (some c) 0x0184 (w4 [l, layerHold (s.lcfgReg c l)])

/-- A widen request (R150). -/
def State.widenRequest (s : State) (c l overshoot : Nat) : State :=
  match s.lstate c l with
  | 0 => (s.setLstate c l 1).modCtx c fun x => { x with overshoot := tset 0 x.overshoot l overshoot }
  | 1 => s.modCtx c fun x => { x with overshoot := tset 0 x.overshoot l (max (tget 0 x.overshoot l) overshoot) }
  | 2 => s
  | _ => s.setFld R.ASSAY_LSTATE.HOLD_LEFT c l (layerHold (s.lcfgReg c l))

/-- The verdict of a layer over threshold (R148, R156). -/
def State.overThreshold (s : State) (c l e thr : Nat) : State :=
  let step := s.fld R.STEP_NUMBER.STEP c
  let act := layerAction (tget lcfgReset (s.ctx c).lcfg l)
  let s := (s.bump R.ASSAY_OVER.COUNT c).put R.ASSAY_LAST_LAYER.LAYER c l
  let s := (s.put R.ASSAY_LAST_ERR.ERR c e).put R.ASSAY_LAST_STEP.STEP c step
  let s := if bit act 0 then s.raise (assayRaiser c) (some c) 0x0181 (w4 [l, step, e, thr]) else s
  if !bit act 1 then s
  else if s.hostAssisted .assay c then
    s.dutyRequest c 7 (l + 256 * (e - thr))
      (leBytes l 1 ++ List.replicate 7 0 ++ leBytes step 8 ++ leBytes e 4 ++ leBytes thr 4 ++ leBytes (e - thr) 4)
  else s.widenRequest c l (e - thr)

/-- Step 1 of R151: the committed reports of the step, layer by layer; one from before the layer's last entry to
NARROW is dropped (R147). -/
def State.verdicts (s : State) (c : Nat) : State :=
  let x := s.ctx c
  let s := x.repCount.foldl (fun s r =>
    let l := r.1
    let e := tget 0 x.repErr l - 1
    let thr := tget lthreshReset x.lthresh l
    if s.fld R.STEP_NUMBER.STEP c < tget 0 x.narrowAt l then s.bump R.ASSAY_DROPPED.COUNT c
    else
      let s := s.bump R.ASSAY_SAMPLES.COUNT c r.2
      if thr < e then s.overThreshold c l e thr else s) s
  s.modCtx c fun x => { x with repErr := [], repCount := [] }

/-- Step 2 of R151: CLEAR and FORCE_WIDEN written since the last boundary, in order. -/
def State.layerWrites (s : State) (c : Nat) : State :=
  let next := s.fld R.STEP_NUMBER.STEP c + 1
  let l := (s.ctx c).layerCmds
  l.foldl (fun (s : State) (w : Nat × Bool) =>
      if w.2 then s.widenRequest c w.1 0xFFFFFFFF
      else if s.lstate c w.1 = 0 then s else s.enterNarrow c w.1 next)
    (s.modCtx c fun x => { x with layerCmds := [] })

/-- Layer `l`'s fall-back copy is resident on every member (R140). -/
def State.residentAll (s : State) (c l : Nat) : Bool :=
  decide (tget 0 (s.ctx c).resident l = bitMap (s.fld R.STEP_NODE_COUNT.COUNT c) fun _ => true) &&
    decide (s.fld R.STEP_NODE_COUNT.COUNT c ≠ 0)

/-- Step 3 of R151: hold expiry; `due` are the layers whose count has just come to 0 (R152). -/
def State.holdExpiry (s : State) (c : Nat) (due : List Nat) : State :=
  let next := s.fld R.STEP_NUMBER.STEP c + 1
  due.foldl (fun s l =>
    if s.lstate c l = 3 ∧ s.fld R.ASSAY_LSTATE.HOLD_LEFT c l = 0 ∧ layerHold (s.lcfgReg c l) ≠ 0 then s.enterNarrow c l next
    else s) s

/-- Step 4 of R151: staging outcomes. -/
def State.stagingOutcomes (s : State) (c : Nat) : State :=
  let next := s.fld R.STEP_NUMBER.STEP c + 1
  (s.layersIn c 2).foldl (fun s l =>
    if s.residentAll c l then s.enterWidened c l
    else if (s.ctx c).stageFail.contains l then
      (s.raise (assayRaiser c) (some c) 0x0182 (w4 [l])).enterNarrow c l next
    else s) s

/-- The queued layer with the largest overshoot, the lower number among equals. -/
def State.firstQueued (s : State) (c : Nat) : Option Nat :=
  ((s.layersIn c 1).foldl (fun (best : Option (Nat × Nat)) l =>
    let o := tget 0 (s.ctx c).overshoot l
    match best with
    | none => some (l, o)
    | some b => if b.2 < o then some (l, o) else some b) none).map Prod.fst

/-- Step 5 of R151: one grant, if the widen budget allows it. -/
def State.widenGrant (s : State) (c : Nat) : State :=
  match s.firstQueued c with
  | none => s
  | some l =>
    if (s.layersIn c 2).length + (s.layersIn c 3).length < s.fld R.ASSAY_CTRL.WIDEN_MAX c then
      let s := (s.setLstate c l 2).modCtx c fun x => { x with overshoot := tset 0 x.overshoot l 0 }
      if s.residentAll c l then s.enterWidened c l else s
    else s

/-- The helm's changes at a step boundary (R151, R152). -/
def State.assayBoundary (s : State) (c : Nat) : State :=
  let depth := (s.layersIn c 1).length
  let due := (s.layersIn c 3).filter fun l => decide (s.fld R.ASSAY_LSTATE.HOLD_LEFT c l = 1)
  let s := (s.layersIn c 3).foldl (fun s l =>
    s.setFld R.ASSAY_LSTATE.HOLD_LEFT c l (s.fld R.ASSAY_LSTATE.HOLD_LEFT c l - 1)) s
  let s := (((s.verdicts c).layerWrites c).holdExpiry c due).stagingOutcomes c
  let s := ((List.range 256).foldl (fun s _ => s.widenGrant c) s).assaySync c
  let now := (s.layersIn c 1).length
  if now = depth then s
  else s.raise (assayRaiser c) (some c) 0x1181 (w4 [now, (s.layersIn c 2).length + (s.layersIn c 3).length])

/-- At the COMMIT of a step the helm counts the layers that were not reference-ready in it (R140). -/
def State.assaySkips (s : State) (c : Nat) : State :=
  if s.on R.ASSAY_CTRL.EN c then
    s.bump R.ASSAY_SKIPPED.COUNT c ((List.range 256).filter fun l =>
      layerEn (s.lcfg c l) && !s.on R.ASSAY_LSTATE.REF_READY c l && decide (s.lstate c l ≠ 3)).length
  else s

/-- A main-model layer is QUEUED or STAGING, so that the step's tokens carry `DEGRADED` (R154). -/
def State.degraded (s : State) (c : Nat) : Bool :=
  (s.layersIn c 1 ++ s.layersIn c 2).any fun l => !layerDraft (s.lcfg c l)

end Sys2Proof.Machine
end

