-- ==== Sys2Proof/Machine/GaugeOps.lean ====
section
/-! DEFINITION. Machine/GaugeOps.lean: the Gauges' counts, snapshots and clears (R453-R466; 18_gauges.md). -/
namespace Sys2Proof.Machine

/-- A Gauge in the format of R464: count, and the overflow bit in bit 63. -/
def Core.gaugeWord (k : Core) (g : Nat) : Nat := tget 0 k.gauge g + 2 ^ 63 * b2n (bit k.gaugeOvf g)

/-- The core Gauges of a die are frozen (R460). -/
def State.frozen (s : State) (d : Nat) : Bool := s.on R.GAUGE_CTRL.FREEZE d || s.on R.GAUGE_MCTRL.FREEZE_ALL

/-- The module Gauges are frozen. -/
def State.mfrozen (s : State) : Bool := s.on R.GAUGE_MCTRL.FREEZE || s.on R.GAUGE_MCTRL.FREEZE_ALL

/-- What compiled code of core `n` reads of a Gauge: 0 unless its context may (R464). -/
def State.userGauge (s : State) (n g : Nat) : Nat :=
  if bit (s.fld R.GAUGE_USER_EN.EN) (s.ctxOf n) then (s.core n).gaugeWord g else 0

/-- `X_GSNAP`: the core's sixteen Gauges (R465). -/
def State.xGsnap (s : State) (n tag dst : Nat) : State :=
  let bs := (List.range 16).flatMap fun g => leBytes (s.userGauge n g) 8
  (s.modCore n fun k => k.scrWrite (dst * 64) bs).xDone n tag

/-- Copies a core's Gauges into their shadows. -/
def Core.snapGauges (k : Core) : Core :=
  { k with snapGauge := (List.range 16).foldl (fun t g => tset 0 t g (k.gaugeWord g)) [] }

/-- Snapshot of a die's core Gauges (R461). -/
def State.snapDie (s : State) (d : Nat) : State :=
  let s := { s with cores := s.cores.map fun (e : Nat × Core) =>
    (e.1, if e.1 / 64 = d then e.2.snapGauges else e.2) }
  s.put R.GAUGE_SNAP_TICK.TICK d s.tick

/-- Snapshot of the module Gauges. -/
def State.snapModule (s : State) : State :=
  let s := (List.range 64).foldl (fun s k =>
    (s.setFld R.GAUGE_MSNAP.COUNT 0 k (s.fld R.GAUGE_MVAL.COUNT 0 k)).setFld R.GAUGE_MSNAP.OVF 0 k
      (b2n (bit (s.fld R.GAUGE_MOVF.OVF) k))) s
  s.put R.GAUGE_MSNAP_TICK.TICK 0 s.tick

/-- Snapshot of every Gauge. -/
def State.snapEvery (s : State) : State := ((List.range 8).foldl (fun s d => s.snapDie d) s).snapModule

/-- Clears the Gauges of a core whose bit is set: count and overflow bit (R462). -/
def Core.clearGauges (k : Core) (bits : Nat) : Core :=
  { k with
    gauge := k.gauge.filter fun e => !bit bits e.1
    gaugeOvf := bitMap 16 fun g => bit k.gaugeOvf g && !bit bits g }

/-- All sixteen Gauges, overflow bits and shadows of a core are cleared at its assignment; selections survive (R463). -/
def Core.freshGauges (k : Core) : Core := { k with gauge := [], gaugeOvf := 0, snapGauge := [] }

/-- A core Gauge counts `amount`: past 2^48 − 1 it wraps and sets its overflow bit (R459). -/
def State.countCore (s : State) (n g amount : Nat) : State :=
  let k := s.core n
  let v := tget 0 k.gauge g + amount
  let wraps := decide (2 ^ 48 ≤ v)
  let s := s.modCore n fun k => { k with
    gauge := tset 0 k.gauge g (v % 2 ^ 48)
    gaugeOvf := if wraps then setBit k.gaugeOvf g else k.gaugeOvf }
  if wraps && !bit k.gaugeOvf g && s.on R.GAUGE_CTRL.OVF_EVT_EN (n / 64) then
    s.raise (.page .gauge (n / 64)) none 0x1701 (w4 [n / 64, n % 64, g])
  else s

/-- A module Gauge counts `amount`. -/
def State.countModule (s : State) (g amount : Nat) : State :=
  let v := s.fld R.GAUGE_MVAL.COUNT 0 g + amount
  let was := bit (s.fld R.GAUGE_MOVF.OVF) g
  let s := s.setFld R.GAUGE_MVAL.COUNT 0 g (v % 2 ^ 48)
  if 2 ^ 48 ≤ v then
    let s := s.put R.GAUGE_MOVF.OVF 0 (setBit (s.fld R.GAUGE_MOVF.OVF) g)
    if !was && s.on R.GAUGE_MCTRL.OVF_EVT_EN then s.raise (.page .gaugeM 0) none 0x1701 (w4 [8, 0, g]) else s
  else s

end Sys2Proof.Machine
end

