-- ==== Sys2Proof/Machine/Flags.lean ====
section
/-! DEFINITION. Machine/Flags.lean: the matrix engine's sticky flags, their mirror in the MX page, and its accounting
(R117, R122, R131, R134, R136; 04_matrix_engine_and_pan_arithmetic.md). -/
namespace Sys2Proof.Machine

/-- `MX_FLAGS` field of an engine flag, numbered as in R131: 0 PAN_LOSS, 1 PAN_OVF, 2 PAN_NAN, 3 ACC_INF, 4 RD_SAT,
5 WCOLL, 6 MODE_ERR, 7 BAD_BLOCK. -/
def mxField : Nat → Fd
  | 0 => R.MX_FLAGS.PAN_LOSS | 1 => R.MX_FLAGS.PAN_OVF | 2 => R.MX_FLAGS.PAN_NAN | 3 => R.MX_FLAGS.ACC_INF
  | 4 => R.MX_FLAGS.RD_SAT | 5 => R.MX_FLAGS.WCOLL | 6 => R.MX_FLAGS.MODE_ERR | _ => R.MX_FLAGS.BAD_BLOCK

/-- Whether a flag that comes to be set raises `EV_MX_PRECISION` (R136). -/
def State.mxEventOn (s : State) (die i : Nat) : Bool :=
  if i = 0 then s.on R.MX_DIE_CTRL.LOSS_EVT_EN die else if i = 1 then s.on R.MX_DIE_CTRL.OVF_EVT_EN die else false

/-- Sets a flag of core `n`'s engine. -/
def State.mxFlag (s : State) (n i : Nat) : State :=
  let d := n / 64
  let new := !s.on (mxField i) d (n % 64)
  let s := s.modCore n fun k => { k with engine := { k.engine with flags := setBit k.engine.flags i } }
  let s := s.setFld (mxField i) d (n % 64) 1
  if new && s.mxEventOn d i then s.raise (.page .mx d) none 0x0101 (w4 [n, i]) else s

/-- A command refused by mode, or a stream fault: the flag, and the end of the context (R117, R122). -/
def State.mxError (s : State) (n i : Nat) : State :=
  (s.mxFlag n i).ctxFault (.page .mx (n / 64)) (s.ctxOf n) (if i = 6 then 0x4103 else 0x4104) (w4 [n])

/-- Accounts issued cycles to the core's context (R134, R421). -/
def State.mxIssue (s : State) (n cycles : Nat) (deep : Bool) : State :=
  match s.ownerOf n with
  | none => s
  | some c =>
    let b := unitsOf (s.ctx c).remBusy cycles 1024
    let m := unitsOf (s.ctx c).remMac (cycles * (if deep then 16384 else 32768)) 1048576
    let s := s.modCtx c fun x => { x with remBusy := b.2, remMac := m.2 }
    (s.bump R.CTX_ACCT_BUSY.COUNT c b.1).bump R.CTX_ACCT_BITMAC.COUNT c m.1

end Sys2Proof.Machine
end

