-- ==== Sys2Proof/Machine/MatrixOps.lean ====
section
/-! DEFINITION. Machine/MatrixOps.lean: the arithmetic of the matrix engine and the spans of its commands (R113-R132;
04_matrix_engine_and_pan_arithmetic.md). -/
namespace Sys2Proof.Machine

/-! ### Spans (R114, R132) -/

def ceil64 (n : Nat) : Nat := (n + 63) / 64 * 64

/-- First byte and length of each span of a command, in field order; `mode` is the mode in which it will run. -/
def mSpans (m : MOp) (mode : Nat) : List (Nat × Nat) :=
  match m with
  | .lda src rowsM1 fmt kuM1 stride scaleSrc scaleEn =>
    let row := (kuM1.toNat + 1) * 32 * fmtBytes fmt.toNat
    let step := if stride = 0#14 then ceil64 row else stride.toNat * 64
    (src.toNat * 64, rowsM1.toNat * step + row) :: (if scaleEn then [(scaleSrc.toNat * 64, 64)] else [])
  | .mmw wsrc len _ _ => [(wsrc.toNat * 64, len.toNat * 64)]
  | .mma bsrc _ chM1 _ => [(bsrc.toNat * 64, (chM1.toNat + 1) * 256)]
  | .rd dst ofmt _ _ _ stride =>
    let row := if ofmt = 0#2 then 32 else if ofmt = 1#2 then 64 else 16
    let step := if stride = 0#14 then row else stride.toNat * 64
    [(dst.toNat * 64, ((if mode = 2 then 8 else 16) - 1) * step + row)]
  | .stf dst _ => [(dst.toNat * 64, 64)]
  | _ => []

/-- From the lowest to the highest byte of a list of spans. -/
def hull : List (Nat × Nat) → Option (Nat × Nat)
  | [] => none
  | p :: ps => some (ps.foldl (fun b q => (min b.1 q.1, max (b.1 + b.2) (q.1 + q.2) - min b.1 q.1)) p)

/-- The mode in which a command after those of a queue runs. -/
def modeAfter (mode : Nat) (q : List MOp) : Nat :=
  q.foldl (fun m c => match c with | .cfg _ _ v _ => v.toNat | _ => m) mode

/-- The spans that the queued commands read or write. -/
def Engine.spans (e : Engine) : List (Nat × Nat) :=
  (e.queue.foldl (fun (acc : Nat × List (Nat × Nat)) c =>
    (modeAfter acc.1 [c], acc.2 ++ (hull (mSpans c acc.1)).toList)) (e.mode, [])).2

/-- Two spans meet, at 64-byte granularity. -/
def spansMeet (a b : Nat × Nat) : Bool :=
  decide (0 < a.2) && decide (0 < b.2) && decide (a.1 / 64 * 64 < b.1 + b.2) && decide (b.1 / 64 * 64 < a.1 + a.2)

/-- An access meets what a queued command reads or writes (R114). -/
def Engine.holds (e : Engine) (l : List (Nat × Nat)) : Bool := e.spans.any fun p => l.any fun q => spansMeet p q

/-- The first span that reaches beyond the scratchpad. -/
def beyond (l : List (Nat × Nat)) : Option Nat := (l.find? fun p => decide (scrSize < p.1 + p.2)).map Prod.fst

/-! ### Operands (R118-R124) -/

/-- An element as significand and exponent; none where it is not finite. -/
def element (fmt v : Nat) : Option (Int × Int) :=
  let ofF (x : FVal) : Option (Int × Int) :=
    match x with
    | .fin n m e => some (if n then -(m : Int) else m, e)
    | _ => none
  match fmt with
  | 0 => some (sext 8 v, 0)
  | 1 => ofF (decodeE4M3 v)
  | 2 => ofF (decodeE5M2 v)
  | _ => ofF (decodeF bf16 v)

/-- Bits of the activation at a row and position; positions beyond the buffer's row hold 0. -/
def Engine.act (e : Engine) (r p : Nat) : Nat :=
  if e.afmt = 3 then
    (if p < 8192 then (tget 0#8 e.abuf (16384 * r + 2 * p)).toNat + 256 * (tget 0#8 e.abuf (16384 * r + 2 * p + 1)).toNat else 0)
  else if p < 16384 then (tget 0#8 e.abuf (16384 * r + p)).toNat else 0

/-- A weight of a block of width `w`, from its plane words (R119). -/
def weight (w : Nat) (planes : List Nat) (j : Nat) : Int :=
  if w = 0 then 0
  else if w = 1 then (if bit (planes[0]?.getD 0) j then 1 else -1)
  else sext w (bitMap w fun p => bit (planes[p]?.getD 0) j)

/-- A block that a slab holds: its number h, its SCALE and its 32 weights. -/
structure WBlock where
  h : Nat
  scale : Nat
  ws : List Int
  deriving DecidableEq, Repr

/-- What reading a slab gives: its blocks before a fault, the bytes used, the greatest width, and whether a fault ends
the command (R120-R122). -/
structure Slab where
  blocks : List WBlock
  used : Nat
  width : Nat
  fault : Bool
  deriving DecidableEq, Repr

/-- Reads block `h` of a slab. -/
def Slab.block (bs : List Byte) (sl : Slab) (h : Nat) : Slab :=
  let hd := ofLe ((bs.drop (2 * h)).take 2)
  let w := field hd 0 4
  let sc := field hd 4 8
  if sl.fault then sl
  else if 8 < w ∨ sc = 255 ∨ bs.length < sl.used + 4 * w then { sl with fault := true }
  else
    let planes := (List.range w).map fun p => ofLe ((bs.drop (sl.used + 4 * p)).take 4)
    { sl with
      blocks := sl.blocks ++ [⟨h, sc, (List.range 32).map (weight w planes)⟩]
      used := sl.used + 4 * w
      width := max sl.width w }

/-- Reads a slab from what is left of the stream. -/
def readSlab (bs : List Byte) : Slab :=
  if bs.length < 128 then ⟨[], 0, 0, true⟩ else (List.range 64).foldl (Slab.block bs) ⟨[], 128, 0, false⟩

/-! ### Accumulation (R124-R128) -/

/-- A product's place in the Pan: truncated toward zero, and whether a bit is lost (R125). -/
def place (q x : Int) : Int × Bool :=
  if 0 ≤ x then (q * 2 ^ x.toNat, false)
  else
    let d := 2 ^ (-x).toNat
    (if q < 0 then -((q.natAbs / d : Nat) : Int) else (q.natAbs / d : Nat), decide (q.natAbs % d ≠ 0))

/-- What one unit of work gives one accumulator: the exact sum, a lost bit, an invalid product. -/
structure Unit' where
  sum : Int
  loss : Bool
  nan : Bool
  deriving DecidableEq, Repr

def Unit'.zero : Unit' := ⟨0, false, false⟩

/-- Adds a placed product. -/
def Unit'.add (u : Unit') (q : Option (Int × Int)) (bp : Nat) : Unit' :=
  match q with
  | none => { u with nan := true }
  | some (q, x) =>
    let p := place q (x + bp)
    { u with sum := u.sum + p.1, loss := u.loss || p.2 }

/-- Product of a weight and an activation element. -/
def wProduct (w : Int) (scale : Nat) (a : Option (Int × Int)) : Option (Int × Int) :=
  a.map fun p => (w * p.1, (scale : Int) - 127 + p.2)

/-- One slab's work for the accumulator of row `r`, column `n`; `base` is the slab's first position. -/
def Engine.slabUnit (e : Engine) (blocks : List WBlock) (base r n : Nat) : Unit' :=
  blocks.foldl (fun u b =>
    if b.h / 4 = n then
      (List.range 32).foldl (fun u j =>
        u.add (wProduct (b.ws[j]?.getD 0) b.scale (element e.afmt (e.act r (base + b.h % 4 * 32 + j)))) e.bp) u
    else u) Unit'.zero

/-- Product of two elements. -/
def eProduct (a b : Option (Int × Int)) : Option (Int × Int) :=
  match a, b with
  | some p, some q => some (p.1 * q.1, p.2 + q.2)
  | _, _ => none

/-- Element `i` of column `n` of a chunk of B. -/
def chunkElem (bfmt : Nat) (bs : List Byte) (n i : Nat) : Nat :=
  if bfmt = 3 then ofLe ((bs.drop (16 * n + 2 * i)).take 2) else ofLe ((bs.drop (16 * n + i)).take 1)

/-- One chunk's work for an accumulator; `base` is the chunk's first position. -/
def Engine.chunkUnit (e : Engine) (bfmt : Nat) (bs : List Byte) (base r n : Nat) : Unit' :=
  (List.range (if bfmt = 3 then 8 else 16)).foldl (fun u i =>
    u.add (eProduct (element e.afmt (e.act r (base + i))) (element bfmt (chunkElem bfmt bs n i))) e.bp) Unit'.zero

/-- Rows of the tile. -/
def Engine.rows (e : Engine) : Nat := if e.mode = 2 then 8 else 16

/-- Adds one unit of work to an accumulator, saturating (R126); the flags it sets are listed. -/
def Engine.addUnit (e : Engine) (i : Nat) (u : Unit') : Engine × List Nat :=
  let w := if e.mode = 2 then 256 else 128
  let v := tget 0 e.acc i + u.sum
  let c := clampS w v
  ({ e with acc := tset 0 e.acc i c, bad := if u.nan then setBit e.bad i else e.bad },
    (if u.loss then [0] else []) ++ (if c = v then [] else [1]) ++ (if u.nan then [2] else []))

/-- Adds a unit of work to every accumulator of the tile. -/
def Engine.addAll (e : Engine) (f : Nat → Nat → Unit') : Engine × List Nat :=
  ((List.range e.rows).flatMap fun r => (List.range 16).map fun n => (r, n)).foldl
    (fun (acc : Engine × List Nat) (p : Nat × Nat) =>
      let t := acc.1.addUnit (16 * p.1 + p.2) (f p.1 p.2)
      (t.1, acc.2 ++ t.2)) (e, [])

/-- One accumulator of FP32 mode over one chunk: products and sums rounded in increasing K order (R128). `fr` gives
the bits of a NaN. -/
def Engine.fpChunk (e : Engine) (bs : List Byte) (base r n fr : Nat) : Nat :=
  (List.range 8).foldl (fun acc i =>
    let p := encodeF fp32 ((decodeF bf16 (e.act r (base + i))).mul (decodeF bf16 (chunkElem 3 bs n i))) fr
    encodeF fp32 ((decodeF fp32 acc).add (decodeF fp32 p)) fr) (tget 0 e.acc (16 * r + n)).toNat

def isInf32 (b : Nat) : Bool := decide (b % 2 ^ 31 = 0x7F800000)

/-- One chunk in FP32 mode. -/
def Engine.fpAll (e : Engine) (bs : List Byte) (base : Nat) (fr : Nat → Nat) : Engine × List Nat :=
  ((List.range 16).flatMap fun r => (List.range 16).map fun n => (r, n)).foldl
    (fun (acc : Engine × List Nat) (p : Nat × Nat) =>
      let i := 16 * p.1 + p.2
      let old := (tget 0 acc.1.acc i).toNat
      let v := e.fpChunk bs base p.1 p.2 (fr i)
      ({ acc.1 with acc := tset 0 acc.1.acc i (v : Int) }, if isInf32 v && !isInf32 old then acc.2 ++ [3] else acc.2)) (e, [])

/-- `MX_MMW` is accepted (R117). -/
def Engine.mmwOk (e : Engine) : Bool := (decide (e.mode = 0) && decide (e.afmt ≠ 3)) || (decide (e.mode = 2) && decide (e.afmt = 3))

/-- `MX_MMA` is accepted (R117). -/
def Engine.mmaOk (e : Engine) (bfmt : Nat) : Bool :=
  let fp8 (f : Nat) : Bool := decide (f = 1 ∨ f = 2)
  (decide (e.mode = 0) && fp8 e.afmt && fp8 bfmt) || (decide (e.mode ≠ 0) && decide (e.afmt = 3 ∧ bfmt = 3))

/-- The slabs of an `MX_MMW`, one after another: the engine, flags, cycles, and whether a fault ended it. -/
def Engine.mmwSlabs (e : Engine) (bs : List Byte) (koff : Nat) : Nat → Nat → Engine × List Nat × Nat × Bool
  | _, 0 => (e, [], 0, false)
  | i, n + 1 =>
    let sl := readSlab bs
    let t := e.addAll (fun r c => e.slabUnit sl.blocks ((koff + i) * 128) r c)
    let cost := max 1 sl.width
    if sl.fault then (t.1, t.2, cost, true)
    else
      let rest := t.1.mmwSlabs (bs.drop (ceil64 sl.used)) koff (i + 1) n
      (rest.1, t.2 ++ rest.2.1, cost + rest.2.2.1, rest.2.2.2)

/-- The chunks of an `MX_MMA`. -/
def Engine.mmaChunks (e : Engine) (bfmt : Nat) (bs : List Byte) (koff : Nat) (fr : Nat → Nat) : Nat → Nat → Engine × List Nat
  | _, 0 => (e, [])
  | i, n + 1 =>
    let base := (koff + i) * (if bfmt = 3 then 8 else 16)
    let t := if e.mode = 1 then e.fpAll bs base fr else e.addAll fun r c => e.chunkUnit bfmt bs base r c
    let rest := t.1.mmaChunks bfmt (bs.drop 256) koff fr (i + 1) n
    (rest.1, t.2 ++ rest.2)

/-! ### Read-out (R130, R131) -/

/-- The exact value of an accumulator times its shift and token scale. -/
def Engine.value (e : Engine) (r n : Nat) (tscale : Bool) (shift : Int) : FVal :=
  let p := tget 0 e.acc (16 * r + n)
  let a := if e.mode = 1 then decodeF fp32 p.toNat else .fin (decide (p < 0)) p.natAbs (-(e.bp : Int))
  let t := if tscale then decodeF fp32 (tget 0x3F800000 e.scales r) else .fin false 1 0
  match a.mul t with
  | .fin ng m x => .fin ng m (x + shift)
  | v => v

/-- An accumulator's output bytes, and whether RD_SAT is set. -/
def Engine.output (e : Engine) (ofmt r n : Nat) (tscale : Bool) (shift : Int) : List Byte × Bool :=
  let f := if ofmt = 0 then bf16 else fp32
  let size := if ofmt = 0 then 2 else if ofmt = 1 then 4 else 1
  let nan := if ofmt = 0 then 0x7FC0 else if ofmt = 1 then 0x7FC00000 else 0
  if e.mode ≠ 1 ∧ bit e.bad (16 * r + n) then (leBytes nan size, false)
  else
    match e.value r n tscale shift with
    | .nan => (leBytes nan size, true)
    | .inf ng => (leBytes (if ofmt = 2 then (if ng then 0x80 else 0x7F) else infBits f ng) size, true)
    | .fin ng m x =>
      if ofmt = 2 then
        let v := ((FVal.fin ng m x).toInt true).getD 0
        (leBytes (twos 8 (clampS 8 v)) 1, decide (clampS 8 v ≠ v))
      else if m = 0 then (leBytes 0 size, false)
      else
        let b := roundF f ng m x
        (leBytes b size, decide (b = infBits f ng))

/-- One row's bytes of a read-out, and whether any of them sets RD_SAT. -/
def Engine.rowOut (e : Engine) (ofmt r : Nat) (tscale : Bool) (shift : Int) : List Byte × Bool :=
  (List.range 16).foldl (fun (acc : List Byte × Bool) n =>
    let o := e.output ofmt r n tscale shift
    (acc.1 ++ o.1, acc.2 || o.2)) ([], false)

/-- The flags record of `MX_STF` (R131). -/
def Engine.record (e : Engine) : List Byte :=
  leBytes (e.flags % 256) 4 ++ leBytes (e.mode % 4 + 4 * (e.bp % 256) + 1024 * (e.afmt % 4)) 4 ++ List.replicate 24 0 ++
    leBytes (if e.mode = 2 then e.bad % 2 ^ 128 else e.bad) 32

/-- Applies `MX_CFG` (R116, R132). -/
def Engine.cfg (e : Engine) (clrAcc clrFlags : Bool) (mode bp : Nat) : Engine :=
  let clear := clrAcc || decide (mode ≠ e.mode)
  { e with
    mode := mode
    bp := bp
    acc := if clear then [] else e.acc
    bad := if clear then 0 else e.bad
    flags := if clrFlags then 0 else e.flags }

/-- Takes the head off the queue. -/
def Core.mxNext (k : Core) : Core := { k with engine := { k.engine with queue := k.engine.queue.drop 1 } }

/-- Replaces the engine. -/
def Core.setEngine (k : Core) (e : Engine) : Core := { k with engine := e }

end Sys2Proof.Machine
end

