-- ==== Sys2Proof/Machine/AttnOps.lean ====
section
/-! DEFINITION. Machine/AttnOps.lean: the attention walker, posts to the Rake and the scatter of committed rows
(R231-R255; 09_attention_and_kv_pages.md). -/
namespace Sys2Proof.Machine

def attnUnit (c : Nat) : Raiser := .page .attn c
def rakeUnit (c : Nat) : Raiser := .page .rake c

/-! ### Reading a range that may reach T3 -/

/-- Reads a range of the unified range for an engine; the pieces in T3 are taken, in order, from what T3 answers. It
gives the bytes and what is left of the answer. -/
def State.ureadFar (s : State) (die c va n : Nat) (far : List Byte) : Got × List Byte × State :=
  (pieces va (n / 65536 + 2) n).foldl
    (fun (acc : Got × List Byte × State) p =>
      match acc.1 with
      | .bytes bs =>
        let t := acc.2.2.translate die c p.1 1
        if t.1 = 0 then (.xlat, acc.2.1, t.2)
        else if 2 ≤ leafTier t.1 then
          if acc.2.1.length < p.2 then (.far, acc.2.1, t.2)
          else (.bytes (bs ++ acc.2.1.take p.2), acc.2.1.drop p.2, t.2)
        else
          (.bytes (bs ++ t.2.physRead (leafTier t.1) (leafLoc t.1) p.1 p.2), acc.2.1,
            if leafTier t.1 = 1 then t.2.hbmBytes c p.2 else t.2)
      | _ => acc)
    (.bytes [], far, s)

/-! ### Settings in force (R255) -/

def attnDefault : Nat → Nat
  | 0 => 128 | 1 => 64 | _ => 1

def attnField : Nat → Fd
  | 0 => R.ATTN_CFG.WINDOW | 1 => R.ATTN_CFG.RETR_PAGES | 2 => R.ATTN_CFG.KFMT | _ => R.ATTN_CFG.VFMT

/-- `ATTN_CFG` in force: 0 WINDOW, 1 RETR_PAGES, 2 KFMT, 3 VFMT. -/
def State.attnCfg (s : State) (c i : Nat) : Nat :=
  if (s.ctx c).member.active then tget 0 (s.ctx c).attnCfg i else s.fld (attnField i) c

/-- Takes `ATTN_CFG` over for a step that starts. -/
def State.takeAttnCfg (s : State) (c : Nat) : State :=
  s.modCtx c fun x => { x with attnCfg := (List.range 4).foldl (fun t i => tset 0 t i (s.fld (attnField i) c)) [] }

/-- Records of the pair map in force. -/
def Ctx.pairs (x : Ctx) : Nat := (x.pairMap.getD []).length

/-! ### The pair map (R232, R233) -/

/-- A record of the map: layer, head and die; none where a reserved bit is set. -/
def pairRecord (v : Nat) : Option (Nat × Nat × Nat) :=
  if field v 19 13 = 0 then some (field v 0 8, field v 8 8, field v 16 3) else none

/-- Index of the first record that makes a map bad. -/
def badPair (l : List Nat) : Option Nat :=
  (List.range l.length).find? fun i =>
    (pairRecord (l[i]?.getD 0)).isNone || (List.range i).any fun j => decide (field (l[j]?.getD 0) 0 16 = field (l[i]?.getD 0) 0 16)

/-- `ATTN_CTRL.MAP_RELOAD`. -/
def State.mapReload (s : State) (c : Nat) (far : List Byte) : State :=
  let n := s.fld R.ATTN_PAIRMAP_COUNT.COUNT c
  if (s.ctx c).descs ≠ [] then s.errlog .attn c 4 0 0 0
  else
    let r := s.ureadFar 0 c (s.addr R.ATTN_PAIRMAP_BASE.ADDR c) (4 * n) far
    match r.1 with
    | .bytes bs =>
      let l := (List.range n).map fun i => ofLe ((bs.drop (4 * i)).take 4)
      match badPair l with
      | some i => r.2.2.errlog .attn c 4 i 0 0
      | none => r.2.2.modCtx c fun x => { x with pairNext := some (l.filterMap pairRecord) }
    | _ => r.2.2.errlog .attn c 4 0 0 0

/-! ### Walks (R234-R240) -/

/-- The walk descriptor. -/
structure WalkDesc where
  slot : Nat
  gen : Nat
  pair : Nat
  retr : Bool
  qpos : Nat
  start : Nat
  npages : Nat
  qvec : Nat
  deriving DecidableEq, Repr

def walkDesc (bs : List Byte) : WalkDesc :=
  let w (i : Nat) : Nat := ofLe ((bs.drop (4 * i)).take 4)
  ⟨field (w 0) 0 10, field (w 0) 10 8, field (w 0) 18 12, bit (w 0) 30, field (w 1) 0 20, field (w 2) 0 8, field (w 2) 8 4,
    field (w 3) 0 14⟩

/-- The descriptor holds no reserved value. -/
def walkDescOk (bs : List Byte) : Bool :=
  let w (i : Nat) : Nat := ofLe ((bs.drop (4 * i)).take 4)
  !bit (w 0) 31 && decide (field (w 1) 20 12 = 0) && decide (field (w 2) 12 20 = 0) && decide (field (w 3) 14 18 = 0) &&
    decide (1 ≤ field (w 2) 8 4 ∧ field (w 2) 8 4 ≤ 8) && (bs.drop 16).all fun b => decide (b = 0#8)

/-- The work-list entry of a handle in the step in flight. -/
def Ctx.workOf (x : Ctx) (slot gen : Nat) : Option Work :=
  if x.member.active then x.member.work.find? fun w => decide (w.slot = slot ∧ w.gen = gen) else none

/-- Start of a query's window (R234). -/
def windowStart (qpos window : Nat) : Nat := qpos + 1 - 256 * window

/-- Groups that may be retrieved. -/
def candidates (start len : Nat) : List Nat := ((List.range (min start len / 256)).filter fun p => decide (1 ≤ p))

/-- FP32 dot product of a summary and a query, products and sums rounded in dimension order (R235). -/
def walkScore (summary query : List Byte) (fr : Nat) : Nat :=
  (List.range 128).foldl (fun acc i =>
    let p := encodeF fp32 ((decodeF bf16 (ofLe ((summary.drop (2 * i)).take 2))).mul (decodeF bf16 (ofLe ((query.drop (2 * i)).take 2)))) fr
    encodeF fp32 ((decodeF fp32 acc).add (decodeF fp32 p)) fr) 0

/-- Score `a` of the earlier group stands before `b`: higher first, a NaN last. -/
def scoreFirst (a b : Nat) : Bool :=
  match (decodeF fp32 a).cmp (decodeF fp32 b) with
  | some .lt => false
  | some _ => true
  | none => decide ((decodeF fp32 b) = .nan)

/-- The groups kept: the highest scores, the lower group among equals, in rising order. -/
def keepBest (l : List (Nat × Nat)) (n : Nat) : List Nat :=
  (((l.mergeSort fun a b => scoreFirst a.2 b.2).take n).map Prod.fst).mergeSort fun a b => decide (a ≤ b)

/-- Scores the candidates of a walk: the groups kept, or the status of a failed summary. -/
def State.walkSelect (s : State) (die c : Nat) (d : WalkDesc) (cand : List Nat) (query far : List Byte) :
    Except Nat (List Nat) × State :=
  let r := cand.foldl (fun (acc : Except Nat (List (Nat × Nat)) × List Byte × State) p =>
    match acc.1 with
    | .error e => (.error e, acc.2)
    | .ok l =>
      let t := acc.2.2.ureadFar die c (acc.2.2.summaryAddr c d.slot d.pair p) 256 acc.2.1
      match t.1 with
      | .bytes bs => (.ok (l ++ [(p, walkScore bs query (Config.free t.2.2.free p).toNat)]), t.2)
      | .far => (.error 2, t.2)
      | .xlat => (.error 3, t.2)) (.ok [], far, s)
  match r.1 with
  | .error e => (.error e, r.2.2)
  | .ok l =>
    (.ok (keepBest l (s.attnCfg c 1)), { (r.2.2.bump R.ATTN_SCORED.COUNT c l.length) with free := r.2.2.free + 1 })

/-- What a walk's grant finds: its status, and the groups it retrieves (R219, R235, R240). -/
def State.walkStart (s : State) (die c : Nat) (d : WalkDesc) (query far : List Byte) : Nat × List Nat × State :=
  match (s.ctx c).desc d.slot, (s.ctx c).workOf d.slot d.gen with
  | some r, some w =>
    if r.gen ≠ d.gen ∨ r.pairs ≠ (s.ctx c).pairs then (1, [], s)
    else if r.pairs ≤ d.pair then (3, [], s)
    else
      let cand := candidates (windowStart d.qpos (s.attnCfg c 0)) w.len
      if !d.retr || !s.on R.ATTN_CTRL.RETR_EN c then (0, [], s)
      else if cand.length ≤ s.attnCfg c 1 then (0, cand, s)
      else
        let t := s.walkSelect die c d cand query far
        match t.1 with
        | .error e => (e, [], t.2)
        | .ok l => (0, l, t.2)
  | _, _ => (1, [], s)

/-- A page of a walk: group, first valid slot, valid tokens, set. -/
abbrev WalkPage := Nat × Nat × Nat × Nat

/-- The ordinals of a walk over `len` committed tokens (R234, R238). -/
def walkOrdinals (qpos window len : Nat) (sel : List Nat) : List WalkPage :=
  let start := windowStart qpos window
  let lo := max 1 (start / 256)
  (if 0 < len then [(0, 0, min 256 len, 0)] else []) ++ sel.map (fun p => (p, 0, 256, 1)) ++
    ((List.range ((len + 255) / 256 - lo)).filterMap fun i =>
      let p := lo + i
      let a := max start (256 * p)
      let b := min len (256 * p + 256)
      if a < b then some (p, a - 256 * p, b - a, 2) else none)

/-- The record of a walk. -/
def walkRecord (pages : List WalkPage) (total status : Nat) : List Byte :=
  leBytes pages.length 1 ++ leBytes total 1 ++ leBytes status 1 ++ [0] ++
    ((List.range 8).flatMap fun k => match pages[k]? with
      | some p => leBytes (p.1 + 2 ^ 12 * p.2.1 + 2 ^ 20 * p.2.2.1 + 2 ^ 29 * p.2.2.2) 4
      | none => [0, 0, 0, 0]) ++ List.replicate 28 0

/-- What reading the pages of a walk comes to. -/
structure Walked where
  pages : List WalkPage
  bytes : List (List Byte)
  status : Nat
  held : Bool           -- a page is not readable yet, or its translation waits
  far : List Byte
  deriving DecidableEq, Repr

/-- Reads one page of a walk. -/
def State.walkPage (die c : Nat) (d : Desc) (pair : Nat) (acc : Walked × State) (p : WalkPage) : Walked × State :=
  let w := acc.1
  let s := acc.2
  if w.held || decide (w.status ≠ 0) then acc
  else
    let sub := d.sub p.1 pair
    match s.engXlat die c (sub * 65536) 1 1 with
    | (.wait, s) => ({ w with held := true }, s)
    | (.fail, s) => ({ w with status := 3 }, s)
    | (.ok e, s) =>
      if s.held? c sub then ({ w with held := true }, s)
      else if 2 ≤ leafTier e then
        if w.far.length < 65536 then ({ w with status := 2 }, s.tierFault c (leafTier e) (leafLoc e))
        else ({ w with pages := w.pages ++ [p], bytes := w.bytes ++ [w.far.take 65536], far := w.far.drop 65536 }, s)
      else
        ({ w with pages := w.pages ++ [p], bytes := w.bytes ++ [s.physRead (leafTier e) (leafLoc e) 0 65536] },
          if leafTier e = 1 then s.hbmBytes c 65536 else s)

/-- The pages a walk delivers. -/
def WalkDesc.slice (d : WalkDesc) (l : List WalkPage) : List WalkPage := (l.drop d.start).take d.npages

/-- Ordinals of a granted walk. -/
def State.walkList (s : State) (c : Nat) (d : WalkDesc) (sel : List Nat) : List WalkPage :=
  match (s.ctx c).workOf d.slot d.gen with
  | some w => walkOrdinals d.qpos (s.attnCfg c 0) w.len sel
  | none => []

/-- The fault of a request whose walk ends early (R240). -/
def State.walkFault (s : State) (c : Nat) (d : WalkDesc) (status : Nat) : State :=
  match status with
  | 0 => s
  | 1 => s.reqFault c d.slot d.gen 7 0x3221 (xlatUnit c)
  | 2 => s.reqFault c d.slot d.gen 6 0x3202 (sluiceUnit c)
  | _ => s.reqFault c d.slot d.gen 7 0x3201 (attnUnit c)

/-- Core `n` has a walk that has not been granted. -/
def State.walkWaits (s : State) (n : Nat) : Bool := (s.core n).xops.any fun x => decide (x.kind = 0x48) && !x.granted

/-- Walks active on a die. -/
def State.walksOn (s : State) (d : Nat) : Nat :=
  ((List.range 64).map fun i => ((s.core (64 * d + i)).xops.filter fun x => decide (x.kind = 0x48) && x.granted).length).foldl (· + ·) 0

/-! ### Posts (R241-R243) -/

/-- Posts are taken: an instance of the context runs and is not yet committed or abandoned. -/
def State.stepOpen (s : State) (c : Nat) : Bool :=
  (s.ctx c).member.active && (s.ctx c).member.launched && !(s.ctx c).member.replaying && !(s.ctx c).member.committed

/-- Bytes of the staging buffer that posts use. -/
def stageBytes (l : List Post) : Nat := (l.map fun p => 64 + 256 * p.rows.length).foldl (· + ·) 0

/-- Rows of a new post whose place an earlier post of the step has. -/
def dupRows (old : List Post) (p : Post) : Nat :=
  ((List.range p.rows.length).filter fun i => old.any fun q =>
    decide (q.slot = p.slot ∧ q.pair = p.pair ∧ q.pos ≤ p.pos + i ∧ p.pos + i < q.pos + q.rows.length)).length

/-- The descriptor of a handle that is not stale and that agrees with the pair map in force (R219, R233). -/
def State.liveDesc (s : State) (c slot gen : Nat) : Option Desc :=
  match (s.ctx c).desc slot with
  | some d => if d.gen = gen ∧ d.pairs = (s.ctx c).pairs then some d else none
  | none => none

/-- A post for a sequence of the step whose handle is stale, or whose PAIRS is not the map's, ends the request (R219,
R233). -/
def State.postStale (s : State) (c slot gen : Nat) : State :=
  if ((s.ctx c).member.work.any fun w => decide (w.slot = slot ∧ w.gen = gen)) && (s.liveDesc c slot gen).isNone then
    s.reqFault c slot gen 7 0x3221 (xlatUnit c)
  else s

/-- `X_RKPOST`: the rows are taken as the operation is dispatched. -/
def State.xRkpost (s : State) (n tag src : Nat) (slot gen pair pos count : Nat) : State :=
  let c := s.ctxOf n
  if s.stepOpen c then
    let p : Post := ⟨slot, gen, pair, pos, (List.range count).map fun i => (s.core n).scrRead (src * 64 + 256 * i) 256⟩
    let old := (s.ctx c).posts
    if s.fld R.RAKE_STAGE_SIZE.COUNT c * 65536 < stageBytes (old ++ [p]) then
      (s.xPend n (XPend.mk' tag 0x49 (src * 64) (256 * count) 0 0)).ctxFault (rakeUnit c) c 0x4301
        (w4 [s.fld R.STEP_NUMBER.STEP c])
    else
      let s := (s.modCtx c fun x => { x with posts := x.posts ++ [p] }).bump R.RAKE_DUP.COUNT c (dupRows old p)
      let s := s.postStale c slot gen
      s.xPend n (XPend.mk' tag 0x49 (src * 64) (256 * count) 0 0)
  else (s.bump R.RAKE_LATE_POSTS.COUNT c).xDone n tag

/-! ### The scatter (R244-R250) -/

/-- A staged row: its handle, pair, position and bytes. -/
structure StagedRow where
  slot : Nat
  gen : Nat
  pair : Nat
  pos : Nat
  bytes : List Byte
  deriving DecidableEq, Repr

def Post.staged (p : Post) : List StagedRow :=
  (List.range p.rows.length).map fun i => ⟨p.slot, p.gen, p.pair, p.pos + i, p.rows[i]?.getD []⟩

/-- Rows staged for the same place: the later prevails (R242). -/
def lastRows (l : List StagedRow) : List StagedRow :=
  l.foldr (fun r acc => if acc.any fun q => decide (q.slot = r.slot ∧ q.pair = r.pair ∧ q.pos = r.pos) then acc else r :: acc) []

/-- Where a row's bytes go in its page: page offset and bytes of each piece (R231). -/
def rowPieces (pos : Nat) (bs : List Byte) : List (Nat × List Byte) :=
  let t := pos % 256
  ((List.range 8).map fun c => ((t / 16 * 8 + c) * 256 + 16 * (t % 16), (bs.drop (16 * c)).take 16)) ++
    ((List.range 128).map fun v => (32768 + (v / 16 * 16 + t / 16) * 256 + 16 * (v % 16) + t % 16, (bs.drop (128 + v)).take 1))

/-- Offset of key dimension `i` of token slot `t` in a page. -/
def keyOffset (t i : Nat) : Nat := (t / 16 * 8 + i / 16) * 256 + 16 * (t % 16) + i % 16

/-- An FP8 value in format 1 E4M3 or 2 E5M2. -/
def fp8 (fmt b : Nat) : FVal := if fmt = 2 then decodeE5M2 b else decodeE4M3 b

/-- The summary of a full group's page (R236). -/
def pageSummary (fmt : Nat) (page : List Byte) (fr : Nat → Nat) : List Byte :=
  (List.range 128).flatMap fun i =>
    let sum := (List.range 256).foldl (fun acc t =>
      encodeF fp32 ((decodeF fp32 acc).add (fp8 fmt ((page[keyOffset t i]?.getD 0).toNat))) (fr i)) 0
    leBytes (encodeF bf16 ((decodeF fp32 sum).mul (.fin false 1 (-8))) (fr i)) 2

/-- Positions a settled sequence commits: from L to below L′, short of the range's last (R245, R250). -/
def commitEnd (d : Desc) (l' : Nat) : Nat := min l' (d.groups * 256 - 1)

/-- L of a sequence in the step's work list. -/
def Ctx.lenOf (x : Ctx) (slot gen : Nat) : Nat := ((x.workOf slot gen).map Work.len).getD 0

/-- Whether a staged row lands, and in which subpage. -/
def State.rowHome (s : State) (c : Nat) (r : StagedRow) : Option Nat :=
  match (s.ctx c).member.settled.find? fun e => decide (e.1 = r.slot ∧ e.2.1 = r.gen), s.liveDesc c r.slot r.gen with
  | some e, some d =>
    if r.pair < d.pairs ∧ (s.ctx c).lenOf r.slot r.gen ≤ r.pos ∧ r.pos < commitEnd d e.2.2.1 then
      some (d.sub (r.pos / 256) r.pair)
    else none
  | _, _ => none

/-- Writes one row into its page through the die's translation; false where it cannot be written (log entry 39). -/
def State.rowWrite (s : State) (die c sub : Nat) (r : StagedRow) : Bool × State :=
  match s.engXlat die c (sub * 65536) 2 2 with
  | (.ok e, s) =>
    if leafTier e = 1 ∧ 1 < s.refsOf (leafLoc e) then (false, s)
    else (true, (rowPieces r.pos r.bytes).foldl (fun (s : State) (p : Nat × List Byte) =>
      s.leafWrite c e (sub * 65536 + p.1) p.2) s)
  | (_, s) => (false, s)

/-- Die whose Rake owns a pair. -/
def Ctx.pairDie (x : Ctx) (j : Nat) : Nat := (((x.pairMap.getD [])[j]?).map fun p => p.2.2).getD 0

/-- Scatters the staged rows: what is written, and the state. -/
def State.scatterRows (s : State) (c : Nat) : List StagedRow × State :=
  let all := (s.ctx c).posts.flatMap Post.staged
  let last := lastRows all
  let r := last.foldl (fun (acc : List StagedRow × State) r =>
    match acc.2.rowHome c r with
    | none => acc
    | some sub =>
      let t := acc.2.rowWrite ((acc.2.ctx c).pairDie r.pair) c sub r
      if t.1 then (acc.1 ++ [r], t.2.bump R.RAKE_ROWS.COUNT c) else (acc.1, t.2)) ([], s)
  let discarded := (all.filter fun q => !r.1.any fun w => decide (w.slot = q.slot ∧ w.gen = q.gen ∧ w.pair = q.pair ∧ w.pos = q.pos)).length
  (r.1, r.2.bump R.RAKE_DISCARDED.COUNT c discarded)

/-- Counts the rows that a committed position lacks (R245). -/
def State.missingRows (s : State) (c : Nat) (written : List StagedRow) : Nat :=
  ((s.ctx c).member.settled.map fun e =>
    match s.liveDesc c e.1 e.2.1 with
    | none => 0
    | some d =>
      let lo := (s.ctx c).lenOf e.1 e.2.1
      let want := (commitEnd d e.2.2.1 - lo) * d.pairs
      want - (written.filter fun r => decide (r.slot = e.1)).length).foldl (· + ·) 0

/-- Writes the summary of each group that the scatter has filled (R236). -/
def State.writeSummaries (s : State) (c : Nat) (written : List StagedRow) : State :=
  (written.filter fun r => decide (r.pos % 256 = 255)).foldl (fun s r =>
    match s.liveDesc c r.slot r.gen with
    | none => s
    | some d =>
      let die := (s.ctx c).pairDie r.pair
      let page := orFree (s.uread die c (d.sub (r.pos / 256) r.pair * 65536) 65536) 65536
      let fr (i : Nat) : Nat := (Config.free page.2.free i).toNat
      let t := ({ page.2 with free := page.2.free + 1 } : State).uwrite die c (s.summaryAddr c r.slot r.pair (r.pos / 256))
        (pageSummary (s.attnCfg c 2) page.1 fr)
      t.2.bump R.RAKE_SUMMARIES.COUNT c) s

/-- Groups that positions `lo` to `lo + a - 1` fall in, short of the range's end. -/
def nextGroups (d : Desc) (lo a : Nat) : List Nat :=
  (List.range ((lo + a - 1) / 256 + 1 - lo / 256)).filterMap fun i =>
    if lo / 256 + i < d.groups then some (lo / 256 + i) else none

/-- An ALLOC edit of the Rake for a subpage that is not allocated: READ and WRITE (R248). -/
def State.rakeAlloc (s : State) (c slot sub : Nat) : State :=
  if s.leaf c sub = 0 ∧ !(s.ctx c).queue.any (fun e => decide (e.src = 2 ∧ e.op = 1 ∧ e.arg0 = sub * 65536)) then
    s.internalEdit c 2 1 1 (sub * 65536) (3 + 2 ^ 8 * slot) 1
  else s

/-- A page is shared, so that no row may be written into it (R252). -/
def State.sharedPage (s : State) (c sub : Nat) : Bool :=
  let h := s.homeLeaf c sub
  h != 0 && decide (leafTier h = 1) && decide (1 < s.refsOf (leafLoc h))

/-- Asks the Sluice for a private copy of a shared page (R190, R252). -/
def State.askCow (s : State) (c sub : Nat) : State :=
  if (s.ctx c).move sub = Copy.none then
    match s.place c 1 4 with
    | some p => (p.2.modCtx c fun x => x.setMove sub
        ⟨0, 1, p.1, s.homeLeaf c sub, false, false, false, false, false, false, 3, 256, 0, 0⟩).askSub c (s.leaf c sub)
    | none => s
  else s

/-- The descriptor in force of a sequence, whatever pair map the boundary may load beside it. -/
def State.seqDesc (s : State) (c slot gen : Nat) : Option Desc :=
  ((s.ctx c).desc slot).filter fun d => decide (d.gen = gen)

/-- The descriptor that the next epoch holds for a sequence: that of the last SEQ_SET waiting for its slot, or the one in
force. A SEQ_SET submitted before the admission is applied only at the boundary that also applies the first chunk's
allocations (R221, R248; log entry 71, DEDUCED). -/
def State.nextDesc (s : State) (c slot gen : Nat) : Option Desc :=
  match (s.ctx c).queue.reverse.find? fun e => decide (e.op = 5 ∧ field e.arg0 0 10 = slot) with
  | some e => if e.desc.gen = gen then some e.desc else none
  | none => s.seqDesc c slot gen

/-- Makes sure of the pages for positions `lo` to `lo + a - 1` of a sequence: allocations, index subpages and private
copies. -/
def State.allocAhead (s : State) (c slot gen lo a : Nat) : State :=
  match s.nextDesc c slot gen with
  | none => s
  | some d =>
    (nextGroups d lo a).foldl (fun s g => (List.range d.pairs).foldl (fun s j =>
      let sub := d.sub g j
      let s := (s.rakeAlloc c slot sub).rakeAlloc c slot (s.summaryAddr c slot j g / 65536)
      if s.sharedPage c sub then s.askCow c sub else s) s) s

/-- Tokens the next step of a sequence may write: its next chunk while in its prompt, 9 when decoding (R248). A member
that is no helm does not know how much of a prompt remains (log entry 38). -/
def State.aheadOf (s : State) (c : Nat) (w : Work) (l' : Nat) : Nat :=
  if w.kind = 1 then
    if s.helm c then
      let e := s.entry c w.slot
      min 8192 (e.startLen + e.promptLen - l')
    else 8192
  else 9

/-- The sequences whose pages the scatter looks after: SLOT, GEN, L′ and A. -/
def State.aheadList (s : State) (c : Nat) : List (Nat × Nat × Nat × Nat) :=
  let m := (s.ctx c).member
  let settled := m.settled.filterMap fun e =>
    if e.2.2.2 then none
    else (m.work.find? fun w => decide (w.slot = e.1 ∧ w.gen = e.2.1)).map fun w => (e.1, e.2.1, e.2.2.1, s.aheadOf c w e.2.2.1)
  let fresh := settled ++ m.admitted
  fresh ++ m.notReady.filter fun p => !(fresh.any fun q => decide (q.1 = p.1)) && !(m.settled.any fun q => decide (q.1 = p.1))

/-- A sequence's next rows would fall in a page that is not allocated or that is shared (R248). -/
def State.seqNotReady (s : State) (c : Nat) (p : Nat × Nat × Nat × Nat) : Bool :=
  match s.seqDesc c p.1 p.2.1 with
  | none => false
  | some d => (nextGroups d p.2.2.1 p.2.2.2).any fun g => (List.range d.pairs).any fun j =>
      decide (s.leaf c (d.sub g j) = 0) || s.sharedPage c (d.sub g j)

/-- The walker and the Rake look up the descriptor of each handle in the step broadcast: where it is not VALID or its GEN
differs, the request ends with `DATA_FAULT` (R219). The look-up is made when the member launches the step, so that the
fault is in its READY (log entry 72, DEDUCED). -/
def State.staleFaults (s : State) (c : Nat) : State :=
  ((s.ctx c).member.work.filter fun w => (s.seqDesc c w.slot w.gen).isNone).foldl (fun (s : State) w =>
    s.reqFault c w.slot w.gen 7 0x3221 (xlatUnit c)) s

/-- The Rakes scatter a committed step (R188 step 1, R244-R252). -/
def State.scatter (s : State) (c : Nat) : State :=
  let r := s.scatterRows c
  let n := r.2.missingRows c r.1
  let s := r.2.bump R.RAKE_MISSING.COUNT c n
  let s := if n = 0 then s else s.raise (rakeUnit c) (some c) 0x0301 (w4 [s.fld R.STEP_NUMBER.STEP c, n])
  let s := s.writeSummaries c r.1
  let l := s.aheadList c
  let s := l.foldl (fun (s : State) (p : Nat × Nat × Nat × Nat) => s.allocAhead c p.1 p.2.1 p.2.2.1 p.2.2.2) s
  s.modCtx c fun x => { x with posts := [], member := { x.member with scattered := true, notReady := l } }

/-! ### The Rake's part of the boundary (R188, R249) -/

/-- Switches whose copy was written since its fill began are withdrawn (R187, R188 step 2). -/
def State.checkSwitches (s : State) (c : Nat) : State :=
  let s := (s.ctx c).copies.foldl (fun (s : State) (e : Nat × Copy) =>
    if e.2.written && decide (e.2.state = 1) then
      ((s.withdraw c e.1).modCtx c fun x => x.setCopy e.1 { e.2 with state := 0, written := false, retries := 0 }).askSub c (s.leaf c e.1)
    else if e.2.written && decide (e.2.state = 4) then
      (s.withdraw c e.1).modCtx c fun x => x.setCopy e.1 { e.2 with state := 2, dirty := true, written := false }
    else s) s
  (s.ctx c).moves.foldl (fun (s : State) (e : Nat × Copy) =>
    if e.2.written && decide (e.2.state = 1) then
      ((s.withdraw c e.1).modCtx c fun x => x.setMove e.1 { e.2 with state := 0, written := false, retries := 0 }).askSub c (s.leaf c e.1)
    else s) s

/-- An allocation refused by quota raises `EV_RAKE_KV_QUOTA` once for its sequence (R249). -/
def State.kvQuotaRefused (s : State) (c : Nat) (l : List Edit) : State :=
  ((l.map fun e => field e.arg1 8 10).eraseDups).foldl (fun s slot =>
    let gen := (tget Desc.none (s.ctx c).descs slot).gen
    if (s.ctx c).kvQuota.contains (slot, gen) || !(l.any fun e => decide (field e.arg1 8 10 = slot) && decide (s.leaf c e.base = 0)) then s
    else (s.modCtx c fun x => { x with kvQuota := x.kvQuota ++ [(slot, gen)] }).raise (rakeUnit c) (some c) 0x0302 (w4 [handle slot gen])) s

/-- After the queue has been applied: the sequences that are still not ready, and the quota marks that no longer
stand. -/
def State.settleReady (s : State) (c : Nat) : State :=
  let l := (s.ctx c).member.notReady.filter fun p => s.seqNotReady c p
  s.modCtx c fun x => { x with
    kvQuota := x.kvQuota.filter fun q => l.any fun p => decide (p.1 = q.1 ∧ p.2.1 = q.2)
    member := { x.member with notReady := l } }

end Sys2Proof.Machine
end

