-- ==== Sys2Proof/Machine/NodeOps.lean ====
section
/-! DEFINITION. Machine/NodeOps.lean: memory-semantic operations (R367-R383, 14_rack_memory_semantics.md): the checks
and the numbering at the source, the sequence state of a pair, and the home agents. -/
namespace Sys2Proof

/-- Bytes of a packet's header, by their number in the packet (R349). -/
def Packet.h (p : Packet) (at_ n : Nat) : Nat := Machine.ofLe ((p.head.drop (at_ - 8)).take n)

end Sys2Proof

namespace Sys2Proof.Machine

def msfUnit (c : Nat) : Raiser := .page .msf c

/-! ### Packets (R375) -/

/-- Bytes 8-31 of a request, a RESYNC, and a response. -/
def reqHead (offset region seq key op size ctx : Nat) (data : List Byte) : List Byte :=
  leBytes offset 5 ++ leBytes region 1 ++ leBytes seq 2 ++ leBytes key 4 ++ leBytes op 1 ++ leBytes size 1 ++
    leBytes ctx 2 ++ data.take 8 ++ List.replicate (8 - data.length) 0

/-- The packet of a node operation. -/
def opPacket (node : Nat) (o : NodeOp) : Packet :=
  { dst := node, src := 0, slice := 0, vc := 0, hop := false, type := o.kind,
    head := reqHead o.offset o.region o.seq o.key (o.op + (if o.ret && decide (o.kind = 3) then 16 else 0)) o.size o.ctx
      o.data
    payload := o.data.drop 8 }

/-- A RESYNC (type 5) or RESYNC_ACK (type 6). -/
def resyncPacket (node type vc base : Nat) : Packet :=
  { dst := node, src := 0, slice := 0, vc := vc, hop := false, type := type,
    head := reqHead 0 0 base 0 0 0 0 [], payload := [] }

/-- A response to a request (R375). -/
def respPacket (req : Packet) (status : Nat) (wcoll : Bool) (data : List Byte) : Packet :=
  let small := decide (data.length ≤ 8)
  { dst := req.src, src := 0, slice := 0, vc := 2, hop := false, type := 4,
    head := reqHead (req.h 8 5) (req.h 13 1) (req.h 14 2) (status + 16 * b2n wcoll) 0 0 0 (if small then data else [])
    payload := if small then [] else data }

/-- Injects a packet for the context it is accounted to, or for none. -/
def State.injectFor (s : State) (c : Option Nat) (p : Packet) : State :=
  match c with
  | some c => (s.inject c p).2
  | none => (s.injectOwn p).2

/-! ### The source (R368, R370, R376-R379) -/

/-- The route entry of a node allows memory-semantic operations: V, this slice, this rack (R368). -/
def State.rackRoute (s : State) (node : Nat) : Bool :=
  (s.route node).v && decide ((s.route node).slice = s.slice) && (s.route node).rack

/-- An import entry covers an access. -/
def Import.covers (e : Import) (node off n : Nat) : Bool :=
  e.v && decide (e.node = node) && decide (e.base ≤ off) && decide (off + n ≤ e.base + e.size)

/-- The import entry an access uses: the lowest index that covers it (R370). -/
def State.importOf (s : State) (c node off n : Nat) : Option Import :=
  ((s.ctx c).imports.find? fun e => e.2.covers node off n).map Prod.snd

/-- The source's checks of a node operation (R371): the status, and the import entry. -/
def State.nodeCheck (s : State) (c node off n : Nat) : Nat × Option Import :=
  if !s.rackRoute node then (1, none)
  else
    match s.importOf c node off n with
    | some e => if s.on R.MSF_CTRL.EN c then (0, some e) else (2, none)
    | none => (2, none)

def State.pair (s : State) (node : Nat) : Pair := tget Pair.none s.rack.pairs node
def State.setPair (s : State) (node : Nat) (p : Pair) : State :=
  { s with rack := { s.rack with pairs := tset Pair.none s.rack.pairs node p } }

/-- Unanswered node operations of a context: `MSF_STATUS.OUTSTANDING`. -/
def State.outstanding (s : State) (c : Nat) : Nat :=
  s.rack.pairs.foldl (fun n e => n + (e.2.open_.filter fun o => decide (o.ctx = c)).length) 0

/-- A posted operation of the core has not been answered (R379). -/
def State.postedOpen (s : State) (n : Nat) : Bool :=
  s.rack.pairs.any fun e => e.2.open_.any fun o => !o.ret && decide (o.core = n ∧ o.gen = tget 0 s.rack.coreGen n)

/-- The context a RESYNC is accounted to: that of the oldest request. -/
def Pair.payer (p : Pair) : Option Nat := p.open_.head?.map NodeOp.ctx

/-- Starts a RESYNC of a pair with a new base (R376, R377). -/
def State.startResync (s : State) (node : Nat) : State :=
  let p := s.pair node
  let base := (p.next + 32768) % 65536
  (s.setPair node { p with synced := false, resyncing := true, base := base, retries := 0 }).injectFor p.payer
    (resyncPacket node 5 0 base)

/-- Enters an operation into its pair: sent at once, or, where the pair has no state yet, after its RESYNC. -/
def State.nodeEnter (s : State) (node : Nat) (o : NodeOp) : State :=
  let p := s.pair node
  let o := { o with seq := p.next, sent := p.synced }
  let s := s.bump R.MSF_OPS_OUT.COUNT o.ctx
  if p.synced then
    (s.setPair node { p with next := (p.next + 1) % 65536, open_ := p.open_ ++ [o] }).injectFor (some o.ctx) (opPacket node o)
  else
    let s := s.setPair node { p with open_ := p.open_ ++ [o] }
    if p.resyncing then s else s.startResync node

/-- The last node operation that ended with a status other than 0. -/
def State.msfLastFail (s : State) (c status node region : Nat) : State :=
  ((s.put R.MSF_LAST_FAIL.STATUS c status).put R.MSF_LAST_FAIL.NODE c node).put R.MSF_LAST_FAIL.REGION c region

/-- A posted operation ended with a status other than 0 (R372). -/
def State.postedFail (s : State) (c status node off : Nat) : State :=
  (s.bump R.MSF_REFUSED_OUT.COUNT c).ctxFault (msfUnit c) c 0x4421 (w4 [status, node] ++ leBytes off 8)

/-- The outcome of a node operation reaches its issuer, unless the core's generation has advanced (R372, R378). -/
def State.nodeDeliver (s : State) (node : Nat) (o : NodeOp) (status : Nat) (wcoll : Bool) (v : Word64) : State :=
  if tget 0 s.rack.coreGen o.core ≠ o.gen then s
  else
    let s := if wcoll then s.bump R.MSF_WCOLL.COUNT o.ctx else s
    if o.ret then
      let s := if status ≠ 0 then
          (s.bump R.MSF_REFUSED_OUT.COUNT o.ctx).msfLastFail o.ctx status node o.region
        else s
      s.modCore o.core fun k => if k.nodeWait = o.ticket then { k with nodeWait := 0, nodeAns := some (status, v) } else k
    else if status ≠ 0 then s.postedFail o.ctx status node o.offset
    else s

/-- The value a response carries. -/
def NodeOp.value (o : NodeOp) (p : Packet) : Word64 :=
  extendLoad (BitVec.ofNat 2 o.size) o.sext ((p.head.drop 16).take 8)

/-- A response arrives at the source. -/
def State.respIn (s : State) (p : Packet) : State :=
  let status := p.h 16 1 % 16
  let q := s.pair p.src
  if status = 12 then (if q.resyncing then s else s.startResync p.src)
  else
    match q.open_.find? fun o => decide (o.seq = p.h 14 2) && o.sent with
    | none => s
    | some o =>
      let s := s.setPair p.src { q with open_ := q.open_.filter (fun x => decide (x.ticket ≠ o.ticket)), retries := 0 }
      s.nodeDeliver p.src o status (bit (p.h 16 1) 4) (o.value p)

/-- Sends a pair's unanswered requests again, oldest first; each that had been sent before counts as a resend. -/
def State.resendAll (s : State) (node : Nat) : State :=
  (s.pair node).open_.foldl (fun s o =>
    let s := if o.sent then s.bump R.MSF_RETRANSMITS.COUNT o.ctx else s
    s.injectFor (some o.ctx) (opPacket node o)) s

/-- Numbers requests from a base on. -/
def renumber : Nat → List NodeOp → List NodeOp
  | _, [] => []
  | b, o :: t => { o with seq := b % 65536 } :: renumber (b + 1) t

def markSent (l : List NodeOp) : List NodeOp := l.map fun o => { o with sent := true }

/-- A RESYNC_ACK arrives: the pair's unanswered requests go out again, numbered from the base (R377). -/
def State.resyncAck (s : State) (p : Packet) : State :=
  let q := s.pair p.src
  if q.resyncing && decide (q.base = p.h 14 2) then
    let s := s.setPair p.src { q with
      synced := true, resyncing := false, retries := 0
      open_ := renumber q.base q.open_, next := (q.base + q.open_.length) % 65536 }
    let s := s.resendAll p.src
    s.setPair p.src { s.pair p.src with open_ := markSent (s.pair p.src).open_ }
  else s

/-- Every unanswered request of a pair ends with TIMEOUT, and its next request starts a RESYNC. -/
def State.pairTimeout (s : State) (node : Nat) : State :=
  let q := s.pair node
  let s := s.setPair node { q with synced := false, resyncing := false, open_ := [], retries := 0 }
  q.open_.foldl (fun s o => s.nodeDeliver node o 10 false 0#64) s

/-- `MSF_REQ_TIMEOUT` has passed for a pair's oldest request or its RESYNC. The retry count is that of the oldest
request's context. -/
def State.reqTimeout (s : State) (node : Nat) : State :=
  let q := s.pair node
  match q.payer with
  | none => s
  | some c =>
    if q.retries < s.fld R.MSF_RETRY.COUNT c then
      let s := s.setPair node { q with retries := q.retries + 1 }
      if q.resyncing then s.injectFor (some c) (resyncPacket node 5 0 q.base) else s.resendAll node
    else s.pairTimeout node

/-! ### The destination (R376, R377) -/

def State.pairIn (s : State) (node : Nat) : PairIn := tget PairIn.none s.rack.pairsIn node
def State.setPairIn (s : State) (node : Nat) (p : PairIn) : State :=
  { s with rack := { s.rack with pairsIn := tset PairIn.none s.rack.pairsIn node p } }

/-- A RESYNC arrives. -/
def State.resyncIn (s : State) (p : Packet) : State :=
  let base := p.h 14 2
  let q := s.pairIn p.src
  let s := if q.v && decide (q.base = base) then s else s.setPairIn p.src ⟨true, base, base, []⟩
  s.injectFor none (resyncPacket p.src 6 2 base)

/-- The fields of a request hold no reserved value. -/
def reqOk (p : Packet) : Bool :=
  let size := p.h 21 1
  let aligned := decide (p.h 8 5 % 2 ^ size = 0)
  match p.type with
  | 1 | 2 => aligned && decide (size ≤ 3) || decide (p.h 8 5 % 64 = 0) && decide (6 ≤ size ∧ size ≤ 12)
  | 3 => aligned && decide (size = 3) && decide (p.h 20 1 % 16 ≤ 6 ∧ p.h 20 1 < 32)
  | _ => false

/-- A LOAD, STORE or AMO request arrives: taken in SEQ order, answered again, or dropped (R376). -/
def State.requestIn (s : State) (p : Packet) : State :=
  let q := s.pairIn p.src
  let seq := p.h 14 2
  if !reqOk p then s.bump R.ROUTE_MISROUTED.COUNT 0
  else if !q.v then s.injectFor none (respPacket p 12 false [])
  else if seq = q.expected then
    let s := s.setPairIn p.src { q with
      expected := (q.expected + 1) % 65536, responses := ((seq, none) :: q.responses).take 64 }
    { s with rack := { s.rack with homeQ := s.rack.homeQ ++ [⟨p.src, p, 0, [], false⟩] } }
  else if (q.expected + 65536 - seq) % 65536 ≤ 64 then
    match q.responses.find? fun r => decide (r.1 = seq) with
    | some (_, some r) => s.injectFor none r
    | _ => s
  else s

/-! ### Regions (R369, R371) -/

def State.region (s : State) (r : Nat) : Region := tget Region.none s.rack.regions r
def Region.isSet (g : Region) : Bool := decide (g.size ≠ 0)

/-- Core and scratchpad address of a SCRATCH region's first byte. -/
def Region.core (g : Region) : Nat := g.target / 2 ^ 20
def Region.scrBase (g : Region) : Nat := g.target % 2 ^ 20

/-- The core of a SCRATCH region no longer serves it. -/
def State.regionFenced (s : State) (g : Region) : Bool :=
  decide (g.kind = 1) && (decide (s.coreState g.core = coreFenced) || !s.inSet g.owner g.core)

/-- Counts a refusal at its region's owner, and reports a wrong key (R372). -/
def State.refusedIn (s : State) (r src status : Nat) : State :=
  let g := s.region r
  if !g.isSet then s
  else
    let s := s.bump R.MSF_REFUSED_IN.COUNT g.owner
    if status = 4 then s.raiseOnce (toldKey 0x0421 r) msTicks (msfUnit g.owner) (some g.owner) 0x0421 (w4 [src, r]) else s

/-- A translation for a home agent or the message engine, through the owner's page table; 0 where it fails or names
T3 (R371, R380). -/
def State.ownerXlat (s : State) (c va need : Nat) : Nat × State :=
  let e := s.leaf c (va / 65536)
  if s.vaInRange c va && leafOk e && leafGrants e need && decide (leafTier e < 2) then (e, s) else (0, s.xlatFail c va)

/-- Every piece of a range translates: the leaf entries, or none. -/
def State.ownerRange (s : State) (c va n need : Nat) : Option (List (Nat × Nat × Nat)) × State :=
  (pieces va (n / 65536 + 2) n).foldl
    (fun (acc : Option (List (Nat × Nat × Nat)) × State) p =>
      match acc.1 with
      | none => acc
      | some l =>
        let t := acc.2.ownerXlat c p.1 need
        if t.1 = 0 then (none, t.2) else (some (l ++ [(p.1, p.2, t.1)]), t.2))
    (some [], s)

/-- What an uncorrectable or corrected error shows on a read of memory. -/
def isUe (e : Ecc) : Bool := decide (e = .uncorrectable)

/-- Reads bytes of an owner's unified range: status and bytes. -/
def State.ownerRead (s : State) (c va n : Nat) (ecc : Ecc) : Nat × List Byte × State :=
  match s.ownerRange c va n 1 with
  | (none, s) => (6, [], s)
  | (some l, s) =>
    let bs := l.flatMap fun p => s.physRead (leafTier p.2.2) (leafLoc p.2.2) p.1 p.2.1
    let s := l.foldl (fun s p => if leafTier p.2.2 = 1 then s.hbmBytes c p.2.1 else s) s
    let s := match l.head? with
      | some p => s.lineEcc (leafTier p.2.2) (leafLoc p.2.2) (p.1 % 65536) ecc
      | none => s
    if isUe ecc then (8, [], s) else (0, bs, s)

/-- Writes bytes of an owner's unified range; nothing is written where a part does not translate. -/
def State.ownerWrite (s : State) (c va : Nat) (bs : List Byte) : Nat × State :=
  match s.ownerRange c va bs.length 2 with
  | (none, s) => (6, s)
  | (some l, s) => (0, l.foldl (fun s p => s.leafWrite c p.2.2 p.1 ((bs.drop (p.1 - va)).take p.2.1)) s)

/-- Reads bytes of a region at an offset from its start. -/
def State.regionRead (s : State) (g : Region) (off n : Nat) (env : Surround) : Nat × List Byte × State :=
  if g.kind = 1 then
    if s.regionFenced g then (7, [], s)
    else
      let bs := (s.core g.core).scrRead (g.scrBase + off) n
      let s := s.scrEcc g.core env.scr
      if isUe env.scr then (8, [], s) else (0, bs, s)
  else s.ownerRead g.owner (g.target + off) n env.mem

/-- Writes bytes of a region: the status, and whether a write into a scratchpad was lost. -/
def State.regionWrite (s : State) (g : Region) (off : Nat) (bs : List Byte) (env : Surround) : Nat × Bool × State :=
  if g.kind = 1 then
    if s.regionFenced g then (7, false, s)
    else (0, decide (lostWords (g.scrBase + off) bs.length env.drop ≠ []), s.scrPut g.core 2 (g.scrBase + off) bs env.drop)
  else
    let r := s.ownerWrite g.owner (g.target + off) bs
    (r.1, false, r.2)

/-! ### Home agents (R380-R382) -/

/-- Lines a request covers, and the line it has reached. -/
def HomeReq.line (q : HomeReq) : Nat := q.pkt.h 8 5 / 64 + q.lines
def HomeReq.count (q : HomeReq) : Nat := if q.pkt.h 21 1 ≤ 3 then 1 else 2 ^ q.pkt.h 21 1 / 64
def HomeReq.covers (q : HomeReq) (line : Nat) : Bool :=
  decide (q.line ≤ line) && decide (line < q.pkt.h 8 5 / 64 + q.count)

/-- The request of a source that heads a line's queue, if it has reached the line. -/
def State.lineHead (s : State) (line src : Nat) : Option HomeReq :=
  match s.rack.homeQ.find? fun q => decide (q.src = src) && q.covers line with
  | some q => if q.line = line then some q else none
  | none => none

/-- An arithmetic atomic that may be combined. -/
def HomeReq.combines (q : HomeReq) : Bool := decide (q.pkt.type = 3 ∧ q.pkt.h 20 1 % 16 ≤ 4)

/-- Requests of later sources that join the first: the same operation on the same word, up to `n` of them. -/
def joined (first : HomeReq) : Nat → List HomeReq → List HomeReq
  | 0, _ => []
  | _, [] => []
  | n + 1, q :: t =>
    if q.pkt.type = 3 ∧ q.pkt.h 20 1 % 16 = first.pkt.h 20 1 % 16 ∧ q.pkt.h 8 5 = first.pkt.h 8 5 then q :: joined first n t
    else []

/-- The word an atomic leaves. -/
def amoResult (op : Nat) (old a b : Word64) : Word64 :=
  match op with
  | 0 => old + a
  | 1 => if old.slt a then old else a
  | 2 => if old.slt a then a else old
  | 3 => if old.ult a then old else a
  | 4 => if old.ult a then a else old
  | 5 => a
  | _ => if old = a then b else old

def wordOf (bs : List Byte) : Word64 := BitVec.ofNat 64 (ofLe bs)
def bytesOf (w : Word64) : List Byte := leBytes w.toNat 8

/-- Operand or store data of a request: eight header bytes, then the payload. -/
def reqData (p : Packet) : List Byte := (p.head.drop 16).take 8 ++ p.payload

/-- The checks 3-5 of the destination (R371): permission bits of R369 are 0 LOAD, 1 STORE, 2 AMO. -/
def State.homeCheck (s : State) (p : Packet) : Nat :=
  let g := s.region (p.h 13 1)
  let off := p.h 8 5
  if !g.isSet || !s.on R.MSF_CTRL.EN g.owner || decide (off < g.base) || decide (g.base + g.size < off + 2 ^ p.h 21 1) then 3
  else if g.key ≠ p.h 16 4 then 4
  else if g.kind = 2 ∨ bit g.perm (p.type - 1) = false then 5
  else 0

/-- Applies a request to the line it has reached: its status, whether a write was lost, and the data it gives. -/
def State.homeApply (s : State) (q : HomeReq) (env : Surround) : Nat × Bool × List Byte × State :=
  let p := q.pkt
  let g := s.region (p.h 13 1)
  let off := p.h 8 5 + 64 * q.lines - g.base
  let n := if p.h 21 1 ≤ 3 then 2 ^ p.h 21 1 else 64
  let c := s.homeCheck p
  if c ≠ 0 then (c, false, [], s)
  else
    match p.type with
    | 1 =>
      let r := s.regionRead g off n env
      (r.1, false, r.2.1, r.2.2)
    | 2 =>
      let r := s.regionWrite g off (((reqData p).drop (64 * q.lines)).take n) env
      (r.1, r.2.1, [], r.2.2)
    | _ =>
      let r := s.regionRead g off 8 env
      if r.1 ≠ 0 then (r.1, false, [], r.2.2)
      else
        let d := reqData p
        let w := r.2.2.regionWrite g off
          (bytesOf (amoResult (p.h 20 1 % 16) (wordOf r.2.1) (wordOf (d.take 8)) (wordOf ((d.drop 8).take 8)))) env
        (w.1, w.2.1, if bit (p.h 20 1) 4 then r.2.1 else [], w.2.2)

/-- Sends a request's response, and keeps it for duplicates (R376, R377). -/
def State.respond (s : State) (p : Packet) (status : Nat) (wcoll : Bool) (data : List Byte) : State :=
  let g := s.region (p.h 13 1)
  let r := respPacket p status wcoll data
  let q := s.pairIn p.src
  let s := s.setPairIn p.src { q with
    responses := q.responses.map fun e => if e.1 = p.h 14 2 ∧ e.2 = none then (e.1, some r) else e }
  let s := if status = 0 then s.bump R.MSF_OPS_SERVED.COUNT g.owner else s.refusedIn (p.h 13 1) p.src status
  s.injectFor (if g.isSet then some g.owner else none) r

/-- One taken request: applied, and answered when its last line is done or a check fails. -/
def State.homeServe (s : State) (q : HomeReq) (env : Surround) : State :=
  let r := s.homeApply q env
  let wcoll := q.wcoll || r.2.1
  let data := q.data ++ r.2.2.1
  let at_ := r.2.2.2.rack.homeQ.findIdx? fun x => decide (x = q)
  match at_ with
  | none => r.2.2.2
  | some i =>
    if r.1 ≠ 0 ∨ q.count ≤ q.lines + 1 then
      let s := { r.2.2.2 with rack := { r.2.2.2.rack with homeQ := r.2.2.2.rack.homeQ.eraseIdx i } }
      s.respond q.pkt r.1 wcoll data
    else
      { r.2.2.2 with rack := { r.2.2.2.rack with
        homeQ := r.2.2.2.rack.homeQ.set i { q with lines := q.lines + 1, data := data, wcoll := wcoll } } }

/-- The memory under a request is held for a refill (R202). -/
def State.homeHeld (s : State) (q : HomeReq) : Bool :=
  let g := s.region (q.pkt.h 13 1)
  g.isSet && decide (g.kind = 0) && s.held? g.owner ((g.target + (q.pkt.h 8 5 + 64 * q.lines - g.base)) / 65536)

/-- One slot of a line (R381): what the check bits show of the word read goes to the first request taken; the others
read it with the same outcome. -/
def State.homeSlot (s : State) (line : Nat) (env : Surround) : State :=
  let ptr := tget 0 s.rack.homePtr line
  let order := ((List.range 4096).map fun i => (ptr + i) % 4096).filterMap fun n => s.lineHead line n
  match order with
  | [] => s
  | first :: rest =>
    if s.homeHeld first then s
    else
      let taken := first :: (if first.combines then joined first 7 rest else [])
      let last := (taken.getLast?.getD first).src
      let s := (s.homeServe first env)
      let bad := isUe env.mem || isUe env.scr
      let s := taken.tail.foldl (fun s q =>
        if bad then
          let s := { s with rack := { s.rack with homeQ := s.rack.homeQ.filter fun x => decide (x ≠ q) } }
          s.respond q.pkt (if s.homeCheck q.pkt ≠ 0 then s.homeCheck q.pkt else 8) false []
        else s.homeServe q { env with mem := .ok, scr := .ok }) s
      if rest = [] then s
      else { s with rack := { s.rack with homePtr := tset 0 s.rack.homePtr line ((last + 1) % 4096) } }

end Sys2Proof.Machine
end

