-- ==== Sys2Proof/Machine/BargeOps.lean ====
section
/-! DEFINITION. Machine/BargeOps.lean: the Barge engine: its tables, the close of a half, parts, waits, tags, failures
and placement (R256-R284; 10_expert_exchange.md). -/
namespace Sys2Proof.Machine

def bargeUnit (c : Nat) : Raiser := .page .barge c

/-- Ends a context with `EV_BARGE_PROTO`: cause 0 `X_BSEND`, 1 part, 2 `X_BRET`. -/
def State.bargeProto (s : State) (c layer cause node : Nat) : State :=
  s.ctxFault (bargeUnit c) c 0x4311 (w4 [layer, cause, node])

/-- d_model (R257). -/
def State.dModel (s : State) (c : Nat) : Nat := 64 * s.fld R.BARGE_CFG.DUNITS c

/-! ### Tables (R257-R260) -/

/-- Bits of a record, little-endian. -/
def recBits (bs : List Byte) : Nat := ofLe bs

/-- A layer-table record; none where it holds a reserved encoding. In a dense layer only MOE and the reserved bits are
checked. -/
def layerRecord (bs : List Byte) : Option BargeLayer :=
  let v := recBits bs
  let addr (b : Nat) : Nat := field v (8 * b + 6) 42 * 64
  let r : BargeLayer :=
    { k := field v 0 4, afmt := field v 4 2, moe := bit v 6, nsend := field v 8 5, slo := field v 16 12,
      hlo := field v 32 12, hcount := field v 48 13, dir := addr 8, nexp := field v 112 13,
      send := (addr 16, addr 24), ret := (addr 32, addr 40) }
  let clear (b : Nat) : Bool := decide (field v (8 * b) 6 = 0) && decide (field v (8 * b + 48) 16 = 0)
  let reserved := !bit v 7 && decide (field v 13 3 = 0 ∧ field v 28 4 = 0 ∧ field v 44 4 = 0 ∧ field v 61 3 = 0) &&
    decide (field v 64 6 = 0 ∧ field v 125 3 = 0) && clear 16 && clear 24 && clear 32 && clear 40 &&
    decide (field v 384 128 = 0)
  let values := decide (1 ≤ r.k ∧ r.k ≤ 8 ∧ r.afmt ≠ 3 ∧ 1 ≤ r.nsend ∧ r.nsend ≤ 16 ∧ 1 ≤ r.hcount ∧ r.hcount ≤ 4096) &&
    decide (1 ≤ r.nexp ∧ r.nexp ≤ 4096 ∧ r.slo + r.nsend ≤ 4096 ∧ r.hlo + r.hcount ≤ 4096)
  if reserved && (!r.moe || values) then some (if r.moe then r else BargeLayer.none) else none

/-- A replica of a directory record. -/
def replicaRecord (v : Nat) : Option Replica :=
  if field v 1 7 = 0 ∧ field v 48 16 = 0 then
    some ⟨bit v 0, field v 8 12, field v 20 12, field v 32 8, field v 40 8⟩
  else none

/-- An expert's eight replicas; none where an entry holds a reserved encoding. -/
def expertRecord (bs : List Byte) : Option (List Replica) :=
  let l := (List.range 8).map fun i => replicaRecord (ofLe ((bs.drop (8 * i)).take 8))
  if l.all Option.isSome then some (l.filterMap id) else none

/-- A replica as its eight bytes. -/
def replicaBytes (r : Replica) : List Byte :=
  leBytes (b2n r.v + 2 ^ 8 * r.node + 2 ^ 20 * r.host + 2 ^ 32 * r.weight + 2 ^ 40 * r.slots) 8

/-- A host-table entry. -/
def hostRecord (bs : List Byte) : Option HostEntry :=
  let v := recBits bs
  if field v 22 2 = 0 ∧ field v 56 8 = 0 ∧ field v 64 6 = 0 ∧ field v 112 16 = 0 ∧ field v 128 6 = 0 ∧ field v 176 16 = 0 ∧
      field v 192 16 = 0 ∧ field v 240 16 = 0 then
    some ⟨field v 0 8, field v 8 12, bit v 20, bit v 21, field v 24 8, field v 32 24, field v 70 42 * 64, field v 134 42 * 64,
      field v 208 32 * 65536⟩
  else none

/-- First word of a host-table entry. -/
def hostWord (h : HostEntry) : Nat :=
  h.layer + 2 ^ 8 * h.expert + 2 ^ 20 * b2n h.valid + 2 ^ 21 * b2n h.spare + 2 ^ 24 * h.slots

/-- Takes the records of a table: an ignored one is reported with its number (R260). -/
def State.takeRecords {α : Type} (s : State) (c base n size : Nat) (bs : List Byte) (f : List Byte → Option α)
    (set : Ctx → Nat → α → Ctx) : State :=
  (List.range n).foldl (fun s i =>
    match f ((bs.drop (size * i)).take size) with
    | some r => s.modCtx c fun x => set x i r
    | none => s.errlog .barge c 4 (base + i) 0 0) s

/-- Reads the directory of each layer that exchanges by barge. -/
def State.reloadDirs (s : State) (c : Nat) (far : List Byte) : List Byte × State :=
  (s.ctx c).layers.foldl (fun (acc : List Byte × State) (e : Nat × BargeLayer) =>
    let r := acc.2.ureadFar 0 c e.2.dir (64 * e.2.nexp) acc.1
    match r.1 with
    | .bytes bs => (r.2.1, r.2.2.takeRecords c (e.1 * 4096) e.2.nexp 64 bs expertRecord fun x i l =>
        { x with dirs := tset [] x.dirs (e.1 * 4096 + i) l })
    | _ => (r.2.1, r.2.2.errlog .barge c 4 (e.1 * 4096) 0 0)) (far, s)

/-- Rereads the tables at a boundary; a table that cannot be read keeps its last contents (log entry 41). -/
def State.reloadTabs (s : State) (c : Nat) (far : List Byte) : State :=
  if (s.ctx c).reloadTabs then
    let s := s.modCtx c fun x => { x with reloadTabs := false }
    let nl := s.fld R.BARGE_LTAB_COUNT.COUNT c
    let r := s.ureadFar 0 c (s.addr R.BARGE_LTAB_BASE.ADDR c) (64 * nl) far
    let p : List Byte × State := match r.1 with
      | .bytes bs =>
        ((r.2.2.modCtx c fun x => { x with layers := [], dirs := [] }).takeRecords c 0 nl 64 bs layerRecord fun x i l =>
          { x with layers := tset BargeLayer.none x.layers i l }).reloadDirs c r.2.1
      | _ => (r.2.1, r.2.2.errlog .barge c 4 0 0 0)
    let nh := p.2.fld R.BARGE_HTAB_COUNT.COUNT c
    let q := p.2.ureadFar 0 c (p.2.addr R.BARGE_HTAB_BASE.ADDR c) (32 * nh) p.1
    match q.1 with
    | .bytes bs => (q.2.2.modCtx c fun x => { x with hosts := [] }).takeRecords c 0 nh 32 bs hostRecord fun x i h =>
        { x with hosts := tset HostEntry.none x.hosts i h }
    | _ => q.2.2.errlog .barge c 4 0 0 0
  else s

def Ctx.bargeLayer (x : Ctx) (l : Nat) : BargeLayer := tget BargeLayer.none x.layers l
def Ctx.dirOf (x : Ctx) (l e : Nat) : List Replica := tget [] x.dirs (4096 * l + e)
def Ctx.hostEntry (x : Ctx) (h : Nat) : HostEntry := tget HostEntry.none x.hosts h
def halfKey (l : Nat) (h : Bool) : Nat := 2 * l + b2n h
def Ctx.half (x : Ctx) (k : Nat) : Half := tget Half.none x.halves k
def Ctx.setHalf (x : Ctx) (k : Nat) (h : Half) : Ctx := { x with halves := tset Half.none x.halves k h }
def Ctx.barge (x : Ctx) (t : Nat) : Barge := tget Barge.none x.barges t
def Ctx.setBarge (x : Ctx) (t : Nat) (b : Barge) : Ctx := { x with barges := tset Barge.none x.barges t b }

/-! ### The down list (R278) -/

def State.isDown (s : State) (c node : Nat) : Bool :=
  (List.range 16).any fun k => s.on R.BARGE_DOWN.V c k && decide (s.fld R.BARGE_DOWN.NODE c k = node)

/-- Adds a node; a full list ends the context. -/
def State.addDown (s : State) (c node : Nat) : State :=
  if s.isDown c node then s
  else
    match (List.range 16).find? fun k => !s.on R.BARGE_DOWN.V c k with
    | some k => (s.setFld R.BARGE_DOWN.NODE c k node).setFld R.BARGE_DOWN.V c k 1
    | none => s.ctxFault (bargeUnit c) c 0x4312 (w4 [node])

/-- Removes the entries whose bit was written to `BARGE_DOWN_CLR`. -/
def State.clearDown (s : State) (c : Nat) : State :=
  let bits := (s.ctx c).downClr
  let s := (bitsSet bits 16).foldl (fun s k => (s.setFld R.BARGE_DOWN.NODE c k 0).setFld R.BARGE_DOWN.V c k 0) s
  s.modCtx c fun x => { x with downClr := 0 }

/-- The down list as the broadcast carries it: 16 nodes with their valid bits (R299). -/
def State.downBytes (s : State) (c : Nat) : List Byte :=
  (List.range 16).flatMap fun k => leBytes (s.fld R.BARGE_DOWN.NODE c k + 2 ^ 15 * s.fld R.BARGE_DOWN.V c k) 2

/-- Takes the list of a broadcast over. -/
def State.takeDown (s : State) (c : Nat) (bs : List Byte) : State :=
  (List.range 16).foldl (fun s k =>
    let v := ofLe ((bs.drop (2 * k)).take 2)
    (s.setFld R.BARGE_DOWN.NODE c k (field v 0 12)).setFld R.BARGE_DOWN.V c k (field v 15 1)) s

/-! ### Route records and choices (R261, R265) -/

def routeSlot (r : List Byte) : Nat := field (ofLe (r.take 4)) 0 10
def routeGen (r : List Byte) : Nat := field (ofLe (r.take 4)) 10 8
def routePos (r : List Byte) : Nat := field (ofLe ((r.drop 4).take 4)) 0 20
def routeExpert (r : List Byte) (j : Nat) : Nat := field (ofLe ((r.drop (8 + 2 * j)).take 2)) 0 12
def routeGate (r : List Byte) (j : Nat) : Nat := ofLe ((r.drop (24 + 4 * j)).take 4)
def routeScale (r : List Byte) : Nat := ofLe ((r.drop 56).take 4)

/-- Hash of a choice. -/
def choiceHash (r : List Byte) (l j : Nat) : Nat :=
  crc32c (leBytes (routeSlot r + 2 ^ 10 * routeGen r + 2 ^ 18 * routePos r + 2 ^ 38 * l + 2 ^ 46 * j) 8)

/-- Live replicas of an expert, with their indexes (R258). -/
def State.liveReplicas (s : State) (c l e : Nat) : List (Nat × Replica) :=
  (((List.range 8).zip ((s.ctx c).dirOf l e)).filter fun p => p.2.v && !s.isDown c p.2.node)

/-- Place in the list of live replicas that `pick` gives. -/
def pickAt : Nat → List (Nat × Replica) → Nat
  | _, [] => 0
  | u, p :: ps => if u < p.2.weight then 0 else 1 + pickAt (u - p.2.weight) ps

def pickReplica (live : List (Nat × Replica)) (h : Nat) : Nat :=
  let w := (live.map fun p => p.2.weight).foldl (· + ·) 0
  if w = 0 then 0 else pickAt (h % w) live

/-- Choices of a half assigned so far, and those dropped: row, rank, expert. -/
structure Choices where
  assigned : List Assigned
  dropped : List (Nat × Nat × Nat)
  deriving DecidableEq, Repr

/-- Assigns one choice, or drops it. -/
def State.chooseOne (s : State) (c l : Nat) (rec' : BargeLayer) (rows : Table (List Byte)) (j : Nat) (acc : Choices)
    (row : Nat) : Choices :=
  let r := tget [] rows row
  let e := routeExpert r j
  let live := s.liveReplicas c l e
  let dropIt : Choices := { acc with dropped := acc.dropped ++ [(row, j, e)] }
  if rec'.nexp ≤ e ∨ live = [] then dropIt
  else
    let at' := pickReplica live (choiceHash r l j)
    let used (p : Replica) : Nat := (acc.assigned.filter fun a => decide (a.node = p.node ∧ a.host = p.host)).length
    match (live.drop at' ++ live.take at').find? fun p => decide (used p.2 < p.2.slots) with
    | some p => { acc with assigned := acc.assigned ++ [⟨row, j, p.1, p.2.node, p.2.host, used p.2⟩] }
    | none => dropIt

/-- The choices of a half, in rank-major order. -/
def State.choose (s : State) (c l : Nat) (h : Half) : Choices :=
  let r := (s.ctx c).bargeLayer l
  (List.range r.k).foldl (fun acc j => (List.range h.total).foldl (fun acc row => s.chooseOne c l r h.rows j acc row) acc)
    ⟨[], []⟩

/-! ### Gates (R266) -/

/-- The final gate of a surviving choice of a row: `fr` numbers a free NaN. -/
def finalGate (renorm : Bool) (ch : Choices) (r : List Byte) (row j k fr : Nat) : Nat :=
  let alive := (List.range k).filter fun i => ch.assigned.any fun a => decide (a.row = row ∧ a.j = i)
  if !renorm || decide (alive.length = k) then routeGate r j
  else
    let sum := match alive with
      | [] => 0
      | i :: is => is.foldl (fun acc i => encodeF fp32 ((decodeF fp32 acc).add (decodeF fp32 (routeGate r i))) fr) (routeGate r i)
    match decodeF fp32 sum with
    | .fin _ 0 _ => routeGate r j
    | .fin .. => divF fp32 (decodeF fp32 (routeGate r j)) (decodeF fp32 sum) fr
    | _ => routeGate r j

/-- A row that lost every choice. -/
def bypassed (ch : Choices) (row : Nat) : Bool := !ch.assigned.any fun a => decide (a.row = row)

/-- The header of a choice in the return area. -/
def choiceHeader (renorm : Bool) (ch : Choices) (r : List Byte) (row j k fr : Nat) : List Byte :=
  let by_ := if bypassed ch row then 4 else 0
  match ch.assigned.find? fun a => decide (a.row = row ∧ a.j = j) with
  | some a => leBytes 1 4 ++ leBytes (finalGate renorm ch r row j k fr) 4 ++
      leBytes (routeExpert r j + 2 ^ 12 * a.index + 2 ^ 16 * a.node) 4 ++ List.replicate 52 0
  | none => leBytes (2 + by_) 4 ++ [0, 0, 0, 0] ++ leBytes (routeExpert r j) 4 ++ List.replicate 52 0

/-- Address of row `row`, rank `j`, in the return area of a half. -/
def retAddr (r : BargeLayer) (h : Bool) (d row j : Nat) : Nat :=
  (if h then r.ret.2 else r.ret.1) + (row * r.k + j) * (64 + 2 * d)

/-- Writes the headers of a half. -/
def State.writeHeaders (s : State) (c l : Nat) (h : Bool) (half : Half) (ch : Choices) : State :=
  let r := (s.ctx c).bargeLayer l
  let d := s.dModel c
  let renorm := s.on R.BARGE_CTRL.RENORM c
  let fr := (Config.freeValue s.free).toNat
  (List.range half.total).foldl (fun s row => (List.range r.k).foldl (fun s j =>
    (s.uwrite 0 c (retAddr r h d row j) (choiceHeader renorm ch (tget [] half.rows row) row j r.k fr)).2) s)
    { s with free := s.free + 1 }

/-! ### Parts (R267-R269) -/

/-- A row header. -/
def rowHeader (r : List Byte) (j row n gate : Nat) : List Byte :=
  leBytes (routeSlot r + 2 ^ 10 * routeGen r + 2 ^ 18 * j) 4 ++ leBytes (routePos r) 4 ++ leBytes (routeExpert r j) 2 ++
    leBytes row 2 ++ leBytes n 1 ++ [0, 0, 0] ++ leBytes gate 4 ++ leBytes (routeScale r) 4 ++ List.replicate 40 0

/-- A part header. -/
def partHeader (kind : Nat) (h : Bool) (convoy step inst layer tag si nrows nent host : Nat) : List Byte :=
  leBytes kind 1 ++ leBytes (b2n h) 1 ++ leBytes convoy 2 ++ leBytes step 8 ++ leBytes inst 1 ++ leBytes layer 1 ++
    leBytes tag 2 ++ leBytes si 1 ++ [0] ++ leBytes nrows 2 ++ leBytes nent 2 ++ leBytes host 2 ++ List.replicate 40 0

/-- Pads to a multiple of 64 bytes. -/
def pad64 (bs : List Byte) : List Byte := bs ++ List.replicate ((64 - bs.length % 64) % 64) 0

/-- Sender index of this module for a layer. -/
def State.senderIndex (s : State) (r : BargeLayer) : Nat := (s.node + 4096 - r.slo) % 4096 % 16

/-- Reads activation rows: each row's bytes, and what is left of T3's answer. -/
def State.readRows (s : State) (c base d : Nat) (rows : List Nat) (far : List Byte) :
    List (Nat × List Byte) × List Byte × State :=
  rows.foldl (fun (acc : List (Nat × List Byte) × List Byte × State) row =>
    let t := acc.2.2.ureadFar 0 c (base + row * d) d acc.2.1
    let q := orFree (t.1, t.2.2) d
    (acc.1 ++ [(row, q.1)], t.2.1, q.2)) ([], far, s)

/-- Host entries of a node that a half's choices name, rising. -/
def hostsOf (ch : Choices) (node : Nat) : List Nat :=
  ((((ch.assigned.filter fun a => decide (a.node = node)).map fun a => a.host).eraseDups).mergeSort fun a b => decide (a ≤ b))

/-- Rows of one host entry, in increasing n. -/
def rowsFor (ch : Choices) (node host : Nat) : List Assigned :=
  (ch.assigned.filter fun a => decide (a.node = node ∧ a.host = host)).mergeSort fun a b => decide (a.n ≤ b.n)

/-- The bytes of the dispatch part for a node. -/
def State.dispatchBytes (s : State) (c l : Nat) (h : Bool) (half : Half) (tag : Nat) (ch : Choices)
    (acts : List (Nat × List Byte)) (fr node : Nat) : List Byte :=
  let r := (s.ctx c).bargeLayer l
  let hosts := hostsOf ch node
  let rows := hosts.flatMap fun e => rowsFor ch node e
  partHeader 1 h (s.fld R.BARGE_CFG.CONVOY c) (s.fld R.STEP_NUMBER.STEP c) (s.curInst c) l tag
      (s.senderIndex r) rows.length hosts.length 0 ++
    pad64 (hosts.flatMap fun e => leBytes (e + 2 ^ 12 * (rowsFor ch node e).length) 4) ++
    rows.flatMap fun a =>
      let rec' := tget [] half.rows a.row
      rowHeader rec' a.j a.row a.n (finalGate (s.on R.BARGE_CTRL.RENORM c) ch rec' a.row a.j r.k fr) ++
        (((acts.find? fun p => decide (p.1 = a.row)).map Prod.snd).getD [])

/-- The return parts that a barge expects. -/
def expectedParts (ch : Choices) (rows : Table (List Byte)) : List ExpPart :=
  ((ch.assigned.map fun a => (a.node, a.host)).eraseDups).map fun p =>
    ⟨p.1, p.2, (rowsFor ch p.1 p.2).map fun a =>
      let r := tget [] rows a.row
      ⟨routeSlot r, routeGen r, routePos r, a.j, a.row⟩⟩

/-- Note of a part's message: 1 dispatch of a half, 2 return of an operation of core and tag. -/
def dispatchNote (l : Nat) (h : Bool) : Nat := 4 * halfKey l h + 1
def returnNote (n tag : Nat) : Nat := 4 * (64 * n + tag) + 2

/-- Sends parts to nodes in order; the nodes whose message the route refuses. -/
def State.sendParts (s : State) (c : Nat) (l : List (Nat × Nat × List Byte)) : List Nat × State :=
  l.foldl (fun (acc : List Nat × State) p =>
    let r := acc.2.sendOwn c 2 p.1 1 p.2.1 p.2.2
    (if r.1 then acc.1 else acc.1 ++ [p.1], r.2)) ([], s)

/-! ### Failures (R277) -/

/-- A wait for a half, by side. -/
def XPend.waitsFor (x : XPend) (k side : Nat) : Bool := decide (x.kind = 0x4D ∧ x.b = k ∧ x.c % 2 = side)

/-- Completes a wait with a status; its record holds nothing else. -/
def State.bwaitFail (s : State) (n : Nat) (x : XPend) (status : Nat) : State :=
  s.modCore n fun k => (k.scrWrite (x.a * 64) (leBytes status 1 ++ List.replicate 63 0)).tagDone x.tag 0 false

/-- A barge or a host-side wait fails, with the nodes missing. -/
def State.bargeFail (s : State) (c k side : Nat) (nodes : List Nat) : State :=
  let s := s.bump R.BARGE_TIMEOUTS.COUNT c
  let s := s.modCtx c fun x => if side = 0 then x.setHalf k { x.half k with failed := true } else x
  let s := (s.coresOf c).foldl (fun s n => ((s.core n).xops.filter fun x => x.waitsFor k side).foldl
    (fun s x => s.bwaitFail n x 1) s) s
  let four := (nodes ++ [0, 0, 0, 0]).take 4
  let s := s.raise (bargeUnit c) (some c) 0x2311 (w4 [k / 2 + 256 * (k % 2), nodes.length] ++ four.flatMap fun n => leBytes n 2)
  s.raiseReplay c 3 nodes

/-! ### Closing a half (R263-R266, R274) -/

/-- The first FREE tag at or after the pointer. -/
def Ctx.freeTag (x : Ctx) : Option Nat :=
  ((List.range 4096).map fun i => (x.tagPtr + i) % 4096).find? fun t => decide (x.barge t = Barge.none)

/-- Counts the choices of a half for the load tables (R280). -/
def Ctx.countLoad (x : Ctx) (l : Nat) (ch : Choices) (rows : Table (List Byte)) : Ctx :=
  let add (t : Table Nat) (k : Nat) : Table Nat := tset 0 t k (tget 0 t k + 1)
  let t := ch.assigned.foldl (fun t a => add t (2 * (4096 * l + routeExpert (tget [] rows a.row) a.j))) x.loadPend
  { x with loadPend := ch.dropped.foldl (fun t p => add t (2 * (4096 * l + p.2.2) + 1)) t }

/-- Records a closed half and its barge; a barge that expects nothing is FREE again at once. -/
def Ctx.closed (x : Ctx) (k t l step inst : Nat) (half : Half) (ch : Choices) : Ctx :=
  let by_ := ((List.range half.total).filter fun row => bypassed ch row).length
  let x := x.setHalf k { half with tag := some t, assigned := ch.assigned, dropped := ch.dropped.length, bypassed := by_ }
  let e := expectedParts ch half.rows
  { (if e = [] then x else x.setBarge t ⟨false, l, k % 2, step, inst, e⟩) with tagPtr := (t + 1) % 4096 }

/-- Writes the headers and sends the dispatch parts of a closed half. -/
def State.dispatchHalf (s : State) (c l : Nat) (h : Bool) (half : Half) (t : Nat) (ch : Choices) (far : List Byte) : State :=
  let r := (s.ctx c).bargeLayer l
  let fr := (Config.freeValue s.free).toNat
  let s := s.writeHeaders c l h half ch
  let rows := ((ch.assigned.map fun a => a.row).eraseDups).mergeSort fun a b => decide (a ≤ b)
  let a := s.readRows c (if h then r.send.2 else r.send.1) (s.dModel c) rows far
  let s := a.2.2.bump R.BARGE_ROWS_SENT.COUNT c ch.assigned.length
  let first := s.senderIndex r * r.hcount / r.nsend
  let parts := (List.range r.hcount).map fun i =>
    let node := r.hlo + (first + i) % r.hcount
    (node, dispatchNote l h, s.dispatchBytes c l h half t ch a.1 fr node)
  let q := s.sendParts c parts
  if q.1 = [] then q.2 else q.2.bargeFail c (halfKey l h) 0 q.1

/-- A half that holds all its rows closes under a tag. -/
def State.closeWith (s : State) (c l : Nat) (h : Bool) (t : Nat) (far : List Byte) : State :=
  let k := halfKey l h
  let half := (s.ctx c).half k
  let ch := s.choose c l half
  let s := s.modCtx c fun x => x.closed k t l (s.fld R.STEP_NUMBER.STEP c) (s.curInst c) half ch
  let s := if s.on R.BARGE_CTRL.LOAD_EN c then s.modCtx c fun x => x.countLoad l ch half.rows else s
  let s := (s.bump R.BARGE_CHOICES_DROPPED.COUNT c ch.dropped.length).bump R.BARGE_BYPASSED.COUNT c
    ((s.ctx c).half k).bypassed
  let s := if ch.dropped = [] then s else s.raise (bargeUnit c) (some c) 0x1311 (w4 [l, b2n h, ch.dropped.length])
  s.dispatchHalf c l h half t ch far

/-- Closes a half if it is full and a tag is FREE; otherwise the close waits, and is counted once. -/
def State.closeHalf (s : State) (c l : Nat) (h : Bool) (far : List Byte) : State :=
  let k := halfKey l h
  let half := (s.ctx c).half k
  if half.full && half.tag.isNone then
    match (s.ctx c).freeTag with
    | some t => s.closeWith c l h t far
    | none =>
      if half.waited then s
      else (s.modCtx c fun x => x.setHalf k { half with waited := true }).bump R.BARGE_TAG_WAITS.COUNT c
  else s

/-! ### X-slot operations (R262, R271, R272) -/

/-- Rows of an `X_BSEND`: records, and whether one is posted twice. -/
def postRows (t : Table (List Byte)) (base : Nat) (recs : List (List Byte)) : Bool × Table (List Byte) :=
  ((List.range recs.length).any fun i => tget [] t (base + i) ≠ [],
    (List.range recs.length).foldl (fun t i => tset [] t (base + i) (recs[i]?.getD [])) t)

/-- The cores of the context still run an instance that has been abandoned (R305): one whose REPLAY has been sent, or
one that a later broadcast has replaced before its launch. -/
def State.abandonedInst (s : State) (c : Nat) : Bool :=
  let m := (s.ctx c).member
  m.active && (m.replaying || !m.launched)

/-- `X_BSEND`: the records are copied as the operation is accepted, and the tag completes. -/
def State.xBsend (s : State) (n tag src l : Nat) (h : Bool) (rowbase count total : Nat) : State :=
  let c := s.ctxOf n
  let x := s.ctx c
  let k := halfKey l h
  let half := x.half k
  let recs := (List.range count).map fun i => (s.core n).scrRead (src * 64 + 64 * i) 64
  let p := postRows half.rows rowbase recs
  let s := s.xDone n tag
  if s.abandonedInst c then s
  else if !s.on R.BARGE_CTRL.EN c || !(x.bargeLayer l).moe || half.full || p.1 || (decide (half ≠ Half.none) && decide (half.total ≠ total)) then
    s.bargeProto c l 0 s.node
  else s.modCtx c fun x => x.setHalf k { half with total := total, rows := p.2, full := decide (p.2.length = total) }

/-- The barge of a closed half still expects a return part. -/
def Ctx.awaits (x : Ctx) (k : Nat) : Bool :=
  match (x.half k).tag with
  | some t => let b := x.barge t; decide (b ≠ Barge.none) && !b.draining && decide (2 * b.layer + b.half = k)
  | none => true

/-- Senders of a layer whose dispatch part for a half has not been written. -/
def Ctx.missingSenders (x : Ctx) (k : Nat) : List Nat :=
  (List.range (x.bargeLayer (k / 2)).nsend).filter fun i => !x.arrived.contains (k / 2, k % 2, i)

/-- The host-side condition of a half (R271). -/
def Ctx.hostReady (x : Ctx) (k : Nat) : Bool := (x.bargeLayer (k / 2)).moe && decide (x.missingSenders k = [])

/-- What a wait waits for has come, or has failed. -/
def Ctx.waitMet (x : Ctx) (w : XPend) : Bool :=
  if w.c % 2 = 0 then (x.half w.b).failed || !x.awaits w.b else x.hostReady w.b

/-- Rows received for a host entry from sender `i` in a half. -/
def Ctx.rowsFrom (x : Ctx) (k host i : Nat) : Nat :=
  ((x.received.filter fun r => decide (r.host = host ∧ r.half = k % 2 ∧ r.s = i)).map fun r => r.rows.length).foldl (· + ·) 0

/-- The record of a wait (R271). -/
def Ctx.waitRecord (x : Ctx) (w : XPend) : List Byte :=
  if w.c % 2 = 0 then
    let h := x.half w.b
    leBytes (b2n h.failed) 1 ++ [0, 0, 0] ++ leBytes h.assigned.length 4 ++ leBytes h.dropped 4 ++ leBytes h.bypassed 4 ++
      List.replicate 48 0
  else
    let from_ := (List.range 16).map fun i => x.rowsFrom w.b (w.c / 2) i
    [0, 0, 0, 0] ++ leBytes (from_.foldl (· + ·) 0) 4 ++ List.replicate 8 0 ++ (from_.flatMap fun v => leBytes v 2) ++
      List.replicate 16 0

/-- Completes a wait: its record is written and its tag completes. -/
def State.bwaitDone (s : State) (n : Nat) (w : XPend) (drop : List Nat) : State :=
  let a := w.a * 64
  let s := s.scrPut n 2 a ((s.ctx (s.ctxOf n)).waitRecord w) drop
  s.modCore n fun k => k.tagDone w.tag 0 (decide (lostWords a 64 drop ≠ []))

/-- `X_BWAIT`: a wait accepted after its condition is met completes at once. -/
def State.xBwait (s : State) (n tag dst l : Nat) (h side : Bool) (host : Nat) : State :=
  let c := s.ctxOf n
  let w := XPend.mk' tag 0x4D dst (halfKey l h) (b2n side + 2 * host) s.tick
  if !s.on R.BARGE_CTRL.EN c then (s.xDone n tag).bargeProto c l 0 s.node
  else
    let s := s.xPend n w
    if s.abandonedInst c then s.bwaitFail n w 2
    else if (s.ctx c).waitMet w then s.bwaitDone n w [] else s

/-- Place of row `n` of sender `i` among the buffers of a host entry (R259). -/
def hostRow (r : BargeLayer) (e : HostEntry) (half i n : Nat) : Nat := (half * r.nsend + i) * e.slots + n

/-- The bytes of a return part: the received headers and the output rows. -/
def State.returnBytes (s : State) (c : Nat) (e : HostEntry) (rc : Received) (far : List Byte) :
    List Byte × List Byte × State :=
  let r := (s.ctx c).bargeLayer e.layer
  let d := s.dModel c
  let body := rc.rows.foldl (fun (acc : List Byte × List Byte × State) hdr =>
    let row := hostRow r e rc.half rc.s (ofLe ((hdr.drop 12).take 1))
    let t := acc.2.2.ureadFar 0 c (e.outbase + row * (2 * d)) (2 * d) acc.2.1
    let q := orFree (t.1, t.2.2) (2 * d)
    (acc.1 ++ hdr ++ q.1, t.2.1, q.2)) ([], far, s)
  (partHeader 2 (rc.half = 1) (s.fld R.BARGE_CFG.CONVOY c) (s.fld R.STEP_NUMBER.STEP c) (s.curInst c)
    e.layer rc.tag rc.s rc.rows.length 0 rc.host ++ body.1, body.2)

/-- The received parts of a host entry and half that hold rows, in the order in which their returns leave. -/
def State.returnOrder (s : State) (c : Nat) (e : HostEntry) (host half : Nat) : List Received :=
  let r := (s.ctx c).bargeLayer e.layer
  (List.range r.nsend).filterMap fun i =>
    let si := ((s.node + 4096 - r.hlo) % 4096 + i) % r.nsend
    (s.ctx c).received.find? fun q => decide (q.host = host ∧ q.half = half ∧ q.s = si) && decide (q.rows ≠ [])

/-- The return parts of an entry and half: destination, note and bytes. -/
def State.returnParts (s : State) (c n tag : Nat) (e : HostEntry) (l : List Received) (far : List Byte) :
    List (Nat × Nat × List Byte) × State :=
  let r := l.foldl (fun (acc : List (Nat × Nat × List Byte) × List Byte × State) q =>
    let b := acc.2.2.returnBytes c e q acc.2.1
    (acc.1 ++ [(q.node, returnNote n tag, b.1)], b.2)) ([], far, s)
  (r.1, r.2.2)

/-- `X_BRET`: the tag completes when every part has had its SEND completion. -/
def State.xBret (s : State) (n tag host : Nat) (h : Bool) (far : List Byte) : State :=
  let c := s.ctxOf n
  let x := s.ctx c
  let e := x.hostEntry host
  let k := halfKey e.layer h
  if s.on R.BARGE_CTRL.EN c && s.abandonedInst c then s.xDone n tag
  else if !s.on R.BARGE_CTRL.EN c || !e.valid || !x.hostReady k || x.returned.contains (host, b2n h) then
    (s.xDone n tag).bargeProto c e.layer 2 s.node
  else
    let s := s.modCtx c fun x => { x with returned := x.returned ++ [(host, b2n h)] }
    let p := s.returnParts c n tag e (s.returnOrder c e host (b2n h)) far
    if p.1 = [] then p.2.xDone n tag
    else
      let q := (p.2.xPend n (XPend.mk' tag 0x4E host k p.1.length 0)).sendParts c p.1
      if q.1 = [] then q.2 else q.2.bargeFail c k 1 q.1

/-- A part's SEND completes (R267, R272, R277). -/
def State.partSent (s : State) (c note node : Nat) (ok : Bool) : State :=
  if note % 4 = 1 then if ok then s else s.bargeFail c (note / 4) 0 [node]
  else
    let n := note / 4 / 64
    let tag := note / 4 % 64
    match (s.core n).xop tag 0x4E with
    | none => s
    | some x =>
      if ok then
        if x.c ≤ 1 then s.xDone n tag
        else s.modCore n fun k => { k with xops := k.xops.map fun y => if y = x then { y with c := y.c - 1 } else y }
      else s.bargeFail c x.b 1 [node]

/-! ### Arrival of parts (R268-R270, R275) -/

def partKind (bs : List Byte) : Nat := ofLe (bs.take 1)
def partHalf (bs : List Byte) : Nat := ofLe ((bs.drop 1).take 1) % 2
def partConvoy (bs : List Byte) : Nat := ofLe ((bs.drop 2).take 2)
def partStep (bs : List Byte) : Nat := ofLe ((bs.drop 4).take 8)
def partInst (bs : List Byte) : Nat := ofLe ((bs.drop 12).take 1)
def partLayer (bs : List Byte) : Nat := ofLe ((bs.drop 13).take 1)
def partTag (bs : List Byte) : Nat := field (ofLe ((bs.drop 14).take 2)) 0 12
def partSender (bs : List Byte) : Nat := ofLe ((bs.drop 16).take 1) % 16
def partRows (bs : List Byte) : Nat := field (ofLe ((bs.drop 18).take 2)) 0 13
def partEnts (bs : List Byte) : Nat := field (ofLe ((bs.drop 20).take 2)) 0 13
def partHost (bs : List Byte) : Nat := field (ofLe ((bs.drop 22).take 2)) 0 12

/-- Count words of a dispatch part: host entry and rows. -/
def partCounts (bs : List Byte) : List (Nat × Nat) :=
  (List.range (partEnts bs)).map fun i =>
    let v := ofLe ((bs.drop (64 + 4 * i)).take 4)
    (field v 0 12, field v 12 8)

/-- Bytes before the rows of a part. -/
def partHead (bs : List Byte) : Nat := if partKind bs = 1 then 64 + (4 * partEnts bs + 63) / 64 * 64 else 64

/-- The part's length agrees with its counts, and its KIND is not reserved. -/
def partOk (d : Nat) (bs : List Byte) : Bool :=
  let rows := (partCounts bs).foldl (fun a p => a + p.2) 0
  decide (64 ≤ bs.length ∧ partRows bs ≤ 4096) &&
    (if partKind bs = 1 then decide (rows = partRows bs ∧ bs.length = partHead bs + partRows bs * (64 + d))
     else decide (partKind bs = 2 ∧ bs.length = 64 + partRows bs * (64 + 2 * d)))

/-- The context that takes a part (R270). -/
def State.partCtx (s : State) (bs : List Byte) : Option Nat :=
  (List.range 16).find? fun c => s.on R.BARGE_CTRL.EN c && decide (s.fld R.BARGE_CFG.CONVOY c = partConvoy bs)

/-- Rows of a dispatch part with their host entries: entry, header and activation. -/
def partHostRows (d : Nat) (bs : List Byte) : List (Nat × List Byte × List Byte) :=
  let hosts := (partCounts bs).flatMap fun p => List.replicate p.2 p.1
  (List.range hosts.length).map fun i =>
    let r := bs.drop (partHead bs + i * (64 + d))
    (hosts[i]?.getD 0, r.take 64, (r.drop 64).take d)

def hdrExpert (h : List Byte) : Nat := field (ofLe ((h.drop 8).take 2)) 0 12
def hdrN (h : List Byte) : Nat := ofLe ((h.drop 12).take 1)

/-- A row of a dispatch part names what its host entry holds. -/
def Ctx.rowFits (x : Ctx) (l : Nat) (r : Nat × List Byte × List Byte) : Bool :=
  let e := x.hostEntry r.1
  e.valid && decide (e.layer = l ∧ e.expert = hdrExpert r.2.1 ∧ hdrN r.2.1 < e.slots)

/-- Writes the rows of a part for the current instance. -/
def State.takeDispatch (s : State) (c src : Nat) (bs : List Byte) : State :=
  let d := s.dModel c
  let l := partLayer bs
  let rows := partHostRows d bs
  let r := (s.ctx c).bargeLayer l
  if rows.all fun q => (s.ctx c).rowFits l q then
    let s := rows.foldl (fun s q =>
      let e := (s.ctx c).hostEntry q.1
      (s.uwrite 0 c (e.rxbase + hostRow r e (partHalf bs) (partSender bs) (hdrN q.2.1) * (64 + d)) (q.2.1 ++ q.2.2)).2) s
    let s := s.bump R.BARGE_ROWS_HOSTED.COUNT c rows.length
    s.modCtx c fun x => { x with
      arrived := x.arrived ++ [(l, partHalf bs, partSender bs)]
      received := x.received ++ (partCounts bs).map fun p =>
        ⟨p.1, partHalf bs, partSender bs, src, partTag bs,
          (rows.filter fun q => decide (q.1 = p.1)).map fun q => q.2.1⟩ }
  else s.bargeProto c l 1 src

/-- A dispatch part: dropped, written or held by its step and instance. -/
def State.dispatchPart (s : State) (c : Nat) (p : Part) : State :=
  let step := s.fld R.STEP_NUMBER.STEP c
  let inst := s.curInst c
  let ps := partStep p.bytes
  let pi := partInst p.bytes
  if ps < step ∨ (ps = step ∧ pi < inst) then s.bump R.BARGE_RX_STALE.COUNT c
  else if ps = step ∧ pi = inst then s.takeDispatch c p.src p.bytes
  else s.modCtx c fun x => { x with member := { x.member with heldParts := x.member.heldParts ++ [p] } }

/-- Rows of a return part: header and values. -/
def returnRows (d : Nat) (bs : List Byte) : List (List Byte × List Byte) :=
  (List.range (partRows bs)).map fun i =>
    let r := bs.drop (64 + i * (64 + 2 * d))
    (r.take 64, (r.drop 64).take (2 * d))

/-- A returned row is the one recorded (R275). -/
def rowMatches (r : RowId) (h : List Byte) : Bool :=
  let w := ofLe (h.take 4)
  decide (r.slot = field w 0 10 ∧ r.gen = field w 10 8 ∧ r.j = field w 18 3 ∧ r.pos = field (ofLe ((h.drop 4).take 4)) 0 20)

/-- The expected part that a return part answers. -/
def Barge.answers (b : Barge) (d src : Nat) (bs : List Byte) : Option ExpPart :=
  if b.layer = partLayer bs ∧ b.half = partHalf bs ∧ b.step = partStep bs ∧ b.inst = partInst bs then
    b.expected.find? fun e => decide (e.node = src ∧ e.host = partHost bs ∧ e.rows.length = partRows bs) &&
      ((e.rows.zip (returnRows d bs)).all fun q => rowMatches q.1 q.2.1)
  else .none

/-- Takes an answered part off a barge, whose tag is FREE after the last. -/
def Ctx.bargeGot (x : Ctx) (t : Nat) (e : ExpPart) : Ctx :=
  let b := x.barge t
  let left := b.expected.filter fun q => decide (q ≠ e)
  x.setBarge t (if left = [] then Barge.none else { b with expected := left })

/-- A return part: written, consumed on a DRAINING tag, or refused. -/
def State.returnPart (s : State) (c : Nat) (p : Part) : State :=
  let d := s.dModel c
  let t := partTag p.bytes
  let b := (s.ctx c).barge t
  match b.answers d p.src p.bytes with
  | none =>
    let s := s.bump R.BARGE_RET_STALE.COUNT c
    if (s.ctx c).member.staleTold then s
    else (s.modCtx c fun x => { x with member := { x.member with staleTold := true } }).raise (bargeUnit c) (some c) 0x0311
      (w4 [s.fld R.STEP_NUMBER.STEP c, 1])
  | some e =>
    let s := s.modCtx c fun x => x.bargeGot t e
    if b.draining then s.bump R.BARGE_RET_DROPPED.COUNT c e.rows.length
    else
      let r := (s.ctx c).bargeLayer b.layer
      (e.rows.zip (returnRows d p.bytes)).foldl (fun s q =>
        (s.uwrite 0 c (retAddr r (b.half = 1) d q.1.row q.1.j + 64) q.2.2).2) s

/-- A part arrives at the Barge endpoint: false where it matches no context and is refused. -/
def State.bargePart (s : State) (p : Part) : Bool × State :=
  match s.partCtx p.bytes with
  | none => (false, s)
  | some c =>
    if s.ended c && decide (partKind p.bytes ≠ 2) then (true, s)
    else if !partOk (s.dModel c) p.bytes then (true, s.bargeProto c (partLayer p.bytes) 1 p.src)
    else if partKind p.bytes = 1 then (true, s.dispatchPart c p)
    else (true, s.returnPart c p)

/-! ### Timeouts (R276, R277) -/

/-- Nodes whose answers a half still lacks. -/
def Ctx.missingNodes (x : Ctx) (k side : Nat) : List Nat :=
  if side = 0 then
    match (x.half k).tag with
    | some t => if x.awaits k then ((x.barge t).expected.map fun e => e.node).eraseDups else []
    | none => []
  else (x.missingSenders k).map fun i => (x.bargeLayer (k / 2)).slo + i

/-- Parts are still missing `BARGE_RET_TIMEOUT` after the close, or after a host-side wait was accepted. -/
def State.bargeTimeout (s : State) (c k side : Nat) : State :=
  let nodes := (s.ctx c).missingNodes k side
  let waits := (s.coresOf c).any fun n => (s.core n).xops.any fun x => x.waitsFor k 1
  if nodes = [] ∨ (side = 1 ∧ waits = false) then s else s.bargeFail c k side nodes

/-- A DRAINING barge becomes FREE. -/
def State.drainMax (s : State) (c t : Nat) : State :=
  if ((s.ctx c).barge t).draining then s.modCtx c fun x => x.setBarge t Barge.none else s

/-- Slots that have rows in DRAINING barges (R276). -/
def Ctx.drainingSlots (x : Ctx) : List Nat :=
  (((x.barges.filter fun e => e.2.draining).flatMap fun e => e.2.expected.flatMap fun p => p.rows.map fun r => r.slot).eraseDups)

/-! ### Load and placement (R280-R283) -/

/-- Address of an expert's load counters. -/
def State.loadAddr (s : State) (c k : Nat) : Nat := s.addr R.BARGE_LOAD_BASE.ADDR c + k * 8

/-- Adds the counts of a committed step to the load tables, where they saturate. -/
def State.commitLoad (s : State) (c : Nat) : State :=
  let t := (s.ctx c).loadPend
  let s := t.foldl (fun (s : State) (e : Nat × Nat) =>
    let a := s.loadAddr c (e.1 / 2) + 4 * (e.1 % 2)
    let r := orFree (s.uread 0 c a 4) 4
    (r.2.uwrite 0 c a (leBytes (min (ofLe r.1 + e.2) (2 ^ 32 - 1)) 4)).2) s
  s.modCtx c fun x => { x with loadPend := [], commits := x.commits + 1 }

/-- Zeroes a range of the unified range. -/
def State.uzero (s : State) (c va n : Nat) : State :=
  (pieces va (n / 65536 + 2) n).foldl (fun s p => (s.uwrite 0 c p.1 (List.replicate p.2 0)).2) s

/-- The sender's counts of a layer: choices assigned and dropped, per expert (log entry 42). -/
def State.ownLoad (s : State) (c l nexp : Nat) : List Nat × State :=
  let r := orFree (s.uread 0 c (s.loadAddr c (4096 * l)) (8 * nexp)) (8 * nexp)
  ((List.range nexp).map fun e => ofLe ((r.1.drop (8 * e)).take 4) + ofLe ((r.1.drop (8 * e + 4)).take 4), r.2)

/-- Replicas an expert should have. -/
def wanted (load total nexp replT : Nat) : Nat :=
  max 1 (min 8 ((load * 16 * nexp + total * replT - 1) / (total * replT)))

/-- Indexes of replicas to retire: live ones above the number wanted, the highest first, never replica 0. -/
def retired (live : List (Nat × Replica)) (want : Nat) : List Nat :=
  (((live.map Prod.fst).filter fun i => decide (i ≠ 0)).reverse).take (live.length - want)

/-- A spare host entry: layer, node and index. -/
abbrev Spare := Nat × Nat × Nat

/-- Spares of this module. -/
def State.ownSpares (s : State) (c : Nat) : List Spare :=
  (s.ctx c).hosts.filterMap fun e => if e.2.spare && !e.2.valid then some (e.2.layer, s.node, e.1) else none

/-- Gives an expert spares until it has what it wants: the placements, and what spares remain. -/
def giveSpares (l e want have' : Nat) (recs : List Replica) (spares : List Spare) : List Placement × List Spare :=
  let free := (List.range 8).filter fun i => !((recs[i]?.map fun r => r.v).getD false)
  let n := min (want - have') (min free.length spares.length)
  ((List.range n).map fun i =>
    let sp := spares[i]?.getD (0, 0, 0)
    ⟨l, e, free[i]?.getD 0, ⟨true, sp.2.1, sp.2.2, 128, ((recs.head?).map fun r => r.slots).getD 0⟩, false, 2⟩,
    spares.drop n)

/-- The placements of a layer at a rebalance epoch. -/
def State.placeLayer (s : State) (c l : Nat) (r : BargeLayer) (loads : List Nat) (spares : List Spare) : List Placement :=
  let total := loads.foldl (· + ·) 0
  if total = 0 then []
  else
    let replT := s.fld R.BARGE_REBAL.REPL_T c
    let want (e : Nat) : Nat := wanted (loads[e]?.getD 0) total r.nexp replT
    let live (e : Nat) : List (Nat × Replica) := s.liveReplicas c l e
    let gone (e : Nat) : List Nat := retired (live e) (want e)
    let keep (e : Nat) : List (Nat × Replica) := (live e).filter fun p => !(gone e).contains p.1
    let words := (List.range r.nexp).flatMap fun e =>
      (live e).map fun p =>
        if (gone e).contains p.1 then (⟨l, e, p.1, { p.2 with v := false }, true, 1⟩ : Placement)
        else ⟨l, e, p.1, { p.2 with weight := 128 }, true, 0⟩
    let order := (List.range r.nexp).mergeSort fun a b => decide (loads[b]?.getD 0 ≤ loads[a]?.getD 0)
    let mine := (spares.filter fun p => decide (p.1 = l)).mergeSort fun a b =>
      decide (a.2.1 * 4096 + a.2.2 ≤ b.2.1 * 4096 + b.2.2)
    words ++ (order.foldl (fun (acc : List Placement × List Spare) e =>
      let g := giveSpares l e (want e) (keep e).length ((s.ctx c).dirOf l e) acc.2
      (acc.1 ++ g.1, g.2)) ([], mine)).1

/-- Takes spares that placements use out of the spare pool of this module. -/
def State.claimSpares (s : State) (c : Nat) (l : List Placement) : State :=
  l.foldl (fun s p =>
    if p.kind = 2 ∧ p.rep.node = s.node then s.modCtx c fun x => { x with
      hosts := tset HostEntry.none x.hosts p.rep.host { x.hostEntry p.rep.host with spare := false } }
    else s) s

/-- The end of a rebalance epoch: `others` are the counts of the convoy's other senders, as layer, expert and sum, and
`spares` the spare entries of its other nodes (log entry 43). The spec does not say where the summed table of a
placement request lies, so its address is freely drawn (log entry 44). -/
def State.rebalance (s : State) (c : Nat) (others : List (Nat × Nat × Nat)) (spares : List Spare) : State :=
  if (s.ctx c).commits < s.fld R.BARGE_REBAL.STEPS c then s
  else
    let s := (s.modCtx c fun x => { x with commits := 0 }).bump R.BARGE_EPOCH.COUNT c
    let all := spares ++ s.ownSpares c
    let hw := s.on R.BARGE_CTRL.REBAL_EN c && !s.on (hdrDutyMode .barge) c
    let r := (s.ctx c).layers.foldl (fun (acc : List Placement × State) (e : Nat × BargeLayer) =>
      let o := acc.2.ownLoad c e.1 e.2.nexp
      let sum := (List.range e.2.nexp).map fun x => o.1[x]?.getD 0 +
        ((others.filter fun q => decide (q.1 = e.1 ∧ q.2.1 = x)).map fun q => q.2.2).foldl (· + ·) 0
      (if hw then acc.1 ++ o.2.placeLayer c e.1 e.2 sum all else acc.1, o.2)) ([], s)
    let s := r.2.uzero c (s.addr R.BARGE_LOAD_BASE.ADDR c) (8 * 2 ^ 20)
    let s := (s.claimSpares c r.1).modCtx c fun x => { x with placements := x.placements ++ r.1 }
    let s := s.raise (bargeUnit c) (some c) 0x0312 (w4 [s.fld R.BARGE_EPOCH.COUNT c])
    if s.helm c && s.on (hdrDutyMode .barge) c then
      let a := s.freeNat 42
      a.2.dutyRequest c 4 0 (leBytes (a.1 * 64) 8 ++ leBytes (s.fld R.BARGE_EPOCH.COUNT c) 4)
    else s

/-- A replica's weights have been copied; a failed copy returns its entry to SPARE (R282). `data` are the weights, on
the host node. -/
def State.replicaCopied (s : State) (c l e i : Nat) (data : List Byte) (failed : Bool) : State :=
  match (s.ctx c).placements.find? fun p => decide (p.layer = l ∧ p.expert = e ∧ p.index = i ∧ p.kind = 2) && !p.ready with
  | none => s
  | some p =>
    let here := decide (p.rep.node = s.node)
    if failed then
      s.modCtx c fun x => { x with
        placements := x.placements.filter fun q => decide (q ≠ p)
        hosts := if here then tset HostEntry.none x.hosts p.rep.host { x.hostEntry p.rep.host with spare := true } else x.hosts }
    else
      let h := (s.ctx c).hostEntry p.rep.host
      let s := if here then (s.uwrite 0 c h.wbase (data.take (h.wsub * 65536))).2 else s
      s.modCtx c fun x => { x with placements := x.placements.map fun q => if q = p then { q with ready := true } else q }

/-- Writes one host entry: the engine's, and its first word in memory. -/
def State.putHost (s : State) (c i : Nat) (h : HostEntry) : State :=
  let s := s.modCtx c fun x => { x with hosts := tset HostEntry.none x.hosts i h }
  (s.uwrite 0 c (s.addr R.BARGE_HTAB_BASE.ADDR c + 32 * i) (leBytes (hostWord h) 4)).2

/-- Applies one placement: the directory entry in the engine and in memory, and the host entry where it lies here. -/
def State.applyPlacement (s : State) (c : Nat) (p : Placement) : State :=
  let recs := (s.ctx c).dirOf p.layer p.expert
  let s := s.modCtx c fun x => { x with dirs := tset [] x.dirs (4096 * p.layer + p.expert) (recs.set p.index p.rep) }
  let s := (s.uwrite 0 c (((s.ctx c).bargeLayer p.layer).dir + 64 * p.expert + 8 * p.index) (replicaBytes p.rep)).2
  let h := (s.ctx c).hostEntry p.rep.host
  if p.kind = 1 then
    let s := s.bump R.BARGE_REPLICAS_RETIRED.COUNT c
    if p.rep.node = s.node then s.putHost c p.rep.host { h with valid := false, spare := true } else s
  else if p.kind = 2 then
    let s := s.bump R.BARGE_REPLICAS_ADDED.COUNT c
    if p.rep.node = s.node then
      s.putHost c p.rep.host { h with valid := true, spare := false, layer := p.layer, expert := p.expert, slots := p.rep.slots }
    else s
  else s

/-- Placement edits at a boundary (R279, R282). -/
def State.applyPlacements (s : State) (c : Nat) : State :=
  let l := (s.ctx c).placements
  let s := s.modCtx c fun x => { x with placements := x.placements.filter fun p => !p.ready }
  (l.filter fun p => p.ready).foldl (fun s p => s.applyPlacement c p) s

/-- A directory record that a placement answer gives (R283). -/
def State.answerPlacement (s : State) (c l e : Nat) (bs : List Byte) : State :=
  match expertRecord bs with
  | none => s.errlog .barge c 4 (l * 4096 + e) 0 0
  | some recs => s.modCtx c fun x => { x with
      placements := x.placements ++ (List.range 8).map fun i => ⟨l, e, i, recs[i]?.getD ⟨false, 0, 0, 0, 0⟩, true, 0⟩ }

end Sys2Proof.Machine
end

