-- ==== Sys2Proof/Machine/XtalOps.lean ====
section
/-! DEFINITION. Machine/XtalOps.lean: the Crystalliser: descriptors, sampling parameters, the pipeline of a draw, the
arbiter and the results (R317-R335; 12_crystalliser.md). Values of the pipeline are FP32 bits. -/
namespace Sys2Proof.Machine

def xtalUnit (c : Nat) : Raiser := .page .xtal c

/-! ### Records (R319, R322) -/

/-- A sample descriptor. -/
structure SampDesc where
  slot : Nat
  gen : Nat
  stream : Bool
  greedy : Bool
  nextra : Nat
  pos : Nat
  logits : Nat
  v : Nat
  isBf16 : Bool
  params : Nat
  extra : List Nat
  deriving DecidableEq, Repr

/-- The little-endian word at a byte of a record. -/
def wordAt (bs : List Byte) (at' n : Nat) : Nat := ofLe ((bs.drop at').take n)

def sampDesc (bs : List Byte) : SampDesc :=
  let w0 := wordAt bs 0 4
  let w4' := wordAt bs 16 4
  { slot := field w0 0 10, gen := field w0 10 8, stream := bit w0 18, greedy := bit w0 19, nextra := field w0 20 4,
    pos := field (wordAt bs 4 4) 0 21, logits := field (wordAt bs 8 8) 0 48, v := field w4' 0 19, isBf16 := bit w4' 19,
    params := field (wordAt bs 24 8) 0 48,
    extra := (List.range 8).map fun i => field (wordAt bs (32 + 4 * i) 4) 0 18 }

/-- The descriptor holds no reserved encoding. -/
def sampDescOk (bs : List Byte) : Bool :=
  let d := sampDesc bs
  decide (field (wordAt bs 0 4) 24 8 = 0) && !(d.greedy && !d.stream) && decide (d.nextra ≤ 8) && decide (d.pos < 2 ^ 20) &&
    decide (field (wordAt bs 4 4) 21 11 = 0 ∧ d.logits % 64 = 0 ∧ field (wordAt bs 8 8) 48 16 = 0) &&
    decide (1 ≤ d.v ∧ d.v ≤ 262144 ∧ field (wordAt bs 16 4) 20 12 = 0 ∧ wordAt bs 20 4 = 0) &&
    decide (d.params % 1024 = 0 ∧ field (wordAt bs 24 8) 48 16 = 0) &&
    (List.range 8).all fun i => decide (field (wordAt bs (32 + 4 * i) 4) 18 14 = 0)

/-- A sampling-parameter record. -/
structure SampParams where
  seed : Nat
  temp : Nat
  topP : Nat
  minP : Nat
  rep : Nat
  pres : Nat
  topK : Nat
  eos : List Nat
  stops : List (List Nat)
  bias : List (Nat × Nat)
  deriving DecidableEq, Repr

def sampParams (bs : List Byte) : SampParams :=
  let n := wordAt bs 31 1
  { seed := wordAt bs 0 8, temp := wordAt bs 8 4, topP := wordAt bs 12 4, minP := wordAt bs 16 4, rep := wordAt bs 20 4,
    pres := wordAt bs 24 4, topK := field (wordAt bs 28 2) 0 11,
    eos := (List.range (field n 0 4)).map fun i => field (wordAt bs (32 + 4 * i) 4) 0 18
    stops := (List.range (field n 4 3)).map fun s =>
      (List.range (field (wordAt bs (64 + 32 * s) 4) 0 3)).map fun t => field (wordAt bs (68 + 32 * s + 4 * t) 4) 0 18
    bias := (List.range (wordAt bs 30 1)).map fun b =>
      (field (wordAt bs (192 + 8 * b) 4) 0 18, wordAt bs (196 + 8 * b) 4) }

/-- Bits of an FP32 value compare as asked; never for a NaN. -/
def f32Cmp (a b : Nat) (p : Ordering → Bool) : Bool :=
  match (decodeF fp32 a).cmp (decodeF fp32 b) with
  | some o => p o
  | none => false

def f32Finite (a : Nat) : Bool :=
  match decodeF fp32 a with
  | .fin .. => true
  | _ => false

def f32One : Nat := 0x3F800000
def f32NegInf : Nat := 0xFF800000
def f32PosInf : Nat := 0x7F800000

/-- The record holds no value outside its range and no reserved bit in a field that is used. -/
def sampParamsOk (bs : List Byte) : Bool :=
  let p := sampParams bs
  let n := wordAt bs 31 1
  let atLeast0 (v : Nat) : Bool := f32Cmp v 0 (· != .lt)
  let atMost1 (v : Nat) : Bool := f32Cmp v f32One (· != .gt)
  f32Finite p.temp && atLeast0 p.temp && f32Cmp p.topP 0 (· == .gt) && atMost1 p.topP && atLeast0 p.minP && atMost1 p.minP &&
    f32Finite p.rep && f32Cmp p.rep 0 (· == .gt) && f32Finite p.pres && decide (p.topK ≤ 1024) &&
    decide (field (wordAt bs 28 2) 11 5 = 0 ∧ wordAt bs 30 1 ≤ 64 ∧ field n 0 4 ≤ 8 ∧ field n 4 3 ≤ 4 ∧ field n 7 1 = 0) &&
    ((List.range (field n 0 4)).all fun i => decide (field (wordAt bs (32 + 4 * i) 4) 18 14 = 0)) &&
    ((List.range (field n 4 3)).all fun s =>
      let len := wordAt bs (64 + 32 * s) 4
      decide (1 ≤ len ∧ len ≤ 7) && (List.range len).all fun t => decide (field (wordAt bs (68 + 32 * s + 4 * t) 4) 18 14 = 0)) &&
    ((List.range (wordAt bs 30 1)).all fun b =>
      decide (field (wordAt bs (192 + 8 * b) 4) 18 14 = 0) &&
        (f32Finite (wordAt bs (196 + 8 * b) 4) || decide (wordAt bs (196 + 8 * b) 4 = f32NegInf)))

/-! ### Stages 1-4 (R325) -/

/-- A NaN becomes −∞. -/
def zFix (b : Nat) : Nat := if decodeF fp32 b = .nan then f32NegInf else b

def zAdd (a b : Nat) : Nat := zFix (encodeF fp32 ((decodeF fp32 a).add (decodeF fp32 b)) 0)
def zSub (a b : Nat) : Nat := zFix (encodeF fp32 ((decodeF fp32 a).sub (decodeF fp32 b)) 0)
def zMul (a b : Nat) : Nat := zFix (encodeF fp32 ((decodeF fp32 a).mul (decodeF fp32 b)) 0)
def zDiv (a b : Nat) : Nat := zFix (divF fp32 (decodeF fp32 a) (decodeF fp32 b) 0)

/-- A logit as read. -/
def zRead (isBf16 : Bool) (bs : List Byte) (t : Nat) : Nat :=
  let v := zFix (if isBf16 then wordAt bs (2 * t) 2 * 65536 else wordAt bs (4 * t) 4)
  if v = 2 ^ 31 then 0 else v

/-- The bias of a token, entries in index order. -/
def zBias (p : SampParams) (t z : Nat) : Nat := p.bias.foldl (fun z b => if b.1 = t then zAdd z b.2 else z) z

/-- The penalties of a token of the window. -/
def zPenalty (p : SampParams) (window : List Nat) (t z : Nat) : Nat :=
  if window.contains t then
    let z := if p.rep = f32One then z else if f32Cmp z 0 (· == .gt) then zDiv z p.rep else zMul z p.rep
    zSub z p.pres
  else z

/-- Tokens and their values, without those at −∞. -/
abbrev ZSet := List (Nat × Nat)

def candidatesOf (l : ZSet) : ZSet := l.filter fun p => decide (p.2 ≠ f32NegInf)

/-- The set after stage 3. -/
def stage3 (d : SampDesc) (p : SampParams) (logits : List Byte) (window : List Nat) : ZSet :=
  candidatesOf ((List.range d.v).map fun t => (t, zPenalty p window t (zBias p t (zRead d.isBf16 logits t))))

/-! ### Stages 5-9 (R325-R327) -/

/-- The ordering key of R326. -/
def zKey (b : Nat) : Nat := if b < 2 ^ 31 then b + 2 ^ 31 else 2 ^ 32 - 1 - b

/-- Tokens by falling key, equal keys by rising token. -/
def byKey (l : ZSet) : ZSet :=
  l.mergeSort fun a b => decide (zKey b.2 < zKey a.2) || (decide (zKey a.2 = zKey b.2) && decide (a.1 ≤ b.1))

/-- The shortest beginning whose weight reaches `need`; R326's threshold search finds the same set. -/
def takeWeight {α : Type} (w : α → Nat) : Nat → List α → List α
  | _, [] => []
  | need, x :: xs => if need = 0 then [] else x :: takeWeight w (need - w x) xs

/-- e^x rounded to FP32, x ≤ 0. -/
def expRound (b : Nat) : Nat :=
  match decodeF fp32 b with
  | .fin n m e =>
    if m = 0 then f32One
    else if scaled n m e (-160) ≤ -(104 * 2 ^ 160) then 0
    else
      let p := expFix n m e
      roundF fp32 false p.1 (p.2 - 160) true
  | _ => 0

/-- ⌊v·2^40⌋ of FP32 bits. -/
def fix40 (b : Nat) : Nat :=
  match decodeF fp32 b with
  | .fin _ m e => if 0 ≤ e + 40 then m * 2 ^ (e + 40).toNat else m / 2 ^ (-(e + 40)).toNat
  | _ => 0

/-- ⌈v·n⌉ of FP32 bits and an integer, the product exact. -/
def ceilMul (b n : Nat) : Nat :=
  match decodeF fp32 b with
  | .fin _ m e =>
    if 0 ≤ e then m * n * 2 ^ e.toNat else (m * n + 2 ^ (-e).toNat - 1) / 2 ^ (-e).toNat
  | _ => 0

/-- ẽ of a token. -/
def massOf (zmax z : Nat) : Nat :=
  if zmax = f32PosInf then (if z = f32PosInf then 2 ^ 40 else 0) else fix40 (expRound (zSub z zmax))

/-- One round of Philox 4×32. -/
def philoxRound (c : Nat × Nat × Nat × Nat) (k0 k1 : Nat) : Nat × Nat × Nat × Nat :=
  let p0 := 0xD2511F53 * c.1
  let p1 := 0xCD9E8D57 * c.2.2.1
  ((p1 / 2 ^ 32) ^^^ c.2.1 ^^^ k0, p1 % 2 ^ 32, (p0 / 2 ^ 32) ^^^ c.2.2.2 ^^^ k1, p0 % 2 ^ 32)

/-- Philox 4×32 with 10 rounds. -/
def philox (seed c0 c1 : Nat) : Nat × Nat × Nat × Nat :=
  (List.range 10).foldl (fun c i =>
    philoxRound c ((seed % 2 ^ 32 + i * 0x9E3779B9) % 2 ^ 32) ((seed / 2 ^ 32 + i * 0xBB67AE85) % 2 ^ 32)) (c0, c1, 0, 0)

/-- U of a draw. -/
def drawU (seed pos stream : Nat) : Nat :=
  let w := philox seed pos stream
  w.2.1 % 256 * 2 ^ 32 + w.1

/-- Walks the final set in rising token order. -/
def walkMass : Nat → Nat → List (Nat × Nat) → Nat × Nat
  | _, _, [] => (0, 0)
  | _, _, [p] => p
  | g, acc, p :: ps => if g < acc + p.2 then p else walkMass g (acc + p.2) ps

/-- What a draw gives. -/
structure Draw where
  status : Nat
  token : Nat
  nfinal : Nat
  prob : Nat
  greedy : Bool
  cycles : Nat
  tier : Bool
  deriving DecidableEq, Repr

def Draw.failed (status : Nat) (tier : Bool) : Draw := ⟨status, 0, 0, 0, false, 0, tier⟩

/-- Lane cycles of a pass over `n` tokens (R334). -/
def passCycles (n : Nat) : Nat := (n + 255) / 256 + 16

/-- Stages 6-9 over a set: the draw, with the probability of its token. -/
def drawFrom (d : SampDesc) (p : SampParams) (set : ZSet) (cycles : Nat) : Draw :=
  let zmax := ((byKey set).head?.map Prod.snd).getD f32NegInf
  let mass := (set.map fun t => (t.1, t.2, massOf zmax t.2)).filter fun t => decide (t.2.2 ≠ 0)
  let sum (l : List (Nat × Nat × Nat)) : Nat := (l.map fun t => t.2.2).foldl (· + ·) 0
  let top := if p.topP = f32One then mass
    else
      let order := (byKey (mass.map fun t => (t.1, t.2.1))).map fun t => (t.1, t.2, massOf zmax t.2)
      takeWeight (fun t => t.2.2) (ceilMul p.topP (sum mass)) order
  let final := (top.filter fun t => decide (ceilMul p.minP (2 ^ 40) ≤ t.2.2)).mergeSort fun a b => decide (a.1 ≤ b.1)
  let ef := sum final
  let g := drawU p.seed d.pos (b2n d.stream) * ef / 2 ^ 40
  let r := walkMass g 0 (final.map fun t => (t.1, t.2.2))
  let n := set.length
  ⟨0, r.1, final.length, divF fp32 (.fin false r.2 0) (.fin false ef 0) 0, false,
    cycles + 2 * passCycles n + (if p.topP = f32One then 0 else 4 * passCycles n), false⟩

/-- A draw (R325-R328) from what the lane has read. -/
def drawToken (d : SampDesc) (p : SampParams) (logits : List Byte) (window : List Nat) : Draw :=
  let s3 := stage3 d p logits window
  let base := 160 + passCycles d.v
  if d.greedy || decide (p.temp % 2 ^ 31 = 0) then
    match byKey s3 with
    | [] => { Draw.failed 3 false with cycles := base }
    | t :: _ => ⟨0, t.1, 1, f32One, true, base, false⟩
  else
    let s4 := candidatesOf (s3.map fun t => (t.1, zDiv t.2 p.temp))
    if s4 = [] then { Draw.failed 3 false with cycles := base }
    else if 0 < p.topK ∧ p.topK < s4.length then drawFrom d p ((byKey s4).take p.topK) (base + 5 * passCycles d.v)
    else drawFrom d p s4 base

/-! ### Reading (R321, R323) -/

/-- Address of the history ring of a slot. -/
def State.histRing (s : State) (c slot : Nat) : Nat := s.addr R.XTAL_HIST_BASE.ADDR c + slot * 4096

/-- The stretches of a ring that positions `lo` to `hi - 1` take: entry and count. -/
def ringRuns (lo hi : Nat) : List (Nat × Nat) :=
  let n := hi - lo
  if n = 0 then []
  else if lo % 1024 + n ≤ 1024 then [(lo % 1024, n)]
  else [(lo % 1024, 1024 - lo % 1024), (0, lo % 1024 + n - 1024)]

/-- Tokens of a ring's stretches. -/
def State.readRing (s : State) (die c slot lo hi : Nat) (far : List Byte) : Got × List Byte × State :=
  (ringRuns lo hi).foldl (fun (acc : Got × List Byte × State) r =>
    match acc.1 with
    | .bytes bs =>
      let t := acc.2.2.ureadFar die c (acc.2.2.histRing c slot + 4 * r.1) (4 * r.2) acc.2.1
      match t.1 with
      | .bytes more => (.bytes (bs ++ more), t.2)
      | _ => t
    | _ => acc) (.bytes [], far, s)

/-- Tokens of the penalty window. -/
def windowTokens (d : SampDesc) (s0 : Nat) (ring : List Byte) : List Nat :=
  let lo := max s0 (d.pos - 1024)
  let hi := d.pos - d.nextra
  let fromRing := (List.range (ring.length / 4)).map fun i => field (wordAt ring (4 * i) 4) 0 18
  let first := max lo hi
  fromRing ++ (List.range (d.pos - first)).map fun i => d.extra[first + i - hi]?.getD 0

/-- A read that a draw cannot do without: its failure is STATUS 2, for T3 a tier fault. -/
def gotStatus (g : Got) : Option Bool :=
  match g with
  | .bytes _ => none
  | .far => some true
  | .xlat => some false

/-- The parameter record, its check, and the logits. -/
def State.readParams (s : State) (die c : Nat) (d : SampDesc) (far : List Byte) :
    Except Draw (SampParams × List Byte) × List Byte × State :=
  let r := s.ureadFar die c d.params 1024 far
  match r.1 with
  | .bytes bs =>
    if sampParamsOk bs then
      let q := r.2.2.ureadFar die c d.logits (d.v * (if d.isBf16 then 2 else 4)) r.2.1
      match q.1 with
      | .bytes l => (.ok (sampParams bs, l), q.2)
      | g => (.error (Draw.failed 2 (gotStatus g == some true)), q.2)
    else (.error (Draw.failed 1 false), r.2)
  | g => (.error (Draw.failed 2 (gotStatus g == some true)), r.2)

/-- What a lane draws for a request; `s0` is the START_LEN taken at its grant. -/
def State.laneDraw (s : State) (die c : Nat) (bs : List Byte) (s0 : Nat) (far : List Byte) : Draw × State :=
  let d := sampDesc bs
  if !sampDescOk bs then (Draw.failed 1 false, s)
  else
    let r := s.readParams die c d far
    match r.1 with
    | .error e => (e, r.2.2)
    | .ok (p, logits) =>
      let q := r.2.2.readRing die c d.slot (max s0 (d.pos - 1024)) (d.pos - d.nextra) r.2.1
      match q.1 with
      | .bytes ring => (drawToken d p logits (windowTokens d s0 ring), q.2.2)
      | g => (Draw.failed 2 (gotStatus g == some true), q.2.2)

/-! ### Requests and grants (R318, R320, R323, R332) -/

/-- Requests of a core. -/
def Core.xsamps (k : Core) : List XPend := k.xops.filter fun x => decide (x.kind = 0x50)

/-- Accepted requests on a die. -/
def State.xsampsOn (s : State) (d : Nat) : Nat :=
  ((List.range 64).map fun i => (s.core (64 * d + i)).xsamps.length).foldl (· + ·) 0

/-- The instance a sample belongs to: the one before the current one where that has not been launched. -/
def State.sampleInst (s : State) (c : Nat) : Nat :=
  let i := s.curInst c
  if (s.ctx c).member.active && !(s.ctx c).member.launched then (i + 255) % 256 else i

/-- `X_XSAMP`. -/
def State.xXsamp (s : State) (n tag desc dst : Nat) : State :=
  s.xPend n (XPend.mk' tag 0x50 (desc * 64) (dst * 64) 0 (2 * s.sampleInst (s.ctxOf n)))

/-- Lanes in use on a die; a granted request on a lane has an odd `d`. -/
def State.lanesUsed (s : State) (d : Nat) : Nat :=
  ((List.range 64).map fun i =>
    ((s.core (64 * d + i)).xsamps.filter fun x => x.granted && decide (x.d % 2 = 1)).length).foldl (· + ·) 0

/-- Core `i` of a die has a request of context `c` that is not granted. -/
def State.xsampWaits (s : State) (d c i : Nat) : Bool :=
  decide (s.ctxOf (64 * d + i) = c) && (s.core (64 * d + i)).xsamps.any fun x => !x.granted

/-- The die's arbiter: context visited, whether its quantum is added, and the deficits. -/
structure XtalArb where
  at' : Nat
  added : Bool
  deficit : Table Nat
  grant : Option Nat
  deriving DecidableEq, Repr

/-- One step of the rotation of R420; a request costs 100 units. -/
def XtalArb.turn (waits : Nat → Bool) (share : Nat → Nat) (a : XtalArb) : XtalArb :=
  if a.grant.isSome then a
  else
    let c := a.at'
    let d := tget 0 a.deficit c + (if a.added then 0 else share c)
    if !waits c then { a with at' := (c + 1) % 16, added := false, deficit := tset 0 a.deficit c 0 }
    else if 100 ≤ d then { a with added := true, deficit := tset 0 a.deficit c (d - 100), grant := some c }
    else { a with at' := (c + 1) % 16, added := false, deficit := tset 0 a.deficit c d }

/-- The next context that a die's arbiter grants. Shares are at least 1, so 1,616 steps find it. -/
def State.xtalPick (s : State) (d : Nat) : Option Nat × State :=
  let v := tget 0 s.xtalVisit d
  let deficit := (List.range 16).foldl (fun t c => tset 0 t c (tget 0 s.xtalDeficit (16 * d + c))) []
  let waits (c : Nat) : Bool := (List.range 64).any fun i => s.xsampWaits d c i
  if !(List.range 16).any waits then (none, s)
  else
    let a := (List.range 1700).foldl (fun a _ => a.turn waits fun c => s.fld R.CTX_SHARES_B.XTAL c)
      (⟨v / 2 % 16, decide (v % 2 = 1), deficit, none⟩ : XtalArb)
    (a.grant, { s with
      xtalVisit := tset 0 s.xtalVisit d (2 * a.at' + b2n a.added)
      xtalDeficit := (List.range 16).foldl (fun t c => tset 0 t (16 * d + c) (tget 0 a.deficit c)) s.xtalDeficit })

/-- Writes a result record through P2 and completes the request's tag. -/
def State.xsampRecord (s : State) (n : Nat) (x : XPend) (r : Draw) (drop : List Nat) : State :=
  let bs := leBytes r.token 4 ++ leBytes r.status 1 ++ [0, 0, 0] ++ leBytes r.nfinal 4 ++ leBytes r.prob 4 ++
    List.replicate 48 0
  let s := s.scrPut n 2 x.b bs drop
  s.modCore n fun k => k.tagDone x.tag 0 (decide (lostWords x.b 64 drop ≠ []))

/-- The helm's controller takes a result. -/
def State.takeSample (s : State) (c : Nat) (d : SampDesc) (inst : Nat) (r : Draw) : State :=
  s.modCtx c fun x => { x with helm := { x.helm with
    results := x.helm.results ++ [⟨d.slot, d.gen, d.pos, d.stream, r.token, r.status, r.tier, inst⟩] } }

/-- A request completes: its counts, its result at the helm, its record and its tag. STATUS 4 and 7 are no draws. -/
def State.xsampFinish (s : State) (n : Nat) (x : XPend) (r : Draw) (drop : List Nat) : State :=
  let c := s.ctxOf n
  let d := sampDesc x.data
  let s := if r.status = 4 ∨ r.status = 7 then s
    else
      let s := (s.bump R.XTAL_SAMPLES.COUNT c).bump R.XTAL_LANE_CYCLES.COUNT c r.cycles
      if r.greedy then s.bump R.XTAL_GREEDY.COUNT c else s
  let s := if r.status = 0 then s
    else
      let s := (s.bump R.XTAL_FAULTS.COUNT c).put R.XTAL_LAST_FAULT.STATUS c r.status
      (s.put R.XTAL_LAST_FAULT.SLOT c d.slot).put R.XTAL_LAST_FAULT.GEN c d.gen
  let s := if r.status = 4 then s else s.takeSample c d (x.d / 2) r
  s.xsampRecord n x r drop

/-- A granted request of core `n`: STATUS 4 and 7 at once, a duty request where the host samples, a lane otherwise. -/
def State.xsampGranted (s : State) (n : Nat) (x : XPend) : State :=
  let c := s.ctxOf n
  let bs := (s.core n).scrRead x.a 64
  let d := sampDesc bs
  let e := s.entry c d.slot
  let x' := { x with data := bs, granted := true, c := e.startLen, d := x.d / 2 * 2 }
  if !s.helm c || !s.on R.XTAL_CTRL.EN c then s.xsampFinish n x' (Draw.failed 4 false) []
  else if e.state = 0 ∨ e.gen ≠ d.gen then s.xsampFinish n x' (Draw.failed 7 false) []
  else
    let host := s.on (hdrDutyMode .xtal) c
    let x' := if host then x' else { x' with d := x'.d + 1 }
    let s := s.modCore n fun k => { k with xops := k.xops.map fun y => if y = x then x' else y }
    if host then s.dutyRequest c 2 (64 * n + x.tag) bs else s

/-- The die's arbiter makes one grant, if a lane is free. -/
def State.xsampGrant (s : State) (d : Nat) : State :=
  if 2 ≤ s.lanesUsed d then s
  else
    match s.xtalPick d with
    | (none, s) => s
    | (some c, s) =>
      let ptr := tget 0 s.xtalPtr (16 * d + c)
      match rotPick 64 ptr (s.xsampWaits d c) with
      | none => s
      | some i =>
        let s := { s with xtalPtr := tset 0 s.xtalPtr (16 * d + c) (rotNext 64 ptr i (s.xsampWaits d c)) }
        match (s.core (64 * d + i)).xsamps.find? fun x => !x.granted with
        | some x => s.xsampGranted (64 * d + i) x
        | none => s

/-- A lane finishes a draw. `faults` counts the uncorrectable errors its buffer met (R317). -/
def State.xsampDrawn (s : State) (n tag faults : Nat) (far : List Byte) (drop : List Nat) : State :=
  match (s.core n).xop tag 0x50 with
  | none => s
  | some x =>
    if x.granted && decide (x.d % 2 = 1) then
      let c := s.ctxOf n
      let s := if faults = 0 then s else s.bump R.XTAL_LANE_RERUNS.COUNT c
      let r := if 2 ≤ faults then (Draw.failed 6 false, s) else s.laneDraw (dieOf n) c x.data x.c far
      r.2.xsampFinish n x r.1 drop
    else s

/-- The host's answer to a sampling request, or its end without one (R332): the token, or the STATUS. -/
def State.xsampAnswered (s : State) (note : Nat) (token : Option Nat) : State :=
  let n := note / 64
  match (s.core n).xop (note % 64) 0x50 with
  | none => s
  | some x =>
    if x.granted && decide (x.d % 2 = 0) then
      match token with
      | some t =>
        if (sampDesc x.data).v ≤ t then s.xsampFinish n x (Draw.failed 1 false) []
        else s.xsampFinish n x ⟨0, t, 0, 0, false, 0, false⟩ []
      | none => s.xsampFinish n x (Draw.failed 5 false) []
    else s

/-- A withdrawn or timed-out sampling request runs on a lane: it waits for a grant again. -/
def State.xsampToLane (s : State) (note : Nat) : State :=
  s.modCore (note / 64) fun k => { k with xops := k.xops.map fun x =>
    if x.kind = 0x50 ∧ x.tag = note % 64 then { x with granted := false } else x }

/-- `XTAL_STATUS.QUEUED`. -/
def State.xsampQueued (s : State) (c : Nat) : Nat :=
  ((List.range 512).map fun n => if s.ctxOf n = c then (s.core n).xsamps.length else 0).foldl (· + ·) 0

/-! ### History (R323, R324) -/

/-- Writes tokens at positions `pos` upward into a slot's history ring. -/
def State.writeHistory (s : State) (c slot pos : Nat) (tokens : List Nat) : State :=
  (List.range tokens.length).foldl (fun s i =>
    (s.uwrite 0 c (s.histRing c slot + 4 * ((pos + i) % 1024)) (leBytes (tokens[i]?.getD 0) 4)).2) s

/-- Tokens of a ring at positions `lo` to `hi - 1`. -/
def State.ringTokens (s : State) (c slot lo hi : Nat) : List Nat × State :=
  let r := s.readRing 0 c slot lo hi []
  let q := orFree (r.1, r.2.2) (4 * (hi - lo))
  ((List.range (hi - lo)).map fun i => field (wordAt q.1 (4 * i) 4) 0 18, q.2)

end Sys2Proof.Machine
end

