-- ==== Sys2Proof/Machine/StepOps.lean ====
section
/-! DEFINITION. Machine/StepOps.lean: the Manifest, the Tolls, the step builder and the messages of a step
(R285-R316, R244, R188, R508; 11_manifest_and_step_building.md). -/
namespace Sys2Proof.Machine

def stepUnit (c : Nat) : Raiser := .page .step c
def maniUnit (c : Nat) : Raiser := .page .mani c

/-- Steps that a helm builds: its context is ACTIVE and not ended, and the module takes part in steps. -/
def State.stepsRun (s : State) (c : Nat) : Bool := s.helm c && s.on R.STEP_CTRL.EN c && s.ctxRuns c

/-- A step is in flight at the helm. -/
def State.stepFlies (s : State) (c : Nat) : Bool := decide (s.fld R.STEP_STATUS.PHASE c ≠ 0)

/-! ### Tolls (R295-R298) -/

def Ctx.bucket (x : Ctx) (k : Nat) : Bucket := tget Bucket.unlimited x.tolls k
def Ctx.setBucket (x : Ctx) (k : Nat) (b : Bucket) : Ctx := { x with tolls := tset Bucket.unlimited x.tolls k b }

def Bucket.free (b : Bucket) : Bool := decide (b.depthNow = 0xFFFFFFFF)

/-- Whole tokens of a level. -/
def Bucket.whole (b : Bucket) : Int := b.level / 100000000

/-- One refill of a bucket, `dt` TICKs after the last. -/
def Bucket.refill (b : Bucket) (dt : Nat) : Bucket :=
  if b.depth = 0xFFFFFFFF then { b with depthNow := b.depth }
  else { b with depthNow := b.depth, level := min ((b.depth : Int) * 100000000) (b.level + (b.rate * dt : Nat)) }

/-- Refills every bucket. -/
def State.refill (s : State) (c : Nat) : State :=
  let dt := s.tick - (s.ctx c).helm.refillAt
  s.modCtx c fun x => { x with
    tolls := x.tolls.foldl (fun t (e : Nat × Bucket) => tset Bucket.unlimited t e.1 (e.2.refill dt)) x.tolls
    helm := { x.helm with refillAt := s.tick } }

/-- Charges `n` tokens to a bucket: 2 t prefill, 2 t + 1 decode. -/
def State.charge' (s : State) (c k n : Nat) : State :=
  let b := (s.ctx c).bucket k
  if b.free || decide (n = 0) then s
  else
    let b' := { b with level := b.level - (n : Int) * 100000000, tokens := (b.tokens + n) % 2 ^ 64 }
    let s := s.modCtx c fun x => x.setBucket k b'
    if 0 < b.whole ∧ b'.whole ≤ 0 then s.raise (.page .toll c) (some c) 0x1321 (w4 [k / 2, k % 2]) else s

/-! ### Admission (R289-R292) -/

/-- The admission record holds no reserved encoding and no value R290 refuses. -/
def admitOk (r : List Byte) : Bool :=
  let w (a n : Nat) : Nat := wordAt r a n
  decide (field (w 8 4) 26 6 = 0 ∧ field (w 12 4) 21 11 = 0 ∧ field (w 16 4) 21 11 = 0 ∧ field (w 20 4) 21 11 = 0) &&
    decide (1 ≤ field (w 16 4) 0 21 ∧ 1 ≤ field (w 20 4) 0 21 ∧ field (w 32 8) 48 16 = 0 ∧ w 32 8 % 4 = 0) &&
    decide (field (w 40 8) 48 16 = 0 ∧ field (w 48 8) 0 21 = 0 ∧ field (w 48 8) 48 16 = 0) &&
    decide (w 56 4 ≤ 8 ∧ w 60 4 = 0)

/-- The status of an admission (R290). -/
def State.admitStatus (s : State) (c : Nat) (r : List Byte) : Nat :=
  let slot := field (wordAt r 8 4) 0 10
  let e := s.entry c slot
  if !s.helm c || !s.on R.MANI_CTRL.EN c then 1
  else if !admitOk r then 2
  else if 2 ^ 20 ≤ field (wordAt r 12 4) 0 21 + field (wordAt r 16 4) 0 21 then 3
  else if e.state ≠ 0 then 4
  else if e.gen ≠ field (wordAt r 8 4) 10 8 then 5
  else 0

/-- The entry that an admission makes. -/
def admitEntry (r : List Byte) (now : Nat) : Entry :=
  let w (a n : Nat) : Nat := wordAt r a n
  { Entry.none with
    state := 1, gen := field (w 8 4) 10 8, tenant := field (w 8 4) 18 8, draftMax := field (w 56 4) 0 4
    draftLen := field (w 56 4) 0 4, base := w 48 8, startLen := field (w 12 4) 0 21, promptLen := field (w 16 4) 0 21
    curLen := field (w 12 4) 0 21, maxTokens := field (w 20 4) 0 21, arrival := now, ttft := w 24 4, tbt := w 28 4
    promptAddr := w 32 8, params := w 40 8, tag := w 0 8 }

/-- Writes the end of the prompt into the history ring (R324). -/
def State.promptHistory (s : State) (c slot : Nat) (e : Entry) (far : List Byte) : State :=
  let n := min 1024 e.promptLen
  let r := s.ureadFar 0 c (e.promptAddr + 4 * (e.promptLen - n)) (4 * n) far
  let q := orFree (r.1, r.2.2) (4 * n)
  q.2.writeHistory c slot (e.startLen + e.promptLen - n) ((List.range n).map fun i => field (wordAt q.1 (4 * i) 4) 0 18)

/-- An admission: its status, and the state. -/
def State.admission (s : State) (c : Nat) (r far : List Byte) : Nat × State :=
  let status := s.admitStatus c r
  let slot := field (wordAt r 8 4) 0 10
  let gen := field (wordAt r 8 4) 10 8
  if status ≠ 0 then
    (status, (s.bump R.MANI_ADMIT_REFUSED.COUNT c).raise (maniUnit c) (some c) 0x0321
      (w4 [handle slot gen, status] ++ r.take 8))
  else
    let e := admitEntry r s.tick
    (0, ((s.setEntry c slot e).promptHistory c slot e far).bump R.MANI_ADMITTED.COUNT c)

/-- A cancellation: 0 done, 1 not the helm, 2 stale handle (R309). -/
def State.cancel (s : State) (c slot gen : Nat) : Nat × State :=
  let e := s.entry c slot
  if !s.helm c then (1, s)
  else if (e.state = 1 ∨ e.state = 2) ∧ e.gen = gen then (0, s.setEntry c slot { e with cancel := true })
  else (2, s)

/-- DRAFT_SET (R313). -/
def State.draftSet (s : State) (c slot gen v : Nat) : Nat × State :=
  let e := s.entry c slot
  if !s.helm c then (1, s)
  else if 8 < v then (3, s)
  else if (e.state = 1 ∨ e.state = 2) ∧ e.gen = gen then
    (0, s.setEntry c slot { e with draftMax := v, draftLen := v, draftOff := false, rejects := 0 })
  else (2, s)

/-! ### The mirror (R288) -/

/-- The 128 bytes of an entry. -/
def Entry.bytes (e : Entry) : List Byte :=
  leBytes (e.state + 8 * b2n e.cancel + 16 * b2n e.draftOff + 2 ^ 8 * e.gen + 2 ^ 16 * e.tenant + 2 ^ 24 * e.endCode) 4 ++
    leBytes (e.draftMax + 2 ^ 4 * e.draftLen + 2 ^ 8 * e.rejects + 2 ^ 16 * e.retryLeft) 4 ++ leBytes e.base 8 ++
    leBytes e.startLen 4 ++ leBytes e.promptLen 4 ++ leBytes e.curLen 4 ++ leBytes e.genLen 4 ++ leBytes e.maxTokens 4 ++
    leBytes e.late 4 ++ leBytes e.arrival 8 ++ leBytes e.first 8 ++ leBytes e.last 8 ++ leBytes e.ttft 4 ++ leBytes e.tbt 4 ++
    leBytes e.promptAddr 8 ++ leBytes e.params 8 ++ leBytes e.tag 8 ++ List.replicate 32 0

/-- Writes the changed entries into the mirror. -/
def State.writeMirror (s : State) (c : Nat) : State :=
  let l := (s.ctx c).entries.filter fun e => e.2.changed
  l.foldl (fun (s : State) (e : Nat × Entry) =>
    let s := (s.uwrite 0 c (s.addr R.MANI_MIRROR_BASE.ADDR c + 128 * e.1) e.2.bytes).2
    s.modCtx c fun x => { x with entries := tset Entry.none x.entries e.1 { e.2 with changed := false } }) s

/-! ### The builder (R293, R294) -/

/-- An entry that may be taken, but for its bucket. -/
def Entry.eligible (e : Entry) : Bool := decide (e.state = 1 ∨ e.state = 2) && !e.cancel && !e.notReady && e.announced

/-- Slack: deadline less now; none where the target is 0. -/
def Entry.slack (e : Entry) (now : Nat) : Option Int :=
  if e.state = 1 then if e.ttft = 0 then .none else some ((e.arrival + e.ttft : Nat) - (now : Int))
  else if e.tbt = 0 then .none else some ((e.last + e.tbt : Nat) - (now : Int))

/-- The order of the builder: slack, then ARRIVAL or LAST, then slot. -/
def buildBefore (now : Nat) (a b : Nat × Entry) : Bool :=
  let key (p : Nat × Entry) : Nat × Nat := (if p.2.state = 1 then p.2.arrival else p.2.last, p.1)
  let tie := decide ((key a).1 < (key b).1) || (decide ((key a).1 = (key b).1) && decide ((key a).2 ≤ (key b).2))
  match a.2.slack now, b.2.slack now with
  | some x, some y => decide (x < y) || (decide (x = y) && tie)
  | some _, none => true
  | none, some _ => false
  | none, none => tie

/-- The builder's state: list, budget left, tokens taken per bucket, skips per tenant. -/
structure Build where
  list : List Work
  budget : Nat
  tally : Table Nat
  skips : List Nat
  deriving DecidableEq, Repr

/-- Tokens a bucket still offers; none where it is unlimited. -/
def Ctx.avail (x : Ctx) (b : Build) (k : Nat) : Option Nat :=
  let q := x.bucket k
  if q.free then none else some (max 0 (q.whole - tget 0 b.tally k)).toNat

/-- A decode entry as a work-list entry. -/
def decodeWork (slot : Nat) (e : Entry) (d : Nat) : Work :=
  ⟨slot, e.gen, 0, d, e.tenant, e.curLen, d + 1, e.lastTok, e.params⟩

/-- A prefill entry with a chunk. -/
def prefillWork (slot : Nat) (e : Entry) (n : Nat) : Work :=
  ⟨slot, e.gen, if e.curLen + n = e.startLen + e.promptLen then 2 else 1, 0, e.tenant, e.curLen, n,
    e.promptAddr + 4 * (e.curLen - e.startLen), e.params⟩

def Build.take (b : Build) (w : Work) (k n : Nat) : Build :=
  { b with list := b.list ++ [w], tally := tset 0 b.tally k (tget 0 b.tally k + n) }

def takeDecode (b : Build) (p : Nat × Entry) : Build :=
  b.take (decodeWork p.1 p.2 p.2.draftLen) (2 * p.2.tenant + 1) (1 + p.2.draftLen)

/-- Decode entries near their deadline, ahead of every prompt. -/
def Ctx.buildUrgent (x : Ctx) (width floor now : Nat) (b : Build) (p : Nat × Entry) : Build :=
  let urgent := match p.2.slack now with
    | some v => decide (v < (floor : Int))
    | none => false
  if urgent && decide (b.list.length < width) && (x.avail b (2 * p.2.tenant + 1)).all (fun n => decide (1 ≤ n)) then takeDecode b p
  else b

/-- Prompt positions that remain. -/
def Entry.remaining (e : Entry) : Nat := e.promptLen - (e.curLen - e.startLen)

/-- A prompt. -/
def Ctx.buildPrefill (x : Ctx) (width : Nat) (b : Build) (p : Nat × Entry) : Build :=
  if b.list.length = width ∨ b.budget = 0 then b
  else
    let k := 2 * p.2.tenant
    let n := min (min 8192 p.2.remaining) b.budget
    let n := match x.avail b k with
      | some a => min n a
      | none => n
    if n = 0 then { b with skips := b.skips ++ [p.2.tenant] }
    else { b.take (prefillWork p.1 p.2 n) k n with budget := b.budget - n }

/-- A decode entry not taken already. -/
def Ctx.buildDecode (x : Ctx) (width : Nat) (b : Build) (p : Nat × Entry) : Build :=
  if b.list.length = width ∨ b.list.any (fun w => decide (w.slot = p.1)) then b
  else if x.avail b (2 * p.2.tenant + 1) = some 0 then { b with skips := b.skips ++ [p.2.tenant] }
  else takeDecode b p

/-- The builder. -/
def State.build (s : State) (c : Nat) : Build :=
  let x := s.ctx c
  let width := s.fld R.STEP_WIDTH.WIDTH c
  let sorted (st : Nat) : List (Nat × Entry) :=
    (x.entries.filter fun e => e.2.eligible && decide (e.2.state = st)).mergeSort (buildBefore s.tick)
  let floor := s.fld R.STEP_TBT_FLOOR.FLOOR c
  let b0 : Build := ⟨[], s.fld R.STEP_PREFILL_BUDGET.TOKENS c, [], []⟩
  let b1 := if floor = 0 then b0 else (sorted 2).foldl (fun b p => x.buildUrgent width floor s.tick b p) b0
  let b2 := (sorted 1).foldl (fun b p => x.buildPrefill width b p) b1
  (sorted 2).foldl (fun b p => x.buildDecode width b p) b2

/-! ### The broadcast (R299, R301) -/

/-- A work-list entry. -/
def Work.bytes (w : Work) : List Byte :=
  leBytes (w.slot + 2 ^ 10 * w.gen + 2 ^ 18 * w.kind + 2 ^ 20 * w.d + 2 ^ 24 * w.tenant) 4 ++ leBytes w.len 4 ++
    leBytes w.ntok 4 ++ [0, 0, 0, 0] ++ leBytes w.addr 8 ++ leBytes w.params 8

/-- A work-list entry from its bytes. -/
def workOfBytes (bs : List Byte) : Work :=
  let v := wordAt bs 0 4
  ⟨field v 0 10, field v 10 8, field v 18 2, field v 20 4, field v 24 8, field (wordAt bs 4 4) 0 21,
    field (wordAt bs 8 4) 0 14, field (wordAt bs 16 8) 0 48, field (wordAt bs 24 8) 0 48⟩

/-- The image of the broadcast. -/
def State.image (s : State) (c : Nat) (list : List Work) : List Byte :=
  let width := (List.range 64).flatMap fun i =>
    leBytes (s.lstate c (4 * i) + 4 * s.lstate c (4 * i + 1) + 16 * s.lstate c (4 * i + 2) + 64 * s.lstate c (4 * i + 3)) 1
  let ready := leBytes (bitMap 256 fun l => s.on R.ASSAY_LSTATE.REF_READY c l) 32
  leBytes (s.fld R.STEP_NUMBER.STEP c) 8 ++ leBytes (s.fld R.STEP_STATUS.INSTANCE c) 1 ++ leBytes list.length 2 ++
    List.replicate 53 0 ++ width ++ ready ++ s.downBytes c ++ List.replicate 64 0 ++ list.flatMap Work.bytes

/-- REF_READY of every layer as the helm knows it (R140). -/
def State.markReady (s : State) (c : Nat) : State :=
  (List.range 256).foldl (fun s l => s.setFld R.ASSAY_LSTATE.REF_READY c l (b2n (s.residentAll c l))) s

/-- Sends the broadcast of the current instance to every member. -/
def State.broadcast (s : State) (c : Nat) : State :=
  let s := s.markReady c
  let list := (s.ctx c).helm.work
  let s := (s.put R.STEP_STATUS.PHASE c 1).put R.STEP_STATUS.ENTRIES c list.length
  let s := s.modCtx c fun x => { x with
    repErr := [], repCount := []
    helm := { x.helm with ready := [], scattered := [], faults := [], results := [], notReady := [], draining := [] } }
  let body := s.image c list
  (s.members c).foldl (fun s n => (s.sendStep c 1 n list.length 0 body).2) s

/-- Starts step s + 1 with a work list. -/
def State.newStep (s : State) (c : Nat) (list : List Work) : State :=
  let s := (s.put R.STEP_NUMBER.STEP c (s.fld R.STEP_NUMBER.STEP c + 1)).put R.STEP_STATUS.INSTANCE c 0
  (s.modCtx c fun x => { x with helm := { x.helm with
    work := list, replays := 0, held := false, ringTold := false, dutied := false } }).broadcast c

/-- An admission or a cancellation waits for a COMMIT (R292, R309). -/
def Ctx.wantsCommit (x : Ctx) : Bool := x.entries.any fun e => decide (e.2.state = 1 ∨ e.2.state = 2) && (!e.2.announced || e.2.cancel)

/-- A step with an empty work list, where one is wanted and none is in flight. -/
def State.emptyStep (s : State) (c : Nat) : State :=
  if s.stepsRun c && !s.stepFlies c && !(s.ctx c).helm.dutied && (s.ctx c).wantsCommit then s.newStep c [] else s

/-- Uses a list that the builder or the host has fixed. An empty one starts a step only where a COMMIT is wanted. -/
def State.useList (s : State) (c : Nat) (list : List Work) : State :=
  if list = [] then s.emptyStep c else s.newStep c list

/-- The builder runs (R293). When the Tolls hold every eligible entry out, it will run again (R294). -/
def State.runBuilder (s : State) (c : Nat) : State :=
  let b := s.build c
  let s := b.skips.foldl (fun (s : State) t => s.modCtx c fun x =>
    { x with skips := tset 0 x.skips t ((tget 0 x.skips t + 1) % 2 ^ 32) }) s
  let some' := (s.ctx c).entries.any fun e => e.2.eligible
  let s := s.modCtx c fun x => { x with helm := { x.helm with held := decide (b.list = []) && some' } }
  s.useList c b.list

/-- Fixes the next work list: the builder, or a duty request where the host builds (R315). The spec does not say where
the eligibility bitmap lies, so its address is freely drawn (log entry 46). -/
def State.nextStep (s : State) (c : Nat) : State :=
  if !s.stepsRun c || s.stepFlies c || (s.ctx c).helm.dutied then s
  else if s.on (hdrDutyMode .step) c then
    if (s.ctx c).entries.any fun e => e.2.eligible then
      let a := s.freeNat 48
      let s := a.2.modCtx c fun x => { x with helm := { x.helm with dutied := true } }
      s.dutyRequest c 1 0 (leBytes (s.addr R.MANI_MIRROR_BASE.ADDR c) 8 ++ leBytes a.1 8 ++
        leBytes (s.fld R.STEP_NUMBER.STEP c + 1) 8)
    else s.emptyStep c
  else s.runBuilder c

/-- One entry of the host's list as a work-list entry, if R293's rules allow it. -/
def State.hostWork (s : State) (c v : Nat) : Option Work :=
  let slot := field v 0 10
  let e := s.entry c slot
  let n := field v 20 14
  let d := field v 34 4
  if !e.eligible || decide (e.gen ≠ field v 10 8) then none
  else if e.state = 2 then if field v 18 2 = 0 ∧ d ≤ 8 ∧ n = d + 1 then some (decodeWork slot e d) else none
  else if 1 ≤ n ∧ n ≤ min 8192 e.remaining ∧ field v 18 2 = (prefillWork slot e n).kind then some (prefillWork slot e n)
  else none

/-- The host's list (R315): entries that would violate the rules are dropped and counted. -/
def State.hostList (s : State) (c : Nat) (l : List Nat) : State :=
  let width := s.fld R.STEP_WIDTH.WIDTH c
  let r := l.foldl (fun (acc : List Work × Nat) v =>
    match s.hostWork c v with
    | some w =>
      if acc.1.length = width ∨ acc.1.any (fun q => decide (q.slot = w.slot)) then (acc.1, acc.2 + 1) else (acc.1 ++ [w], acc.2)
    | none => (acc.1, acc.2 + 1)) ([], 0)
  let s := s.bump R.STEP_DUTY_DROPPED.COUNT c r.2
  let s := s.modCtx c fun x => { x with helm := { x.helm with dutied := false } }
  if s.stepsRun c && !s.stepFlies c then s.useList c r.1 else s

/-- A step-building request ends without an answer: the helm builds the step itself (log entry 47). -/
def State.buildInstead (s : State) (c : Nat) : State :=
  let s := s.modCtx c fun x => { x with helm := { x.helm with dutied := false } }
  if s.stepsRun c && !s.stepFlies c then s.runBuilder c else s

/-- Every 100 µs, and when a bucket is written, a builder that the Tolls hold runs again, with the refill (R294). -/
def State.retryBuild (s : State) (c : Nat) : State :=
  if (s.ctx c).helm.held then (s.refill c).nextStep c else s

/-! ### Messages (R301, R302) -/

/-- The context a step message is for. -/
def State.stepCtx (s : State) (convoy : Nat) : Option Nat :=
  (List.range 16).find? fun c => s.on R.STEP_CTRL.EN c && decide (s.fld R.BARGE_CFG.CONVOY c = convoy)

/-- Bytes that the counts of a message ask for, and whether they are in range. -/
def bodyOk (kind : Nat) (m : StepMsg) : Bool :=
  match kind with
  | 1 => decide (m.count1 ≤ 512 ∧ m.count2 = 0 ∧ 256 + 32 * m.count1 ≤ m.body.length)
  | 2 => decide (m.count1 ≤ 512 ∧ m.count2 ≤ 256 ∧ 8 * m.count1 + 8 * m.count2 ≤ m.body.length)
  | 3 => decide (m.count1 ≤ 512 ∧ m.count2 ≤ 1024 ∧ 8 * m.count1 + 16 * m.count2 ≤ m.body.length)
  | 4 => decide (m.count1 ≤ 1024 ∧ m.count2 ≤ 1024 ∧ 4 * m.count1 + 2 * m.count2 ≤ m.body.length)
  | 5 => decide (m.count1 ≤ 16 ∧ 1 ≤ m.count2 ∧ m.count2 ≤ 3 ∧ 2 * m.count1 ≤ m.body.length)
  | 6 => decide (4 ≤ m.body.length)
  | _ => false

/-- The context that takes a message of a kind; none where it is refused. The helm takes CONVOY_END from its members
(R508), although R301 names its own node alone (log entry 48). -/
def State.stepTarget (s : State) (kind : Nat) (m : StepMsg) : Option Nat :=
  match s.stepCtx m.convoy with
  | none => none
  | some c =>
    let fromHelm := decide (m.node = s.helmNode c)
    let fromMember := (s.members c).contains m.node
    let from_ := match kind with
      | 1 | 3 => fromHelm
      | 6 => fromHelm || (s.helm c && fromMember)
      | _ => fromMember && s.helm c
    if from_ && bodyOk kind m then some c else none

/-- A message names the helm's current step and instance. -/
def State.isCurrent (s : State) (c : Nat) (m : StepMsg) : Bool :=
  decide (m.step = s.fld R.STEP_NUMBER.STEP c ∧ m.inst = s.fld R.STEP_STATUS.INSTANCE c)

/-! ### The member (R300, R244) -/

/-- Takes over the widths of a broadcast on a member that is no helm. -/
def State.takeWidths (s : State) (c : Nat) (body : List Byte) : State :=
  (List.range 256).foldl (fun s l =>
    (s.setFld R.ASSAY_LSTATE.STATE c l (field (wordAt body (64 + l / 4) 1) (2 * (l % 4)) 2)).setFld R.ASSAY_LSTATE.REF_READY c l
      (b2n (bit (wordAt body (128 + l / 8) 1) (l % 8)))) s

/-- Address of the broadcast buffer of a step. -/
def State.bcastBuffer (s : State) (c step : Nat) : Nat := s.addr R.STEP_BCAST_BASE.ADDR c + step % 2 * 32768

/-- The context's own state as an instance starts: rows, barges and samples of the one before it are gone. -/
def Ctx.startInst (x : Ctx) (inst : Nat) (work : List Work) : Ctx :=
  { x with
    errs := [], counts := [], posts := [], halves := [], received := [], arrived := [], returned := [], loadPend := []
    layer := 0
    member := { Member.idle with
      active := true, inst := inst, work := work, notReady := x.member.notReady, heldParts := x.member.heldParts } }

/-- Dispatch parts held for the instance that has just been accepted. -/
def State.takeHeldParts (s : State) (c : Nat) : State :=
  let l := (s.ctx c).member.heldParts
  l.foldl (fun s p => s.dispatchPart c p) (s.modCtx c fun x => { x with member := { x.member with heldParts := [] } })

/-- Accepts a broadcast: the buffer is written and the launch prepared. -/
def State.acceptBcast (s : State) (c : Nat) (m : StepMsg) : State :=
  let s := if (s.ctx c).member.active then (s.abandonBarges c).abandonMsgs c fun w => decide (w = 2) else s
  let s := (s.put R.STEP_NUMBER.STEP c m.step).put R.STEP_STATUS.INSTANCE c m.inst
  let s := (s.put R.STEP_STATUS.PHASE c 1).put R.STEP_STATUS.ENTRIES c m.count1
  let body := m.body.take (256 + 32 * m.count1)
  let s := (s.uwrite 0 c (s.bcastBuffer c m.step) body).2
  let s := if s.helm c then s else (s.takeWidths c body).takeDown c (body.drop 160)
  let s := s.modCtx c fun x => x.startInst m.inst ((List.range m.count1).map fun i => workOfBytes ((body.drop (256 + 32 * i)).take 32))
  ((s.takeLcfg c).takeAttnCfg c).takeHeldParts c

/-- A broadcast arrives: a later step waits for the boundary of the one in flight; an earlier one is dropped. -/
def State.bcast (s : State) (c : Nat) (m : StepMsg) : State :=
  let x := s.ctx c
  let step := s.fld R.STEP_NUMBER.STEP c
  if s.ended c || s.ctxInReset c then s
  else if x.member.active then
    if m.step = step ∧ x.member.inst < m.inst ∧ !x.member.committed then s.acceptBcast c m
    else if step < m.step then s.modCtx c fun x => { x with member := { x.member with held := some m } }
    else s
  else if step < m.step ∨ (s.helm c && s.isCurrent c m && decide (s.fld R.STEP_STATUS.PHASE c = 1)) = true then s.acceptBcast c m
  else s

/-- A core as a launch leaves it (R82). -/
def Core.launch (k : Core) (pc : BitVec 48) (r : List Word64) (src : LaunchSrc) (now : Nat) : Core :=
  { k.discard with
    pc := pc, src := src, lastRetire := now
    sregs := (List.range 4).foldl (fun t i => tset 0#64 t (i + 1) (r[i]?.getD 0#64)) [] }

/-- Launches a core at an address with s1-s4. -/
def State.launch (s : State) (n : Nat) (pc : Nat) (r : List Word64) (src : LaunchSrc) : State :=
  (s.modCore n fun k => k.launch (BitVec.ofNat 48 pc) r src s.tick).setCoreState n coreRunning

/-- The snapshot that a step launch takes (R461). -/
def State.launchSnap (s : State) (c : Nat) : State :=
  if s.on R.GAUGE_MCTRL.STEP_SNAP && decide (s.fld R.GAUGE_MCTRL.STEP_CTX = c) then s.snapEvery else s

/-- Every core of the context is READY: the member launches the step. -/
def State.stepLaunch (s : State) (c : Nat) : State :=
  let m := (s.ctx c).member
  if m.active && !m.launched && !m.replaying && s.ctxRuns c &&
      (s.coresOf c).all (fun n => decide (s.coreState n = coreReady)) then
    let step := s.fld R.STEP_NUMBER.STEP c
    let regs := [s.bcastBuffer c step, step % 2 ^ 32, m.inst, m.work.length].map fun v => BitVec.ofNat 64 v
    let s := (s.coresOf c).foldl (fun s n => s.launch n (s.addr R.STEP_ENTRY_PC.PC c) regs .step) s
    ((s.modCtx c fun x => { x with member := { x.member with launched := true } }).launchSnap c).staleFaults c
  else s

/-- The body of READY: faults, then Assay reports. -/
def readyBody (faults : List (Nat × Nat × Nat)) (reports : List (Nat × Nat × Nat)) : List Byte :=
  (faults.flatMap fun f => leBytes (f.1 + 2 ^ 10 * f.2.1 + 2 ^ 18 * f.2.2) 8) ++
    reports.flatMap fun r => leBytes (r.1 + 2 ^ 16 * min r.2.2 0xFFFF + 2 ^ 32 * min r.2.1 0xFFFFFFFF) 8

/-- Every core has returned from the step's launch: the member sends READY. -/
def State.memberReady (s : State) (c : Nat) : State :=
  let m := (s.ctx c).member
  if m.active && m.launched && !m.helmSent && !m.replaying && !s.ended c &&
      (s.coresOf c).all (fun n => decide ((s.core n).src ≠ .step)) then
    let faults := m.faults.take 512
    let reports := (s.ctx c).assayReport
    let s := s.modCtx c fun x => { x with member := { x.member with helmSent := true } }
    s.toHelm c 2 faults.length reports.length (readyBody faults reports)
  else s

/-- A member takes COMMIT: the step is never replayed from here on. -/
def State.takeCommit (s : State) (c : Nat) (m : StepMsg) : State :=
  if (s.ctx c).member.active && s.isCurrent c m && !(s.ctx c).member.committed && !s.ended c then
    let settle := (List.range m.count1).map fun i =>
      let v := wordAt m.body (8 * i) 8
      (field v 0 10, field v 10 8, field v 18 21, bit v 39)
    let adm := (List.range m.count2).map fun i =>
      let at' := 8 * m.count1 + 16 * i
      (field (wordAt m.body at' 4) 0 10, field (wordAt m.body at' 4) 10 8, field (wordAt m.body (at' + 4) 4) 0 21,
        field (wordAt m.body (at' + 8) 4) 0 14)
    let s := s.modCtx c fun x => { x with member := { x.member with committed := true, settled := settle, admitted := adm } }
    let s := (s.put R.STEP_STATUS.PHASE c 2).commitLoad c
    if s.helm c then s else s.bump R.STEP_STEPS.COUNT c
  else s

/-- The Rakes finish the scatter of a committed step. -/
def State.scatterStep (s : State) (c : Nat) : State :=
  let m := (s.ctx c).member
  if m.active && m.committed && !m.scattered then (s.scatter c).put R.STEP_STATUS.PHASE c 3 else s

/-- The member's index in the convoy. -/
def State.memberIndex (s : State) (c node : Nat) : Nat := node - s.fld R.STEP_NODES.NODE_LO c

/-- Records at the helm the layers whose FALLBACK ranges are readable on a member (R188 step 5). -/
def State.setResident (s : State) (c i : Nat) (layers : List Nat) : State :=
  s.modCtx c fun x => { x with
    resident := (List.range 256).foldl (fun t l =>
      let v := clrBit (tget 0 t l) i
      tset 0 t l (if layers.contains l then setBit v i else v)) x.resident }

/-- Tables that software has reloaded are taken over. -/
def Ctx.takeNext (x : Ctx) : Ctx :=
  { x with
    pairMap := if x.pairNext.isSome then x.pairNext else x.pairMap
    pairNext := none
    sched := x.schedNext.getD x.sched
    schedNext := none }

/-- The body of SCATTERED. -/
def scatteredBody (notReady : List (Nat × Nat)) (draining : List Nat) : List Byte :=
  (notReady.flatMap fun p => leBytes (handle p.1 p.2) 4) ++ draining.flatMap fun v => leBytes v 2

/-- The member sends SCATTERED, and then takes a broadcast that waits. -/
def State.sendScattered (s : State) (c : Nat) : State :=
  let x := s.ctx c
  let nr := (x.member.notReady.map fun p => (p.1, p.2.1)).take 1024
  let dr := x.drainingSlots.take 1024
  let held := x.member.held
  let s := s.modCtx c fun x => { x with member := { x.member with active := false, launched := false, held := none } }
  let s := if s.helm c then
      s.setResident c (s.memberIndex c s.node) ((List.range 256).filter fun l => s.fallbackReady c l)
    else s.put R.STEP_STATUS.PHASE c 0
  let s := s.toHelm c 4 nr.length dr.length (scatteredBody nr dr)
  match held with
  | some m => s.bcast c m
  | none => s

/-- The member's part of the step boundary (R188 steps 2-6). -/
def State.boundary (s : State) (c : Nat) (far : List Byte) : State :=
  if !(s.ctx c).member.scattered || s.ended c then s
  else if s.epochBlocked c then s.epochWait c
  else
    let s := s.put R.XLAT_STATUS.EPOCH_WAIT c 0
    let q := (s.checkSwitches c).applyQueue c
    let s := ((q.1.kvQuotaRefused c q.2).settleReady c).modCtx c Ctx.takeNext
    let s := (s.reloadTabs c far).applyPlacements c
    s.sendScattered c

/-! ### The helm (R303-R308, R312-R314, R330) -/

/-- A fault that READY reports raises its event once per request. -/
def State.helmFault (s : State) (c slot gen code : Nat) : State :=
  let s := s.modCtx c fun x => { x with helm := { x.helm with faults := x.helm.faults ++ [(slot, gen, code)] } }
  if (s.ctx c).helm.seen.contains (slot, gen) then s
  else
    let s := s.modCtx c fun x => { x with helm := { x.helm with seen := x.helm.seen ++ [(slot, gen)] } }
    s.raise (stepUnit c) (some c) (if code = 6 then 0x3202 else 0x3201) (w4 [handle slot gen, 0] ++ leBytes (s.entry c slot).tag 8)

/-- READY: the helm takes a member's faults and Assay report. -/
def State.takeReady (s : State) (c : Nat) (m : StepMsg) : State :=
  if s.isCurrent c m && decide (s.fld R.STEP_STATUS.PHASE c = 1) && !(s.ctx c).helm.ready.contains m.node then
    let s := s.modCtx c fun x => { x with helm := { x.helm with ready := x.helm.ready ++ [m.node] } }
    let s := (List.range m.count1).foldl (fun s i =>
      let v := wordAt m.body (8 * i) 8
      s.helmFault c (field v 0 10) (field v 10 8) (field v 18 4)) s
    s.modCtx c fun x => (List.range m.count2).foldl (fun (x : Ctx) i =>
      let v := wordAt m.body (8 * (m.count1 + i)) 8
      let l := field v 0 8
      { x with
        repErr := tset 0 x.repErr l (max (tget 0 x.repErr l) (field v 32 32 + 1))
        repCount := tset 0 x.repCount l (tget 0 x.repCount l + field v 16 16) }) x
  else s

/-- Records the room that a COMMIT needs: TOK records, and completions, with the ends of cancelled requests outside the
list. -/
def State.commitNeeds (s : State) (c : Nat) : Nat × Nat :=
  let x := s.ctx c
  let tok := (x.helm.work.map fun w => if w.kind = 2 then 1 else if w.kind = 0 then w.d + 1 else 0).foldl (· + ·) 0
  let out := (x.entries.filter fun e => decide (e.2.state = 1 ∨ e.2.state = 2) && e.2.cancel &&
    !x.helm.work.any fun w => decide (w.slot = e.1)).length
  (tok, x.helm.work.length + out)

/-- Main-stream results that an entry of the list expects: its positions. -/
def Work.wants (w : Work) : List Nat :=
  if w.kind = 2 then [w.len + w.ntok] else if w.kind = 0 then (List.range (w.d + 1)).map fun i => w.len + 1 + i else []

/-- A result is used at COMMIT. -/
def Ctx.usable (x : Ctx) (inst : Nat) (r : Sample) : Bool :=
  decide (r.status ≠ 7 ∧ r.inst = inst) &&
    x.helm.work.any fun w => decide (w.slot = r.slot ∧ w.gen = r.gen) && w.wants.contains r.pos

/-- Counts the results dropped and those taken twice (R330). -/
def State.countResults (s : State) (c : Nat) : State :=
  let x := s.ctx c
  let inst := s.fld R.STEP_STATUS.INSTANCE c
  let main := x.helm.results.filter fun r => !r.draft
  let ok := main.filter fun r => x.usable inst r
  let keys := (ok.map fun r => (r.slot, r.gen, r.pos)).eraseDups
  (s.bump R.XTAL_STALE.COUNT c (main.length - ok.length)).bump R.XTAL_DUP.COUNT c (ok.length - keys.length)

/-- The result for a position: the last one taken. -/
def Ctx.resultAt (x : Ctx) (inst slot gen pos : Nat) (draft : Bool) : Option Sample :=
  (x.helm.results.filter fun r => decide (r.slot = slot ∧ r.gen = gen ∧ r.pos = pos ∧ r.inst = inst ∧ r.draft = draft ∧
    r.status ≠ 7)).getLast?

/-- Draft tokens d1 to dD: from the first one without a good result on they are 0 (R321; log entry 49). -/
def Ctx.drafts (x : Ctx) (inst : Nat) (w : Work) : List Nat :=
  ((List.range w.d).foldl (fun (acc : List Nat × Bool) i =>
    match x.resultAt inst w.slot w.gen (w.len + 1 + i) true with
    | some r => if acc.2 && decide (r.status = 0) then (acc.1 ++ [r.token], true) else (acc.1 ++ [0], false)
    | none => (acc.1 ++ [0], false)) ([], true)).1

/-- What verification finds: the tokens chosen, or the position at which a result is missing or bad. -/
inductive Verified where
  | tokens (l : List Nat)
  | missing (pos : Nat)
  | bad (r : Sample)
  deriving DecidableEq, Repr

/-- Verifies an entry: sample after sample, for as long as the draft agrees (R312). -/
def verify (result : Nat → Option Sample) : Nat → List Nat → List Nat → Verified
  | pos, drafts, acc =>
    match result pos with
    | none => .missing pos
    | some r =>
      if r.status ≠ 0 then .bad r
      else
        match drafts with
        | [] => .tokens (acc ++ [r.token])
        | d :: ds => if d = r.token then verify result (pos + 1) ds (acc ++ [r.token]) else .tokens (acc ++ [r.token])
  termination_by structural _ drafts _ => drafts

/-- Whether the tokens up to a position complete a stop sequence: `hist` are the tokens before the step's, from position
`lo` on, and `bound` is the first position that may take part (R331). -/
def completesStop (stops : List (List Nat)) (tokens : List Nat) (lo bound pos : Nat) : Bool :=
  stops.any fun seq =>
    decide (bound + seq.length ≤ pos + 1 ∧ lo + seq.length ≤ pos + 1) &&
      decide ((tokens.drop (pos + 1 - seq.length - lo)).take seq.length = seq)

/-- The end that a delivered token brings, 0 for none (R304). -/
def tokenEnd (p : SampParams) (e : Entry) (groups : Option Nat) (tokens : List Nat) (lo pos n tok : Nat) : Nat :=
  if p.eos.contains tok then 1
  else if completesStop p.stops tokens lo (e.startLen + e.promptLen) pos then 3
  else if e.genLen + n = e.maxTokens then 2
  else if groups.any fun g => decide (g * 256 - 1 ≤ pos) then 5
  else 0

/-- Tokens delivered, with the end code of the last: stops at the first end. `n` counts those delivered so far, and
`first` is the first position. -/
def deliver (p : SampParams) (e : Entry) (groups : Option Nat) (tokens : List Nat) (lo first : Nat) :
    Nat → List Nat → List Nat × Nat
  | _, [] => ([], 0)
  | n, t :: ts =>
    let code := tokenEnd p e groups tokens lo (first + n) (n + 1) t
    if code ≠ 0 then ([t], code)
    else
      let r := deliver p e groups tokens lo first (n + 1) ts
      (t :: r.1, r.2)

/-- The outcome of a work-list entry. -/
structure Settled where
  w : Work
  tokens : List Nat     -- delivered
  len : Nat             -- L′
  endCode : Nat
  accepted : Nat        -- k
  deriving DecidableEq, Repr

/-- A fault that a member reported for a request. -/
def Ctx.faulted (x : Ctx) (w : Work) (code : Nat) : Bool := x.helm.faults.contains (w.slot, w.gen, code)

/-- An examined result that is missing or bad ends the request. -/
def State.sampleFault (s : State) (c : Nat) (w : Work) (v : Verified) : Nat × State :=
  let tag := leBytes (s.entry c w.slot).tag 8
  match v with
  | .bad r => (if r.tier then 6 else 7, s.raise (xtalUnit c) (some c) 0x3331 (w4 [handle w.slot w.gen, r.status] ++ tag))
  | .missing pos =>
    (7, (s.bump R.XTAL_MISSING.COUNT c).raise (xtalUnit c) (some c) 0x3332 (w4 [handle w.slot w.gen, pos] ++ tag))
  | .tokens _ => (0, s)

/-- Delivers the tokens of an entry (R304): the parameter record gives its ends. -/
def State.settleTokens (s : State) (c : Nat) (w : Work) (first : Nat) (l : List Nat) (far : List Byte) :
    Settled × List Byte × State :=
  let e := s.entry c w.slot
  let r := s.ureadFar 0 c e.params 1024 far
  let q := orFree (r.1, r.2.2) 1024
  let p := sampParams q.1
  let lo := max (e.startLen + e.promptLen) (first - 7)
  let h := q.2.ringTokens c w.slot lo first
  let d := deliver p e (((s.ctx c).desc w.slot).map fun d => d.groups) (h.1 ++ l) (min lo first) first 0 l
  (⟨w, d.1, first + d.1.length - 1, d.2, l.length - 1⟩, r.2.1, h.2)

/-- Settles one entry of the work list (R303). -/
def State.settleOne (s : State) (c : Nat) (w : Work) (far : List Byte) : Settled × List Byte × State :=
  let x := s.ctx c
  let e := s.entry c w.slot
  let inst := s.fld R.STEP_STATUS.INSTANCE c
  let stop (code : Nat) : Settled := ⟨w, [], w.len, code, 0⟩
  if e.state = 3 ∨ e.gen ≠ w.gen then (⟨w, [], w.len, 0, 0⟩, far, s)
  else if x.faulted w 7 then (stop 7, far, s)
  else if x.faulted w 6 then (stop 6, far, s)
  else if e.cancel then (stop 4, far, s)
  else if w.kind = 1 then (⟨w, [], w.len + w.ntok, 0, 0⟩, far, s)
  else
    let first := if w.kind = 2 then w.len + w.ntok else w.len + 1
    let v := verify (fun pos => x.resultAt inst w.slot w.gen pos false) first (if w.kind = 2 then [] else x.drafts inst w) []
    match v with
    | .tokens l => s.settleTokens c w first l far
    | v => let f := s.sampleFault c w v; (stop f.1, far, f.2)

/-- REJECTS, DRAFT_LEN and DRAFT_OFF after a delivering step (R313); true where the draft has just gone off. -/
def Entry.draftStep (e : Entry) (d k backoff retry : Nat) : Entry × Bool :=
  if e.draftOff then
    if e.retryLeft = 0 then ({ e with rejects := 0 }, false)
    else if e.retryLeft = 1 then ({ e with rejects := 0, retryLeft := 0, draftLen := e.draftMax, draftOff := false }, false)
    else ({ e with rejects := 0, retryLeft := e.retryLeft - 1 }, false)
  else if 0 < d ∧ k = 0 then
    if e.rejects + 1 = backoff then
      if e.draftLen / 2 = 0 then ({ e with rejects := 0, draftLen := 0, draftOff := true, retryLeft := retry }, true)
      else ({ e with rejects := 0, draftLen := e.draftLen / 2 }, false)
    else ({ e with rejects := e.rejects + 1 }, false)
  else ({ e with rejects := 0 }, false)

/-- Tokens of this step are late (R307). -/
def Entry.isLate (e : Entry) (now : Nat) : Bool :=
  if e.genLen = 0 then decide (e.ttft ≠ 0 ∧ e.arrival + e.ttft < now) else decide (e.tbt ≠ 0 ∧ e.last + e.tbt < now)

/-- A token record (R314). -/
def tokenRecord (e : Entry) (slot tok pos i now : Nat) (late degraded off last : Bool) (code : Nat) : List Byte :=
  leBytes (tok % 2 ^ 18 + 2 ^ 18 * b2n late + 2 ^ 19 * b2n degraded + 2 ^ 20 * b2n off + 2 ^ 21 * b2n last +
      2 ^ 22 * (if last then code else 0)) 4 ++
    leBytes (slot + 2 ^ 10 * e.gen + 2 ^ 18 * e.tenant) 4 ++ leBytes (pos + 2 ^ 21 * i) 4 ++ leBytes now 4

/-- The entry after its tokens have been delivered. -/
def Entry.delivered (e : Entry) (z : Settled) (now : Nat) : Entry :=
  let n := z.tokens.length
  if n = 0 then { e with curLen := z.len }
  else
    { e with
      curLen := z.len, genLen := e.genLen + n, late := e.late + (if e.isLate now then n else 0)
      first := if e.genLen = 0 then now else e.first, last := now, lastTok := z.tokens.getLast?.getD 0
      state := if e.state = 1 then 2 else e.state }

/-- Writes the token records of an entry, and its history. -/
def State.putTokens (s : State) (c : Nat) (e : Entry) (z : Settled) (degraded : Bool) : State :=
  let n := z.tokens.length
  let first := z.len + 1 - n
  let late := e.isLate s.tick
  let s := (List.range n).foldl (fun s i =>
    s.ringPush c 1 (tokenRecord e z.w.slot (z.tokens[i]?.getD 0) (first + i) i s.tick late degraded e.draftOff
      (decide (z.endCode ≠ 0 ∧ i + 1 = n)) z.endCode)) s
  let s := if n = 0 then s else s.writeHistory c z.w.slot first z.tokens
  let s := s.bump R.MANI_TOKENS.COUNT c n
  if late && decide (n ≠ 0) then
    if e.genLen = 0 then s.bump R.MANI_LATE_TTFT.COUNT c n else s.bump R.MANI_LATE_TBT.COUNT c n
  else s

/-- Charges the Tolls for an entry (R296), and counts what the step did. -/
def State.chargeEntry (s : State) (c : Nat) (e : Entry) (z : Settled) : State :=
  let pre := if z.w.kind = 0 ∨ z.len = z.w.len then 0 else z.w.ntok
  let s := (s.charge' c (2 * e.tenant) pre).charge' c (2 * e.tenant + 1) z.tokens.length
  let s := s.bump R.STEP_PREFILL_TOKENS.COUNT c pre
  if z.w.kind = 0 then (s.bump R.STEP_DRAFT_PROPOSED.COUNT c z.w.d).bump R.STEP_DRAFT_ACCEPTED.COUNT c z.accepted else s

/-- The effect of COMMIT on one entry: charges, tokens, its new contents and its end. -/
def State.applySettled (s : State) (c : Nat) (degraded : Bool) (z : Settled) : State :=
  let e := s.entry c z.w.slot
  if e.state = 3 ∨ e.gen ≠ z.w.gen then s
  else
    let s := (s.chargeEntry c e z).putTokens c e z degraded
    let e1 := e.delivered z s.tick
    let r := if z.w.kind = 0 ∧ z.tokens ≠ [] then
        e1.draftStep z.w.d z.accepted (s.fld R.STEP_DRAFT.BACKOFF c) (s.fld R.STEP_DRAFT.RETRY c)
      else (e1, false)
    let s := s.setEntry c z.w.slot r.1
    let s := if r.2 then s.raise (maniUnit c) (some c) 0x0322 (w4 [handle z.w.slot e.gen]) else s
    if z.endCode ≠ 0 then s.endRequest c z.w.slot z.endCode else s

/-- The admissions that a COMMIT carries: live entries not yet announced and not ending at it. -/
def State.announce (s : State) (c : Nat) : List (Nat × Entry) × State :=
  let l := (s.ctx c).entries.filter fun e => decide (e.2.state = 1) && !e.2.announced && !e.2.cancel
  (l, l.foldl (fun (s : State) (e : Nat × Entry) => s.setEntry c e.1 { e.2 with announced := true }) s)

/-- Requests that are cancelled and not in the list end at the COMMIT. -/
def State.endCancelled (s : State) (c : Nat) : State :=
  ((s.ctx c).entries.filter fun e => decide (e.2.state = 1 ∨ e.2.state = 2) && e.2.cancel &&
    !(s.ctx c).helm.work.any fun w => decide (w.slot = e.1)).foldl (fun (s : State) (e : Nat × Entry) => s.endRequest c e.1 4) s

/-- Sends COMMIT to every member. -/
def State.sendCommit (s : State) (c : Nat) (zs : List Settled) (adm : List (Nat × Entry)) : State :=
  let body := (zs.flatMap fun z => leBytes (z.w.slot + 2 ^ 10 * z.w.gen + 2 ^ 18 * z.len + 2 ^ 39 * b2n (decide (z.endCode ≠ 0))) 8) ++
    adm.flatMap fun p => leBytes (handle p.1 p.2.gen) 4 ++ leBytes p.2.startLen 4 ++ leBytes (min 8192 p.2.promptLen) 4 ++ [0, 0, 0, 0]
  (s.members c).foldl (fun s n => (s.sendStep c 3 n zs.length adm.length body).2) s

/-- Settles every entry of the list. -/
def State.settleAll (s : State) (c : Nat) (far : List Byte) : List Settled × State :=
  let r := (s.ctx c).helm.work.foldl (fun (acc : List Settled × List Byte × State) w =>
    let t := acc.2.2.settleOne c w acc.2.1
    (acc.1 ++ [t.1], t.2)) ([], far, s)
  (r.1, r.2.2)

/-- The helm commits (R303): it fixes every outcome, sends COMMIT, charges the Tolls and writes tokens and ends. -/
def State.commitStep (s : State) (c : Nat) (far : List Byte) : State :=
  let degraded := s.degraded c
  let r := (s.countResults c).settleAll c far
  let a := r.2.announce c
  let s := a.2.sendCommit c r.1 a.1
  let lateN := (r.1.map fun z => if (s.entry c z.w.slot).isLate s.tick then z.tokens.length else 0).foldl (· + ·) 0
  let s := r.1.foldl (fun s z => s.applySettled c degraded z) s
  let s := s.endCancelled c
  let s := if lateN = 0 then s else s.raise (stepUnit c) (some c) 0x1323 (w4 [s.fld R.STEP_NUMBER.STEP c, lateN])
  let s := (s.bump R.STEP_STEPS.COUNT c).assaySkips c
  (s.put R.STEP_STATUS.PHASE c 2).modCtx c fun x => { x with helm := { x.helm with results := [] } }

/-- Once the last READY is in and the rings have room, the helm commits; it counts a wait for room once (R408). -/
def State.helmCommit (s : State) (c : Nat) (far : List Byte) : State :=
  let x := s.ctx c
  if s.helm c && decide (s.fld R.STEP_STATUS.PHASE c = 1) && !s.ended c && (s.members c).all fun n => x.helm.ready.contains n then
    let need := s.commitNeeds c
    let tok := decide (s.ringRoom c 1 < need.1)
    let cq := decide (s.ringRoom c 0 < need.2)
    if tok || cq then
      if x.helm.ringTold then s
      else
        let s := (s.modCtx c fun x => { x with helm := { x.helm with ringTold := true } }).bump R.LD_RING_WAITS.COUNT c
        s.raise (.page .ld c) (some c) 0x1501 (w4 [c, if tok then 0 else 1])
    else s.commitStep c far
  else s

/-- Frees the DRAINING slots that no member reports (R311). -/
def State.freeSlots (s : State) (c : Nat) : State :=
  let x := s.ctx c
  (x.entries.filter fun e => decide (e.2.state = 3) && !x.helm.draining.contains e.1).foldl (fun (s : State) (e : Nat × Entry) =>
    (s.setEntry c e.1 { Entry.none with gen := (e.2.gen + 1) % 256 }).modCtx c fun x =>
      { x with helm := { x.helm with seen := x.helm.seen.filter fun q => decide (q ≠ (e.1, e.2.gen)) } }) s

/-- The entries that a member has reported not ready; each exclusion is counted (R248). -/
def State.markNotReady (s : State) (c : Nat) : State :=
  let l := (s.ctx c).helm.notReady
  let s := (s.ctx c).entries.foldl (fun (s : State) (e : Nat × Entry) =>
    let nr := decide (e.2.state = 1 ∨ e.2.state = 2) && l.contains (e.1, e.2.gen)
    if nr = e.2.notReady then s
    else s.modCtx c fun x => { x with entries := tset Entry.none x.entries e.1 { e.2 with notReady := nr } }) s
  s.bump R.RAKE_ALLOC_WAITS.COUNT c ((s.ctx c).entries.filter fun e => e.2.notReady).length

/-- What the helm applies when the last SCATTERED is in, before it builds (R293). -/
def State.helmBoundary (s : State) (c : Nat) : State :=
  let s := ((s.freeSlots c).refill c).assayBoundary c
  let s := ((s.clearDown c).markNotReady c).writeMirror c
  s.put R.STEP_STATUS.PHASE c 0

/-- SCATTERED: on the last one the helm closes the step and builds the next. -/
def State.takeScattered (s : State) (c : Nat) (m : StepMsg) (resident failed : List Nat) : State :=
  let x := s.ctx c
  if s.isCurrent c m && decide (2 ≤ s.fld R.STEP_STATUS.PHASE c) && !x.helm.scattered.contains m.node then
    let nr := (List.range m.count1).map fun i => let v := wordAt m.body (4 * i) 4; (field v 0 10, field v 10 8)
    let dr := (List.range m.count2).map fun i => field (wordAt m.body (4 * m.count1 + 2 * i) 2) 0 10
    let s := s.modCtx c fun x => { x with
      stageFail := x.stageFail ++ failed.filter fun l => !x.stageFail.contains l
      helm := { x.helm with
        scattered := x.helm.scattered ++ [m.node], notReady := x.helm.notReady ++ nr, draining := x.helm.draining ++ dr } }
    let s := if m.node = s.node then s else s.setResident c (s.memberIndex c m.node) resident
    if (s.members c).all fun n => (s.ctx c).helm.scattered.contains n then (s.helmBoundary c).nextStep c else s
  else s

/-- REPLAY: the helm issues the next instance of the step, or ends the context (R305). -/
def State.takeReplay (s : State) (c : Nat) (m : StepMsg) : State :=
  if s.isCurrent c m && decide (s.fld R.STEP_STATUS.PHASE c = 1) then
    let step := s.fld R.STEP_NUMBER.STEP c
    let inst := s.fld R.STEP_STATUS.INSTANCE c
    let nodes := (List.range m.count1).map fun i => field (wordAt m.body (2 * i) 2) 0 12
    let s := nodes.foldl (fun s n => s.addDown c n) s
    if s.ended c then s
    else
      let n := (s.ctx c).helm.replays + 1
      let s := (s.bump R.STEP_REPLAYS.COUNT c).modCtx c fun x => { x with helm := { x.helm with replays := n } }
      let s := s.raise (stepUnit c) (some c) 0x2321 (w4 [step, inst, m.count2])
      if s.fld R.STEP_LIMITS.REPLAY_MAX c ≤ n then s.ctxFault (stepUnit c) c 0x4321 (w4 [step])
      else (s.put R.STEP_STATUS.INSTANCE c (inst + 1)).broadcast c
  else s

/-- CONVOY_END ends the context (R508). -/
def State.takeConvoyEnd (s : State) (c : Nat) (m : StepMsg) : State :=
  if s.ended c then s else s.ctxFault (stepUnit c) c 0x4801 (w4 [s.helmNode c, wordAt m.body 0 2])

/-- The last READY is late (R306). -/
def State.stall (s : State) (c : Nat) : State :=
  let missing := (s.members c).filter fun n => !(s.ctx c).helm.ready.contains n
  if s.helm c && decide (s.fld R.STEP_STATUS.PHASE c = 1) && decide (missing ≠ []) then
    (s.bump R.STEP_STALLS.COUNT c).raise (stepUnit c) (some c) 0x1322
      (w4 [s.fld R.STEP_NUMBER.STEP c, missing.length] ++ ((missing ++ [0, 0, 0, 0]).take 4).flatMap fun n => leBytes n 2)
  else s

/-- A step message arrives at region 0: false where it is refused (R301). -/
def State.stepMessage (s : State) (kind : Nat) (m : StepMsg) : Bool × State :=
  match s.stepTarget kind m with
  | none => (false, s)
  | some c =>
    (true, match kind with
      | 1 => s.bcast c m
      | 2 => s.takeReady c m
      | 3 => s.takeCommit c m
      | 4 => s.takeScattered c m ((List.range 256).filter fun l =>
          bit (tget 0 (s.ctx c).resident l) (s.memberIndex c m.node)) []
      | 5 => s.takeReplay c m
      | _ => s.takeConvoyEnd c m)

/-- A step message from the bytes of a SEND: its kind, and the message. -/
def stepMsgOf (bs : List Byte) : Nat × StepMsg :=
  (wordAt bs 0 1, ⟨field (wordAt bs 16 2) 0 12, wordAt bs 2 2, wordAt bs 4 8, wordAt bs 12 1, field (wordAt bs 18 2) 0 13,
    field (wordAt bs 20 2) 0 13, bs.drop 32⟩)

/-- The SEND of a step message to the helm has failed (R508). -/
def State.stepSent (s : State) (c kind status : Nat) : State :=
  if status ≠ 0 ∧ (kind = 2 ∨ kind = 4 ∨ kind = 5) ∧ s.ended c = false then
    s.ctxFault (stepUnit c) c 0x4801 (w4 [s.helmNode c, 0x4801])
  else s

end Sys2Proof.Machine
end

