-- ==== Sys2Proof/Machine/MsgOps.lean ====
section
/-! DEFINITION. Machine/MsgOps.lean: messages (R384-R390, 14_rack_memory_semantics.md): completion at the issuer,
judgement against the record table, placing at the destination, regions and the import table. -/
namespace Sys2Proof.Machine

def msgUnit (c : Nat) : Raiser := .page .msg c

/-! ### Completion at the source (R372, R384, R387) -/

/-- Bytes 32-35 of a message descriptor at completion. -/
def descDone (status : Nat) (wcoll : Bool) : List Byte := leBytes (status + 16 * b2n wcoll + 2 ^ 31) 4

/-- A core's message ends: its descriptor and tag, unless its operation is gone (R90, R384). -/
def State.msgToCore (s : State) (m : Message) (status : Nat) (wcoll : Bool) : State :=
  match (s.core m.core).xop m.tag 0x54 with
  | some x =>
    if x.b = m.note then
      s.modCore m.core fun k => (k.scrWrite (m.desc * 64 + 32) (descDone status wcoll)).tagDone m.tag status wcoll
    else s
  | none => s

/-- What the end of a message counts at its issuer (R372, R391). -/
def State.msgCount (s : State) (m : Message) (status : Nat) (wcoll : Bool) : State :=
  let s := if wcoll then s.bump R.MSF_WCOLL.COUNT m.ctx else s
  if status = 0 then (s.bump R.MSG_SENT.COUNT m.ctx).bump R.MSG_BYTES_OUT.COUNT m.ctx m.len
  else
    ((((s.bump R.MSG_FAILS.COUNT m.ctx).put R.MSG_LAST_FAIL.STATUS m.ctx status).put R.MSG_LAST_FAIL.NODE m.ctx m.node)).put
      R.MSG_LAST_FAIL.REGION m.ctx m.region

/-- The block that issued a message takes its outcome. -/
def State.msgTell (s : State) (m : Message) (status : Nat) (wcoll : Bool) : State :=
  match m.who with
  | 0 => s.msgToCore m status wcoll
  | 2 => s.partSent m.ctx m.note m.node (decide (status = 0))
  | 3 => s.stepSent m.ctx m.note status
  | _ => s

/-- The first identifier at or after the rotating pointer that is free (R387). -/
def State.freeMsgId (s : State) : Option Nat :=
  ((List.range 4096).map fun i => (s.rack.msgPtr + i) % 4096).find? fun i => !(s.message i).busy

/-- Starts a waiting message under a free identifier; a route that refuses it ends it with status ROUTE. -/
def State.startMsg (s : State) (id : Nat) (m : Message) : State :=
  let m := { m with gen := ((s.message id).gen + 1) % 256, busy := true, resends := 0 }
  let s := s.setMessage id m
  let r := ({ s with rack := { s.rack with msgPtr := (id + 1) % 4096 } } : State).sendPackets id m
  if r.1 then r.2 else ((r.2.setMessage id { m with busy := false }).msgCount m 1 false).msgTell m 1 false

/-- Starts the waiting messages that identifiers and limits now allow, oldest first. -/
def State.startWaiting (s : State) : State :=
  s.rack.waiting.foldl (fun s m =>
    match s.freeMsgId with
    | some id =>
      if s.inflight m.ctx < s.fld R.MSG_LIMIT.LIMIT m.ctx then s.startMsg id m
      else { s with rack := { s.rack with waiting := s.rack.waiting ++ [m] } }
    | none => { s with rack := { s.rack with waiting := s.rack.waiting ++ [m] } })
    { s with rack := { s.rack with waiting := [] } }

/-- A message ends with a status: its identifier is free, its issuer hears of it, and waiting messages start. -/
def State.msgEnd (s : State) (id status : Nat) (wcoll : Bool) : State :=
  let m := s.message id
  let s := (s.setMessage id { m with busy := false }).msgCount m status wcoll
  (s.msgTell m status wcoll).startWaiting

/-- The message that an answer names: its identifier, generation and incarnation are those of a message in flight. -/
def State.answered (s : State) (p : Packet) : Option Message :=
  let m := s.message (p.h 8 2 % 4096)
  if m.busy && decide (m.gen = p.h 10 1 ∧ s.rack.msgInc = p.h 12 2) then some m else none

/-- A MSG_ACK arrives. -/
def State.msgAck (s : State) (p : Packet) : State :=
  match s.answered p with
  | some _ => s.msgEnd (p.h 8 2 % 4096) (p.h 11 1 % 16) (bit (p.h 11 1) 4)
  | none => s

/-- Packets of a message of `len` bytes (R385). -/
def packetsOf (len : Nat) : Nat := max 1 ((len + 4095) / 4096)

/-- Writes what a GET brings into the local buffer: a loss under R164, and the state. -/
def State.getPlace (s : State) (m : Message) (off : Nat) (bs : List Byte) (drop : List Nat) : Bool × State :=
  if m.unified then (false, (s.uwrite (m.core / 64) m.ctx (m.laddr + off) bs).2)
  else if s.coreState m.core = coreFenced then (false, s.scrInbound m.core (m.laddr + off) bs)
  else (decide (lostWords (m.laddr + off) bs.length drop ≠ []), s.scrPut m.core 2 (m.laddr + off) bs drop)

/-- A GET_DATA packet arrives; the GET completes when every packet has been written. -/
def State.getData (s : State) (p : Packet) (env : Surround) : State :=
  let id := p.h 8 2 % 4096
  let i := p.h 14 2 % 4096
  match s.answered p with
  | none => s
  | some m =>
    if m.op ≠ 2 ∨ packetsOf m.len ≤ i ∨ m.got.contains i = true then s
    else
      let r := s.getPlace m (4096 * i) (p.payload.take (m.len - 4096 * i)) env.drop
      let got := i :: m.got
      let s := r.2.setMessage id { m with got := got, lost := m.lost || r.1 }
      if packetsOf m.len ≤ got.length then s.msgEnd id 0 (m.lost || r.1) else s

/-- `MSG_TIMEOUT` has passed since a message's last packet (R390). -/
def State.msgTimeout (s : State) (id : Nat) : State :=
  let m := s.message id
  if !m.busy then s
  else if m.resends < s.fld R.MSG_RETRY.COUNT m.ctx then
    let s := (s.setMessage id { m with resends := m.resends + 1 }).bump R.MSG_RETRANSMITS.COUNT m.ctx
    (s.sendPackets id (s.message id)).2
  else
    (s.raiseOnce (toldKey 0x0432 0) msTicks (msgUnit m.ctx) (some m.ctx) 0x0432 (w4 [10, m.node, m.region])).msgEnd id 10 false

/-! ### Judgement at the destination (R389) -/

def recordKey (p : Packet) : Nat := 4096 * p.src + p.h 8 2 % 4096
def State.record (s : State) (k : Nat) : MsgRecord := tget MsgRecord.none s.rack.records k
def State.setRecord (s : State) (k : Nat) (r : MsgRecord) : State :=
  { s with rack := { s.rack with records := tset MsgRecord.none s.rack.records k r } }

/-- What a packet is against its record: 0 a new use, 1 late, 2 of the use in progress, 3 a duplicate. A value 1 to half
the range ahead is later. -/
def judge (r : MsgRecord) (inc gen : Nat) : Nat :=
  let di := (inc + 65536 - r.inc) % 65536
  let dg := (gen + 256 - r.gen) % 256
  if !r.valid then 0
  else if di = 0 then
    if dg = 0 then (if r.done then 3 else 2) else if dg ≤ 128 then 0 else 1
  else if di ≤ 32768 then 0 else 1

/-- Context whose page counts a late packet. -/
def State.lateOwner (s : State) (region : Nat) : Nat := if (s.region region).isSet then (s.region region).owner else 0

/-- Answers a message with a MSG_ACK (R375, R388). -/
def State.ackMsg (s : State) (p : Packet) (status : Nat) (wcoll : Bool) : State :=
  let g := s.region (p.h 29 1)
  s.injectFor (if g.isSet then some g.owner else none)
    { dst := p.src, src := 0, slice := 0, vc := 2, hop := false, type := 0x14,
      head := leBytes (p.h 8 2) 2 ++ leBytes (p.h 10 1) 1 ++ leBytes (status + 16 * b2n wcoll) 1 ++ leBytes (p.h 12 2) 2 ++
        [0, 0] ++ leBytes (p.h 16 4) 4 ++ List.replicate 12 0
      payload := [] }

/-! ### Queue regions (R386) -/

def Region.slots (g : Region) : Nat := g.size / (g.slotsz * 64)

/-- Offset of a message slot within its region. -/
def Region.slotOff (g : Region) (i : Nat) : Nat := i * (g.slotsz * 64)

/-- The first 64 bytes of a message slot: STATE, source node, LEN. -/
def slotHeader (st node len : Nat) : List Byte :=
  leBytes st 4 ++ leBytes node 4 ++ leBytes len 4 ++ List.replicate 52 0

/-- A queue slot's use is abandoned: STATE becomes 2. -/
def State.abandonSlot (s : State) (r : MsgRecord) : State :=
  match r.slot with
  | some i =>
    let g := s.region r.region
    if g.isSet then (s.ownerWrite g.owner (g.target + g.slotOff i) (leBytes 2 4)).2 else s
  | none => s

/-- Reserves a queue slot: its number, or a status (R386). -/
def State.reserveSlot (s : State) (g : Region) (env : Surround) : Nat × Nat × State :=
  let r := s.ownerRead g.owner g.target 8 env.mem
  if r.1 ≠ 0 then (r.1, 0, r.2.2)
  else
    let head := ofLe (r.2.1.take 4)
    let tail := ofLe (r.2.1.drop 4)
    let n := g.slots - 1
    if n ≤ (tail + 2 ^ 32 - head) % 2 ^ 32 then (9, 0, r.2.2.bump R.MSG_QFULL.COUNT g.owner)
    else
      let w := r.2.2.ownerWrite g.owner (g.target + 4) (leBytes (tail + 1) 4)
      (w.1, 1 + tail % n, w.2)

/-! ### Placing (R385) -/

/-- Places bytes into a buffer at an offset; bytes between are 0. -/
def splice (buf : List Byte) (off : Nat) (bs : List Byte) : List Byte :=
  buf.take off ++ List.replicate (off - buf.length) 0 ++ bs ++ buf.drop (off + bs.length)

/-- Checks 3-5 of a message at its destination (R371, R385). -/
def State.msgCheck (s : State) (p : Packet) : Nat :=
  let op := if p.type = 0x10 then 1 else if p.type = 0x11 then 2 else 3
  let r := p.h 29 1
  let g := s.region r
  let len := p.h 16 4 % 2 ^ 25
  if r < 2 then (if op = 3 then 0 else 5)
  else if !g.isSet || !(if op = 3 then s.on R.MSG_CTRL.EN g.owner else s.on R.MSF_CTRL.EN g.owner) then 3
  else if op ≠ 3 ∧ g.size < p.h 24 5 + len then 3
  else if g.key ≠ p.h 20 4 then 4
  else if op = 3 then (if g.kind = 2 ∧ len + 64 ≤ g.slotsz * 64 then 0 else 5)
  else if g.kind = 2 ∨ bit g.perm (op + 2) = false then 5
  else 0

/-- A message ends at its destination: the record keeps the outcome, refusals are counted, and the source is answered. -/
def State.msgFinish (s : State) (p : Packet) (r : MsgRecord) (status : Nat) : State :=
  let s := if status = 0 then s else s.abandonSlot r
  let s := s.setRecord (recordKey p) { r with done := true, status := status, slot := none, data := [] }
  let s := if status = 0 then
      (if (s.region r.region).isSet then s.bump R.MSG_RECEIVED.COUNT (s.region r.region).owner else s)
    else s.refusedIn r.region p.src status
  s.ackMsg p status r.wcoll

/-- Delivers a whole SEND at region 0 or 1. -/
def State.endpoint (s : State) (p : Packet) (r : MsgRecord) : State :=
  let t := if r.region = 0 then let m := stepMsgOf r.data; s.stepMessage m.1 m.2 else s.bargePart ⟨p.src, r.data⟩
  t.2.msgFinish p r (if t.1 then 0 else 3)

/-- One packet of a PUT or SEND is placed: status, record and state. -/
def State.placePacket (s : State) (p : Packet) (r : MsgRecord) (env : Surround) : Nat × MsgRecord × State :=
  let g := s.region r.region
  let off := 4096 * (p.h 14 2 % 4096)
  let bs := p.payload.take (p.h 16 4 % 2 ^ 25 - off)
  if r.region < 2 then (0, { r with data := splice r.data off bs }, s)
  else if p.type = 0x10 then
    let w := s.regionWrite g (p.h 24 5 + off) bs env
    (w.1, { r with wcoll := r.wcoll || w.2.1 }, w.2.2)
  else
    let q := match r.slot with
      | some i => (0, i, s)
      | none => s.reserveSlot g env
    if q.1 ≠ 0 then (q.1, r, q.2.2)
    else
      let w := q.2.2.ownerWrite g.owner (g.target + g.slotOff q.2.1 + 64 + off) bs
      (w.1, { r with slot := some q.2.1 }, w.2)

/-- Marks a queue slot valid: the header, STATE last. -/
def State.fillSlot (s : State) (p : Packet) (r : MsgRecord) : Nat × State :=
  match r.slot with
  | some i =>
    let g := s.region r.region
    s.ownerWrite g.owner (g.target + g.slotOff i) (slotHeader 1 p.src (p.h 16 4 % 2 ^ 25))
  | none => (0, s)

/-- A PUT or SEND packet of a use in progress. -/
def State.putPacket (s : State) (p : Packet) (r : MsgRecord) (env : Surround) : State :=
  let i := p.h 14 2 % 4096
  let n := packetsOf (p.h 16 4 % 2 ^ 25)
  if r.got.contains i || decide (n ≤ i) then s
  else
    let st := s.msgCheck p
    if st ≠ 0 then s.msgFinish p r st
    else
      let w := s.placePacket p r env
      let r := { w.2.1 with got := i :: r.got }
      if w.1 ≠ 0 then w.2.2.msgFinish p r w.1
      else if n ≤ r.got.length then
        if r.region < 2 then w.2.2.endpoint p r
        else
          let f := w.2.2.fillSlot p r
          f.2.msgFinish p r f.1
      else w.2.2.setRecord (recordKey p) r

/-- The packets that answer a GET. -/
def getPackets (p : Packet) (data : List Byte) : List Packet :=
  (List.range (packetsOf data.length)).map fun i =>
    { dst := p.src, src := 0, slice := 0, vc := 4, hop := false, type := 0x12,
      head := leBytes (p.h 8 2) 2 ++ leBytes (p.h 10 1) 1 ++ [0] ++ leBytes (p.h 12 2) 2 ++ leBytes i 2 ++
        leBytes (p.h 16 4) 4 ++ List.replicate 12 0
      payload := (data.drop (4096 * i)).take 4096 }

/-- A GET of a use in progress: the data, or a refusal. -/
def State.getPacket (s : State) (p : Packet) (r : MsgRecord) (env : Surround) : State :=
  let g := s.region r.region
  let st := s.msgCheck p
  if st ≠ 0 then s.msgFinish p r st
  else
    let d := s.regionRead g (p.h 24 5) (p.h 16 4 % 2 ^ 25) env
    if d.1 ≠ 0 then d.2.2.msgFinish p r d.1
    else
      let s := d.2.2.setRecord (recordKey p) r
      (getPackets p d.2.1).foldl (fun s q => s.injectFor (some g.owner) q) s

/-- A message packet arrives at its destination (R389). -/
def State.msgIn (s : State) (p : Packet) (env : Surround) : State :=
  let k := recordKey p
  let r := s.record k
  let v := judge r (p.h 12 2) (p.h 10 1)
  let serve := fun (s : State) (r : MsgRecord) => if p.type = 0x11 then s.getPacket p r env else s.putPacket p r env
  if v = 0 then
    let s := if r.valid && !r.done then s.abandonSlot r else s
    let fresh : MsgRecord := { MsgRecord.none with valid := true, inc := p.h 12 2, gen := p.h 10 1, region := p.h 29 1 }
    serve (s.setRecord k fresh) fresh
  else if v = 1 then
    let c := s.lateOwner (p.h 29 1)
    (s.bump R.MSG_LATE.COUNT c).raiseOnce (toldKey 0x0431 0) msTicks (msgUnit c) (some c) 0x0431
      (w4 [p.src, p.h 8 2 % 4096, p.h 10 1])
  else if v = 2 then serve s r
  else s.ackMsg p r.status r.wcoll

/-- An unfinished use is abandoned at its destination (R390). -/
def State.abandonUse (s : State) (node id : Nat) : State :=
  let k := 4096 * node + id
  let r := s.record k
  if r.valid && !r.done then
    (s.abandonSlot r).setRecord k { r with done := true, status := 11, slot := none, data := [] }
  else s

/-! ### Delivery by type (R375) -/

/-- A packet for this module, by its TYPE; every other TYPE below 0xF0 is dropped and counted. -/
def State.deliver (s : State) (p : Packet) (env : Surround) : State :=
  match p.type with
  | 0x01 | 0x02 | 0x03 => s.requestIn p
  | 0x04 => s.respIn p
  | 0x05 => s.resyncIn p
  | 0x06 => s.resyncAck p
  | 0x10 | 0x11 | 0x13 => s.msgIn p env
  | 0x12 => s.getData p env
  | 0x14 => s.msgAck p
  | _ => s.bump R.ROUTE_MISROUTED.COUNT 0

/-! ### Exported regions and the import table (R369, R370) -/

/-- The region that the argument registers of a context describe (R391). -/
def State.argRegion (s : State) (c : Nat) : Region :=
  let kind := s.fld R.MSF_EXP_ARG0.KIND c
  let t := s.fld R.MSF_EXP_ARG1.TARGET c
  { kind := kind, perm := s.fld R.MSF_EXP_ARG0.PERM c, base := s.fld R.MSF_EXP_ARG0.BASE c * 65536,
    size := (s.fld R.MSF_EXP_ARG0.SIZE_M1 c + 1) * 65536,
    target := if kind = 1 then field t 0 9 * 2 ^ 20 + field t 12 4 * 65536 else t
    slotsz := s.fld R.MSF_EXP_ARG1.SLOTSZ c, key := s.fld R.MSF_EXP_KEY.KEY c, owner := c }

/-- The argument registers hold a reserved encoding. -/
def State.argReserved (s : State) (c : Nat) : Bool :=
  let g := s.argRegion c
  let t := s.fld R.MSF_EXP_ARG1.TARGET c
  decide (g.kind = 3) || decide (2 ^ 40 < g.base + g.size) ||
    (if g.kind = 1 then decide (field t 9 3 ≠ 0) || decide (field t 16 32 ≠ 0) || decide (scrSize < g.scrBase + g.size)
      else decide (t % 65536 ≠ 0)) ||
    (decide (g.kind = 2) && decide (g.slotsz < 2))

/-- Two regions share offsets. -/
def Region.overlaps (a b : Region) : Bool := decide (a.base < b.base + b.size) && decide (b.base < a.base + a.size)

/-- `MSF_EXP_CMD` SET: the result, in the order 4, 1, 2, 3. -/
def State.exportResult (s : State) (c : Nat) : Nat :=
  let r := s.fld R.MSF_EXP_ARG0.REGION c
  let g := s.argRegion c
  if r < 2 then 4
  else if (s.region r).isSet && decide ((s.region r).owner ≠ c) then 1
  else if s.argReserved c || s.rack.regions.any fun e => decide (e.1 ≠ r) && e.2.overlaps g then 2
  else if g.kind = 1 ∧ s.inSet c g.core = false then 3
  else 0

def State.setRegion (s : State) (r : Nat) (g : Region) : State :=
  { s with rack := { s.rack with regions := tset Region.none s.rack.regions r g } }

def State.exportSet (s : State) (c : Nat) : State :=
  let r := s.exportResult c
  let s := if r = 0 then s.setRegion (s.fld R.MSF_EXP_ARG0.REGION c) (s.argRegion c) else s
  s.put R.MSF_EXP_RESULT.RESULT c r

def State.exportClear (s : State) (c : Nat) : State :=
  let r := s.fld R.MSF_EXP_ARG0.REGION c
  if r < 2 then s.put R.MSF_EXP_RESULT.RESULT c 4
  else if (s.region r).isSet && decide ((s.region r).owner = c) then
    (s.setRegion r Region.none).put R.MSF_EXP_RESULT.RESULT c 0
  else s.put R.MSF_EXP_RESULT.RESULT c 5

/-- An entry of the import table; none where it holds a reserved encoding. -/
def importEntry (bs : List Byte) : Option Import :=
  let w := fun i => ofLe ((bs.drop (4 * i)).take 4)
  if field (w 0) 14 2 ≠ 0 ∨ field (w 0) 24 8 ≠ 0 ∨ field (w 2) 24 8 ≠ 0 ∨ field (w 3) 25 7 ≠ 0 then none
  else some { v := bit (w 0) 12, node := field (w 0) 0 12, queue := bit (w 0) 13, region := field (w 0) 16 8,
              key := w 1, base := field (w 2) 0 24 * 65536, size := field (w 3) 0 25 * 65536 }

/-- Import.none as a table's unlisted value, entry by entry. -/
def takeImports (l : List (List Byte)) : Table Import :=
  tsetAll Import.none [] 0 (l.map fun bs => (importEntry bs).getD Import.none)

/-- Reads the import table: operations issued from now on use it (R370). -/
def State.importReload (s : State) (c : Nat) (far : List Byte) : State :=
  let n := s.fld R.MSF_IMP_COUNT.COUNT c
  let r := s.ureadFar 0 c (s.addr R.MSF_IMP_BASE.ADDR c) (16 * n) far
  match r.1 with
  | .bytes bs =>
    let l := (List.range n).map fun i => (bs.drop (16 * i)).take 16
    let s := r.2.2.modCtx c fun x => { x with imports := takeImports l }
    match (List.range n).find? fun i => (importEntry (l[i]?.getD [])).isNone with
    | some i => s.errlog .msf c 4 i 0 0
    | none => s
  | _ => r.2.2.errlog .msf c 4 0 0 0

end Sys2Proof.Machine
end

