-- ==== Sys2Proof/Machine/SlotOps.lean ====
section
/-! DEFINITION. Machine/SlotOps.lean: what each slot of a bundle does (R77-R92, R98; 03_suina_core.md): its waits, its
exceptions, and the effects it has at commit. -/
namespace Sys2Proof.Machine

/-! ### Outcomes of a slot -/

/-- What a slot does at CM: its register writes, its scratchpad stores, where the bundle continues, and what it sends. -/
structure Effects where
  sw : List (Nat × Word64) := []
  vw : List (Nat × BitVec 2048) := []
  mw : List (Nat × BitVec 256) := []
  lw : List (Nat × LoopReg) := []
  st : List (Nat × List Byte) := []
  pc : Option (BitVec 48) := none
  taken : Option Bool := none   -- outcome of a conditional branch (R96)
  push : Option (BitVec 48) := none
  pop : Bool := false
  stops : Nat := 0              -- 1 HALT, 2 BRK under an open scope
  hold : Option (State → State) := none -- the bundle stays at CM, and this is sent (R98)
  after : State → State := id

/-- A slot waits, raises an exception, or is ready to commit. The state carries what translations have cached. -/
inductive SlotOut where
  | wait (s : State)
  | trap (s : State) (cause addr : Nat)
  | done (s : State) (e : Effects)

/-! ### Operands -/

/-- s(RS1) + OFF modulo 2^64 (R84). -/
def Core.ea (k : Core) (rs1 : BitVec 5) (off : BitVec 32) : Nat := (k.s rs1 + sx32 off).toNat

/-- The node address of `LDN` and `STN` (R84). -/
def Core.nodeEa (k : Core) (rs1 : BitVec 5) (off : BitVec 32) : Nat × Nat :=
  let a := (k.s rs1).toNat
  (field a 40 12, twos 40 ((a % 2 ^ 40 : Nat) + off.toInt))

/-- Low bytes of a data register. -/
def storeBytes (v : Word64) (size : BitVec 2) : List Byte := leBytes v.toNat (2 ^ size.toNat)

/-- Bytes `n` of a line at an address. -/
def lineBytes (line : List Byte) (a n : Nat) : List Byte := (line.drop (a % 64)).take n

/-- `RDTAG` (R90). -/
def Tag.word (t : Tag) : Word64 := BitVec.ofNat 64 (b2n t.busy + 2 * t.status + 32 * b2n t.wcoll)

/-! ### The S slot (R84, R85) -/

/-- A scratchpad access: its exception, if any. -/
def scrFault (a n : Nat) : Option Nat := if a % n ≠ 0 then some 3 else if scrSize < a + n then some 4 else none

/-- A unified-range access: its exception before translation. -/
def uniFault (a n : Nat) : Option Nat := if a % n ≠ 0 then some 3 else if 2 ^ 48 ≤ a then some 5 else none

/-- What a load from T3 keeps until its line arrives: the offset within it, SIZE and SX. -/
def farLoad (a : Nat) (size : BitVec 2) (sx : Bool) : Word64 := BitVec.ofNat 64 (a % 64 + 64 * size.toNat + 256 * b2n sx)

/-- Adds a load that has been sent. -/
def State.addPend (s : State) (n : Nat) (p : PendLd) : State := s.modCore n fun k => { k with pend := k.pend ++ [p] }

/-- `LDU` after translation (R98): from the data cache, or as a request sent. -/
def State.lduSend (s : State) (n : Nat) (rd : BitVec 5) (size : BitVec 2) (sx : Bool) (a e : Nat) (ecc : Ecc) : SlotOut :=
  let c := s.ctxOf n
  let hit := tget [] (s.core n).dcache (a / 64)
  if s.held? c (a / 65536) then .wait s
  else if hit ≠ [] then .done s { sw := [(rd.toNat, extendLoad size sx (lineBytes hit a (2 ^ size.toNat)))] }
  else if 2 ≤ leafTier e then
    let send (s : State) : State :=
      (s.addPend n ⟨rd, farLoad a size sx, a / 64, [], true, true, s.epoch c⟩).farAsk c (leafTier e) (leafLoc e)
        (a % 65536 / 64 * 64) 64
    .done s { after := send }
  else
    let line := s.physRead (leafTier e) (leafLoc e) (a / 64 * 64) 64
    if isUe ecc then .wait (s.lineEcc (leafTier e) (leafLoc e) (a % 65536) ecc)
    else
      let s := s.lineEcc (leafTier e) (leafLoc e) (a % 65536) ecc
      let send (s : State) : State :=
        let s := s.addPend n ⟨rd, extendLoad size sx (lineBytes line a (2 ^ size.toNat)), a / 64, line, false, true, s.epoch c⟩
        if leafTier e = 1 then s.hbmBytes c 64 else s
      .done s { after := send }

/-- A node operation of core `n`, as yet without its number. -/
def State.nodeOp (s : State) (n kind op : Nat) (ret : Bool) (size : Nat) (sx : Bool) (rd : BitVec 5) (off : Nat)
    (e : Import) (data : List Byte) : NodeOp :=
  { seq := 0, core := n, gen := tget 0 s.rack.coreGen n, ctx := s.ctxOf n, kind := kind, op := op, ret := ret,
    size := size, sext := sx, rd := rd, offset := off, region := e.region, key := e.key, data := data,
    ticket := s.rack.tickets + 1, sent := false }

/-- Sends a node operation. -/
def State.nodeSend (s : State) (node : Nat) (o : NodeOp) : State :=
  ({ s with rack := { s.rack with tickets := o.ticket } } : State).nodeEnter node o

/-- A node operation (R372, R376, R379). `ret` says that its bundle stays at CM for the answer, which it then takes. -/
def State.nodeSlot (s : State) (n kind op : Nat) (ret : Bool) (size : Nat) (sx : Bool) (rd : BitVec 5) (node off : Nat)
    (data : List Byte) : SlotOut :=
  let addr := node * 2 ^ 40 + off
  if off % 2 ^ size ≠ 0 then .trap s 3 addr
  else
    match (s.core n).nodeAns with
    | some (st, v) => if st ≠ 0 then .trap s 6 addr else .done s { sw := [(rd.toNat, v)] }
    | none =>
      let c := s.ctxOf n
      let q := s.nodeCheck c node off (2 ^ size)
      match q.2 with
      | none =>
        if ret then .trap ((s.bump R.MSF_REFUSED_OUT.COUNT c).msfLastFail c q.1 node 0) 6 addr
        else .done s { after := fun s => s.postedFail c q.1 node off }
      | some e =>
        let o := s.nodeOp n kind op ret size sx rd off e data
        if 64 ≤ (s.pair node).open_.length ∨ (ret = true ∧ s.postedOpen n = true) then .wait s
        else if ret then
          .done s { hold := some fun s => (s.nodeSend node o).modCore n fun k => { k with nodeWait := o.ticket } }
        else .done s { after := fun s => s.nodeSend node o }

/-- OP of an AMO request (R375). -/
def amoCode : AOp → Nat
  | .add => 0 | .min => 1 | .max => 2 | .minu => 3 | .maxu => 4 | .swap => 5 | _ => 6

/-- The S slot; `fr` is the draw of its free values. -/
def State.evalS (s : State) (n : Nat) (op : SOp) (env : Surround) (fr : Nat) : SlotOut :=
  let k := s.core n
  match op with
  | .nop => .done s {}
  | .illegal => .trap s 2 0
  | .r op rd rs1 rs2 rs3 =>
    .done s { sw := [(rd.toNat, rResult op (k.s rs1) (k.s rs2) (k.s rs3) (Config.free fr 0).toNat)] }
  | .i op rd rs1 imm => .done s { sw := [(rd.toNat, iResult op (k.s rs1) imm)] }
  | .li rd imm => .done s { sw := [(rd.toNat, imm.signExtend 64)] }
  | .lih rd imm => .done s { sw := [(rd.toNat, (imm.extractLsb' 0 16) ++ (k.s rd).extractLsb' 0 48)] }
  | .lds rd rs1 size sx off =>
    let a := k.ea rs1 off
    let n' := 2 ^ size.toNat
    match scrFault a n' with
    | some c => .trap s c a
    | none => .done s { sw := [(rd.toNat, extendLoad size sx (k.scrRead a n'))] }
  | .sts rs2 rs1 size _ off =>
    let a := k.ea rs1 off
    match scrFault a (2 ^ size.toNat) with
    | some c => .trap s c a
    | none => .done s { st := [(a, storeBytes (k.s rs2) size)] }
  | .ldu rd rs1 size sx off =>
    let a := k.ea rs1 off
    match uniFault a (2 ^ size.toNat) with
    | some c => .trap s c a
    | none =>
      match s.coreXlat n a 1 with
      | (.wait, s) => .wait s
      | (.fail, s) => .trap s 5 a
      | (.ok e, s) => s.lduSend n rd size sx a e env.mem
  | .stu rs2 rs1 size _ off =>
    let a := k.ea rs1 off
    match uniFault a (2 ^ size.toNat) with
    | some c => .trap s c a
    | none =>
      match s.coreXlat n a 2 with
      | (.wait, s) => .wait s
      | (.fail, s) => .trap s 5 a
      | (.ok e, s) =>
        let bs := storeBytes (k.s rs2) size
        if s.held? (s.ctxOf n) (a / 65536) then .wait s
        else .done s { after := fun s => (s.leafWrite (s.ctxOf n) e a bs).modCore n fun k => k.dcacheWrite a bs }
  | .rdgauge rd index => .done s { sw := [(rd.toNat, BitVec.ofNat 64 (s.userGauge n index.toNat))] }
  | .rdtick rd _ _ _ => .done s { sw := [(rd.toNat, BitVec.ofNat 64 s.tick)] }
  | .ldn rd rs1 size sx off =>
    let a := k.nodeEa rs1 off
    s.nodeSlot n 1 0 true size.toNat sx rd a.1 a.2 []
  | .stn rs2 rs1 size _ off =>
    let a := k.nodeEa rs1 off
    s.nodeSlot n 2 0 false size.toNat false 0#5 a.1 a.2 (storeBytes (k.s rs2) size)
  | .amo rd rs1 rs2 rs3 aop ret =>
    let a := k.nodeEa rs1 0#32
    s.nodeSlot n 3 (amoCode aop) ret 3 false rd a.1 a.2
      (bytesOf (k.s rs2) ++ if aop = .cas then bytesOf (k.s rs3) else [])
  | .iflush _ _ _ _ => .done s { after := fun s => s.modCore n fun k => { k with icache := [], itlb := [] } }
  | .dinv _ rs1 rs2 =>
    .done s { after := fun s => s.modCore n fun k' => k'.dinv (k.s rs1).toNat (k.s rs2).toNat }
  | .rdtag rd _ imm => .done s { sw := [(rd.toNat, (k.tag (imm.toNat % 64)).word)] }

/-! ### The B slot (R86) -/

/-- PC + OFF × 64. -/
def jumpTo {w : Nat} (pc : BitVec 48) (off : BitVec w) : BitVec 48 := pc + BitVec.ofInt 48 (off.toInt * 64)

/-- The bundle after the one at the PC. -/
def nextPc (pc : BitVec 48) : BitVec 48 := pc + 64#48

def linkValue (pc : BitVec 48) : Word64 := (nextPc pc).setWidth 64

/-- `LEND`: the loop register, and where execution continues. -/
def lendStep (l : LoopReg) (pc : BitVec 48) : LoopReg × BitVec 48 :=
  if 1 < l.count.toNat then ({ l with count := l.count - 1#32 }, l.start) else ({ l with count := 0#32 }, nextPc pc)

/-- `LOOP`: the loop register. -/
def loopSet (pc : BitVec 48) (count : Word64) (len : BitVec 17) : LoopReg :=
  ⟨count.setWidth 32, nextPc pc, pc + BitVec.ofNat 48 (len.toNat * 64)⟩

/-- A tag whose bit is 1 is BUSY. -/
def Core.tagsBusy (k : Core) (mask : Word64) : Bool := k.tags.any fun t => t.2.busy && mask.getLsbD t.1

/-- The B slot. -/
def State.evalB (s : State) (n : Nat) (op : BOp) : SlotOut :=
  let k := s.core n
  match op with
  | .nop => .done s {}
  | .illegal => .trap s 2 0
  | .bc c rs1 rs2 off =>
    let t := bHolds c (k.s rs1) (k.s rs2)
    .done s { pc := if t then some (jumpTo k.pc off) else none, taken := some t }
  | .j off => .done s { pc := some (jumpTo k.pc off) }
  | .call off => .done s { pc := some (jumpTo k.pc off), sw := [(31, linkValue k.pc)], push := some (nextPc k.pc) }
  | .jr rs1 => .done s { pc := some (bundleAddr (k.s rs1)) }
  | .callr rs1 => .done s { pc := some (bundleAddr (k.s rs1)), sw := [(31, linkValue k.pc)], push := some (nextPc k.pc) }
  | .ret => .done s { pc := some (bundleAddr (k.s 31#5)), pop := true }
  | .loop lc rs1 len =>
    let l := loopSet k.pc (k.s rs1) len
    .done s { lw := [(lc.toNat, l)], pc := if l.count = 0#32 then some (nextPc l.stop) else none }
  | .lend lc =>
    let r := lendStep (k.lc lc) k.pc
    .done s { lw := [(lc.toNat, r.1)], pc := some r.2 }
  | .wait rs1 => if k.tagsBusy (k.s rs1) then .wait s else .done s {}
  | .halt _ => .done s { stops := 1 }
  | .brk _ => if s.coreScope n then .done s { stops := 2 } else .trap s 7 0

/-! ### The V slots (R87, R88) -/

/-- s(VA) + IMM modulo 2^64. -/
def Core.vEa (k : Core) (f : VFields) : Nat := (k.s f.va + sx32 f.imm).toNat

/-- The address check of `VLD` and `VST`. -/
def vFault (a : Nat) : Option Nat := if a % 64 ≠ 0 then some 3 else if scrSize < a + 256 then some 4 else none

/-- The second source: a vector register, or a scalar given to every lane. -/
def Core.vB (k : Core) (f : VFields) : BitVec 2048 :=
  if f.sb then ofLanes f.ty.toNat fun _ => (k.s f.vb).toNat else k.v f.vb

/-- The bytes `VST` writes: all of them, or those whose mask bit is 1. -/
def vStores (a : Nat) (data : BitVec 2048) (m : Option (BitVec 256)) : List (Nat × List Byte) :=
  let bs := leBytes data.toNat 256
  match m with
  | none => [(a, bs)]
  | some m => (List.range 256).filterMap fun i => if m.getLsbD i then some (a + i, (bs.drop i).take 1) else none

/-- A mask register named by five bits. -/
def Core.mAt (k : Core) (r : BitVec 5) : BitVec 256 := k.m (r.setWidth 3)

/-- A V slot. -/
def State.evalV (s : State) (n : Nat) (op : VOp) (fr : Nat) : SlotOut :=
  let k := s.core n
  match op with
  | .nop => .done s {}
  | .illegal => .trap s 2 0
  | .op code f =>
    let m := k.m f.msk
    let free := fun i => (Config.free fr i).toNat
    match code with
    | .mand | .mor | .mxor | .mnot =>
      .done s { mw := [((f.vd.setWidth 3).toNat, maskOp code (k.mAt f.va) (k.mAt f.vb))] }
    | .vceq | .vclt | .vcle =>
      .done s { mw := [((f.vd.setWidth 3).toNat, cmpMask code f (k.v f.va) (k.vB f) (k.mAt f.vd) m)] }
    | .vrsum | .vrmax | .vrmin => .done s { sw := [(f.vd.toNat, vReduce code f.ty.toNat (k.v f.va) m free)] }
    | .vst =>
      let a := k.vEa f
      match vFault a with
      | some c => .trap s c a
      | none => .done s { st := vStores a (k.v f.vc) (if f.msk = 0#3 then none else some m) }
    | .vld =>
      let a := k.vEa f
      match vFault a with
      | some c => .trap s c a
      | none =>
        .done s { vw := [(f.vd.toNat, vResult code f (k.v f.va) (k.vB f) (k.v f.vc) (k.v f.vd) m (k.s f.va)
          (k.scrRead a 256) free)] }
    | _ =>
      .done s { vw := [(f.vd.toNat, vResult code f (k.v f.va) (k.vB f) (k.v f.vc) (k.v f.vd) m (k.s f.va) [] free)] }

/-! ### The M slot (R91, R113) -/

/-- The mode in which a command issued now will run. -/
def Core.mxMode (k : Core) : Nat := modeAfter k.engine.mode k.engine.queue

/-- The M slot: a command passes its bounds check and enters the queue. -/
def State.evalM (s : State) (n : Nat) (op : MOp) : SlotOut :=
  match op with
  | .nop => .done s {}
  | .illegal => .trap s 2 0
  | op =>
    let k := s.core n
    match beyond (mSpans op k.mxMode) with
    | some a => .trap s 4 a
    | none => .done s { after := fun s => s.modCore n fun k => { k with engine := { k.engine with queue := k.engine.queue ++ [op] } } }

/-! ### The X slot (R89-R91) -/

/-- Translations of a range of the unified range by a core. -/
inductive RangeXlat where
  | ok (es : List Nat)
  | wait
  | fail (addr : Nat)
  deriving DecidableEq, Repr

/-- Translates every subpage a range touches (R89). -/
def State.rangeXlat (s : State) (n va len need : Nat) : RangeXlat × State :=
  (pieces va (len / 65536 + 2) len).foldl
    (fun (acc : RangeXlat × State) p =>
      match acc.1 with
      | .ok es =>
        match acc.2.coreXlat n p.1 need with
        | (.ok e, s) => if s.held? (s.ctxOf n) (p.1 / 65536) then (.wait, s) else (.ok (es ++ [e]), s)
        | (.wait, s) => (.wait, s)
        | (.fail, s) => (.fail p.1, s)
      | _ => acc)
    (.ok [], s)

/-- Bytes of a range by its leaf entries; the pieces in T3 are taken, in order, from what T3 answers. None where T3
has not given enough. -/
def State.rangeRead (s : State) (c va len : Nat) (es : List Nat) (far : List Byte) : Option (List Byte) × State :=
  let r := ((pieces va (len / 65536 + 2) len).zip es).foldl
    (fun (acc : Option (List Byte) × List Byte × State) p =>
      match acc.1 with
      | none => acc
      | some bs =>
        if 2 ≤ leafTier p.2 then
          if acc.2.1.length < p.1.2 then (none, acc.2)
          else (some (bs ++ acc.2.1.take p.1.2), acc.2.1.drop p.1.2, acc.2.2)
        else
          (some (bs ++ acc.2.2.physRead (leafTier p.2) (leafLoc p.2) p.1.1 p.1.2), acc.2.1,
            if leafTier p.2 = 1 then acc.2.2.hbmBytes c p.1.2 else acc.2.2))
    (some [], far, s)
  (r.1, r.2.2)

/-- Writes a range by its leaf entries. -/
def State.rangeWrite (s : State) (c va : Nat) (bs : List Byte) (es : List Nat) : State :=
  ((pieces va (bs.length / 65536 + 2) bs.length).zip es).foldl
    (fun s p => s.leafWrite c p.2 p.1.1 ((bs.drop (p.1.1 - va)).take p.1.2)) s

/-- Asks T3 for the pieces of a range that lie there. -/
def State.rangeAsk (s : State) (c va len : Nat) (es : List Nat) : State :=
  ((pieces va (len / 65536 + 2) len).zip es).foldl
    (fun s p => if 2 ≤ leafTier p.2 then s.farAsk c (leafTier p.2) (leafLoc p.2) (p.1.1 % 65536) p.1.2 else s) s

/-- A message descriptor (R384). -/
structure MsgDesc where
  op : Nat
  unified : Bool
  index : Nat
  len : Nat
  laddr : Nat
  roff : Nat
  deriving DecidableEq, Repr

def msgDesc (bs : List Byte) : MsgDesc :=
  let w0 := wordAt bs 0 4
  ⟨field w0 0 2, bit w0 2, field w0 3 8, field (wordAt bs 4 4) 0 25, field (wordAt bs 8 8) 0 48, field (wordAt bs 16 8) 0 40⟩

/-- The descriptor holds no reserved value. -/
def msgDescOk (bs : List Byte) : Bool :=
  let w0 := wordAt bs 0 4
  let len := wordAt bs 4 4
  decide (field w0 0 2 ≠ 0) && decide (field w0 11 21 = 0) && decide (1 ≤ len ∧ len ≤ 2 ^ 24) &&
    decide (field (wordAt bs 8 8) 48 16 = 0) && decide (field (wordAt bs 16 8) 40 24 = 0) && decide (wordAt bs 24 8 = 0) &&
    decide (field (wordAt bs 32 4) 5 26 = 0) && (bs.drop 36).all fun b => decide (b = 0#8)

/-- The descriptor in the scratchpad that an operation names, if it names one. -/
def Core.xDesc (k : Core) : XOp → List Byte
  | .awalk _ desc _ => k.scrRead (desc.toNat * 64) 64
  | .msg _ desc => k.scrRead (desc.toNat * 64) 64
  | _ => []

/-- Scratchpad spans of an X-slot operation, in field order: first byte and length. -/
def Core.xSpans (k : Core) (op : XOp) : List (Nat × Nat) :=
  match op with
  | .xfer _ _ _ saddr len => [(saddr.toNat * 64, len.toNat * 64)]
  | .scopy _ src dst len => [(src.toNat * 64, len.toNat * 64), (dst.toNat * 64, len.toNat * 64)]
  | .assay _ nsrc rsrc _ _ _ => [(nsrc.toNat * 64, 1024), (rsrc.toNat * 64, 1024)]
  | .asel _ dst _ _ => [(dst.toNat * 64, 64)]
  | .awalk _ desc dst =>
    let d := walkDesc (k.xDesc op)
    (desc.toNat * 64, 64) :: (if desc.toNat < 12288 then [(dst.toNat * 64, d.npages * 65536 + 64), (d.qvec * 64, 256)] else [])
  | .rkpost _ src _ _ _ _ countM1 => [(src.toNat * 64, (countM1.toNat + 1) * 256)]
  | .bsend _ src _ _ _ count _ => [(src.toNat * 64, count.toNat * 64)]
  | .bwait _ dst _ _ _ _ => [(dst.toNat * 64, 64)]
  | .xsamp _ desc dst => [(desc.toNat * 64, 64), (dst.toNat * 64, 64)]
  | .msg _ desc =>
    let d := msgDesc (k.xDesc op)
    (desc.toNat * 64, 64) :: (if desc.toNat < 12288 ∧ d.unified = false then [(d.laddr, d.len)] else [])
  | .gsnap _ dst => [(dst.toNat * 64, 128)]
  | _ => []

/-- A descriptor in the scratchpad uses a reserved encoding (R142, R237, R384). -/
def Core.xReserved (k : Core) (op : XOp) : Bool :=
  match op with
  | .awalk _ desc _ => decide (desc.toNat < 12288) && !walkDescOk (k.xDesc op)
  | .msg _ desc => decide (desc.toNat < 12288) && !msgDescOk (k.xDesc op)
  | _ => false

/-- The tag an operation names. -/
def xTag : XOp → Option Nat
  | .nop | .illegal => none
  | .xfer t _ _ _ _ | .scopy t _ _ _ | .assay t _ _ _ _ _ | .asel t _ _ _ | .lmark t _ | .lwait t _ | .awalk t _ _
  | .rkpost t _ _ _ _ _ _ | .bsend t _ _ _ _ _ _ | .bwait t _ _ _ _ _ | .bret t _ _ | .xsamp t _ _ | .msg t _
  | .gsnap t _ => some t.toNat

/-- Operations of a core of the kinds `p`. -/
def Core.xCount (k : Core) (p : Nat → Bool) : Nat := (k.xops.filter fun x => p x.kind).length

/-- The units' limits per core and die make an operation wait at D2 (R144, R239, R264, R323). -/
def State.xLimited (s : State) (n : Nat) (op : XOp) : Bool :=
  let k := s.core n
  match op with
  | .assay _ _ _ _ _ _ => s.assayWaits n
  | .awalk _ _ _ => decide (2 ≤ k.xCount fun x => decide (x = 0x48))
  | .bsend _ _ _ _ _ _ _ | .bwait _ _ _ _ _ _ | .bret _ _ _ =>
    decide (4 ≤ k.xCount fun x => decide (x = 0x4C ∨ x = 0x4D ∨ x = 0x4E))
  | .xsamp _ _ _ => decide (4 ≤ k.xsamps.length) || decide (16 ≤ s.xsampsOn (dieOf n))
  | _ => false

/-- `X_LMARK`: the first mark of a layer in a step starts staging the layers that it leads (R193). -/
def State.xLmark (s : State) (n tag layer : Nat) : State :=
  let c := s.ctxOf n
  let count := s.fld R.SLUICE_LST_COUNT.COUNT c
  let s := s.xDone n tag
  let m := (s.ctx c).member
  if layer < count ∧ m.active = true ∧ m.marked.contains layer = false then
    let s := s.modCtx c fun x => { x with layer := layer, member := { m with marked := m.marked ++ [layer] } }
    (List.range count).foldl (fun s l =>
      if (l + 256 * count - ((s.ctx c).layerSched l).lead) % count = layer then s.stageLayer c l else s) s
  else s

/-- `X_LWAIT`: it waits, unless the layer lies outside the schedule (R193). -/
def State.xLwait (s : State) (n tag layer : Nat) : State :=
  if s.fld R.SLUICE_LST_COUNT.COUNT (s.ctxOf n) ≤ layer then s.xDone n tag
  else s.xPend n (XPend.mk' tag 0x45 layer 0 0 0)

/-- The status with which a message ends at its source before it is sent (R368, R371). -/
def State.msgSource (s : State) (c : Nat) (d : MsgDesc) : Nat :=
  let e := tget Import.none (s.ctx c).imports d.index
  if !e.v || !s.on R.MSG_CTRL.EN c then 2
  else if !(s.route e.node).v || decide ((s.route e.node).slice ≠ s.slice) then 1
  else if decide (d.op = 3) != e.queue || decide (d.op ≠ 3 ∧ e.size < d.roff + d.len) then 2
  else 0

/-- `X_MSG`: takes an identifier and sends its packets, or ends at once. `data` are the bytes of a PUT or SEND. -/
def State.xMsg (s : State) (n tag desc : Nat) (d : MsgDesc) (data : List Byte) : State :=
  let c := s.ctxOf n
  let e := tget Import.none (s.ctx c).imports d.index
  let ticket := s.rack.tickets + 1
  let s := ({ s with rack := { s.rack with tickets := ticket } } : State).xPend n (XPend.mk' tag 0x54 (desc * 64) ticket 0 0)
  let m : Message := { Message.none with
    ctx := c, core := n, tag := tag, desc := desc, op := d.op, node := e.node, region := e.region, key := e.key,
    roff := d.roff, unified := d.unified, laddr := d.laddr, data := data, len := d.len, note := ticket }
  let st := s.msgSource c d
  if st ≠ 0 then (s.msgCount m st false).msgToCore m st false
  else
    let r := s.issueMsg m
    if r.1 then r.2 else (r.2.msgCount m 1 false).msgToCore m 1 false

/-- Bytes of a PUT or SEND from the local buffer; an uncorrectable error ends the message with status DATA. -/
def State.msgLocal (s : State) (n : Nat) (d : MsgDesc) (es : List Nat) (far : List Byte) : List Byte × State :=
  if d.op = 2 then ([], s)
  else if d.unified then
    let r := s.rangeRead (s.ctxOf n) d.laddr d.len es far
    match r.1 with
    | some bs => (bs, r.2)
    | none => (freeBytes r.2.free d.len, { r.2 with free := r.2.free + 1 })
  else ((s.core n).scrRead d.laddr d.len, s)

/-- Dispatch of `X_MSG` at commit: what the check bits of its local read show comes first. -/
def State.msgDispatch (s : State) (n tag desc : Nat) (d : MsgDesc) (es : List Nat) (env : Surround) : State :=
  if d.op ≠ 2 ∧ d.unified = true ∧ isUe env.mem = true then
    let s := match es.head? with
      | some e => if leafTier e < 2 then s.lineEcc (leafTier e) (leafLoc e) (d.laddr % 65536) env.mem else s
      | none => s
    let s := s.xPend n (XPend.mk' tag 0x54 (desc * 64) (s.rack.tickets + 1) 0 0)
    let m : Message := { Message.none with ctx := s.ctxOf n, core := n, tag := tag, desc := desc, note := s.rack.tickets + 1 }
    (({ s with rack := { s.rack with tickets := s.rack.tickets + 1 } } : State).msgCount m 8 false).msgToCore m 8 false
  else
    let b := s.msgLocal n d es env.far
    b.2.xMsg n tag desc d b.1

/-- What an X-slot operation does at its dispatch. -/
def State.xDispatch (s : State) (n : Nat) (op : XOp) (d : MsgDesc) (es : List Nat) (va : Nat) (env : Surround) : State :=
  match op with
  | .nop | .illegal => s
  | .xfer tag toUnified _ saddr len =>
    let s := s.xPend n { XPend.mk' tag.toNat 0x30 va (saddr.toNat * 64) (len.toNat * 64) (b2n toUnified) with sel := es }
    if toUnified then s else s.rangeAsk (s.ctxOf n) va (len.toNat * 64) es
  | .scopy tag src dst len => s.xPend n (XPend.mk' tag.toNat 0x31 (src.toNat * 64) (dst.toNat * 64) (len.toNat * 64) 0)
  | .assay tag nsrc rsrc rowsM1 layer ord => s.xAssay n tag.toNat nsrc.toNat rsrc.toNat rowsM1.toNat layer.toNat ord.toNat
  | .asel tag dst layer obase => s.xAsel n tag.toNat dst.toNat layer.toNat obase.toNat
  | .lmark tag layer => s.xLmark n tag.toNat layer.toNat
  | .lwait tag layer => s.xLwait n tag.toNat layer.toNat
  | .awalk tag desc dst => s.xPend n (XPend.mk' tag.toNat 0x48 (desc.toNat * 64) (dst.toNat * 64) 0 0)
  | .rkpost tag src slot gen pair pos countM1 =>
    s.xRkpost n tag.toNat src.toNat slot.toNat gen.toNat pair.toNat pos.toNat (countM1.toNat + 1)
  | .bsend tag src layer half rowbase count total =>
    s.xBsend n tag.toNat src.toNat layer.toNat half rowbase.toNat count.toNat total.toNat
  | .bwait tag dst layer half side host => s.xBwait n tag.toNat dst.toNat layer.toNat half side host.toNat
  | .bret tag host half => s.xBret n tag.toNat host.toNat half env.far
  | .xsamp tag desc dst => s.xXsamp n tag.toNat desc.toNat dst.toNat
  | .msg tag desc => s.msgDispatch n tag.toNat desc.toNat d es env
  | .gsnap tag dst => s.xGsnap n tag.toNat dst.toNat

/-- The unified range an operation names: address, length and the permission it needs. -/
def Core.xRange (k : Core) (op : XOp) : Option (Nat × Nat × Nat) :=
  match op with
  | .xfer _ toUnified rs _ len => some ((k.s rs).toNat, len.toNat * 64, if toUnified then 2 else 1)
  | .msg _ _ =>
    let d := msgDesc (k.xDesc op)
    if d.unified then some (d.laddr, d.len, if d.op = 2 then 2 else 1) else none
  | _ => none

/-- The X slot: bounds, then translation, then dispatch at CM. -/
def State.evalX (s : State) (n : Nat) (op : XOp) (env : Surround) : SlotOut :=
  let k := s.core n
  match op with
  | .nop => .done s {}
  | .illegal => .trap s 2 0
  | op =>
    let d := msgDesc (k.xDesc op)
    let misaligned := match op with
      | .xfer _ _ rs _ _ => decide ((k.s rs).toNat % 64 ≠ 0)
      | _ => false
    match beyond (k.xSpans op), k.xRange op with
    | some a, r => if misaligned then .trap s 3 ((r.map Prod.fst).getD 0) else .trap s 4 a
    | none, none => .done s { after := fun s => s.xDispatch n op d [] 0 env }
    | none, some (va, len, need) =>
      if misaligned then .trap s 3 va
      else
        match s.rangeXlat n va len need with
        | (.wait, s) => .wait s
        | (.fail a, s) => .trap s 5 a
        | (.ok es, s) => .done s { after := fun s => s.xDispatch n op d es va env }

end Sys2Proof.Machine
end

