-- ==== Sys2Proof/Machine/LinkOps.lean ====
section
/-! DEFINITION. Machine/LinkOps.lean: the states of a link, its plan, its identity and the transit queries
(R16, R17, R337-R344, R350, R351, R361; 13_optical_fabric_and_slices.md). -/
namespace Sys2Proof.Machine

/-- Link k is enabled by its bit of `LINK_EN`. -/
def State.linkEnabled (s : State) (k : Nat) : Bool := bit (s.fld R.LINK_EN.EN (k / 16)) (k % 16)

def linkUnit (k : Nat) : Raiser := .page .link (k / 16)

/-- Pound-mates and links to each mate of a plan (R342). -/
def planShape : Nat → Nat × Nat
  | 0 => (7, 3) | 1 => (7, 2) | 2 => (7, 4) | _ => (3, 5)

/-- Link k's number among the pound links, were it one (R343). -/
def poundNumber (k : Nat) : Nat := if k < 16 then 2 * k else 2 * (k - 16) + 1

/-- Link k is a plane link under a plan (R343). -/
def isPlaneLink (plan k : Nat) : Bool := decide ((planShape plan).1 * (planShape plan).2 ≤ poundNumber k)

/-- Bytes 8-31 of this module's IDENT on a link (R351). -/
def State.identBytes (s : State) (k : Nat) : List Byte :=
  let plan := s.power.startPlan
  leBytes s.node 2 ++ leBytes s.slice 1 ++
    leBytes (s.fld R.LINK_PLAN.MEMBER + 8 * b2n (isPlaneLink plan k) + 16 * plan) 1 ++
    leBytes k 1 ++ leBytes (s.fld R.LOCK_SELF.CFGGEN) 1 ++ List.replicate 18 0

/-- Light may be emitted on link k: its laser source is seated and its fibre array mated (R16, R17), and neither a
halt (R511) nor a thermal trip (R445) stops transmission. -/
def State.lightAllowed (s : State) (k : Nat) : Bool :=
  bit s.board.els (k / 16) && bit s.board.fibre (k / 16) && !s.haltBegun && !s.board.tripHalting &&
    !s.board.thermTrip && !s.power.stopped

/-- Link k enters TRAINING: credits and sequence numbers are initialised (R338, R347). -/
def State.trainLink (s : State) (k : Nat) : State :=
  if s.linkEnabled k && s.lightAllowed k then
    let s := (s.setLink k 1).setFld R.LINK_STATE.LIGHT (k / 16) (k % 16) 0
    s.setLinkLayer k { LinkLayer.reset with downs := (s.linkLayer k).downs }
  else s

/-- Drops the pins of a link and the yes-answers held on it (R351, R361). -/
def State.releasePins (s : State) (k : Nat) : State :=
  { s with fabric := { s.fabric with
    pins := s.fabric.pins.filter fun p => decide (p.1 ≠ k)
    granted := s.fabric.granted.filter fun g => decide (g.link ≠ k)
    queries := s.fabric.queries.filter fun q => decide (q.link ≠ k) } }

/-- TICKs in 60 s (R341). -/
def minuteTicks : Nat := 6000000000

/-- Link k goes DOWN with a cause (R339-R341): it leaves the routing masks, its pins fall, packets queued for it are
looked up again, and the eighth time within 60 s it is HELD. -/
def State.linkDown (s : State) (k cause : Nat) : State :=
  let st := s.linkState k
  if st = 1 ∨ st = 2 ∨ st = 3 then
    let l := s.linkLayer k
    let s := (s.setLink k 4).setFld R.LINK_STATE.DOWN_CAUSE (k / 16) (k % 16) cause
    let downs := (s.tick :: l.downs).take 8
    let s := (s.releasePins k).setLinkLayer k { LinkLayer.reset with downs := downs }
    let s := s.bumpAt R.LINK_DOWNS.COUNT (k / 16) (k % 16)
    let s := s.raise (linkUnit k) none 0x2402 (w4 [k, cause])
    let s := if downs.length = 8 ∧ s.tick < downs[7]?.getD 0 + minuteTicks then
        (s.setLink k 5).raise (linkUnit k) none 0x2403 (w4 [k])
      else s
    l.waiting.foldl (fun s p => s.forward p) s
  else s

/-- A detector of this module fires: for causes 5-8 a DOWN_NOTICE goes to the peer first (R351). -/
def State.linkLost (s : State) (k cause : Nat) : State :=
  let st := s.linkState k
  let s := if 5 ≤ cause ∧ (st = 1 ∨ st = 2 ∨ st = 3) then s.emit (.ctl k 0xF1 (0 :: leBytes cause 1 ++ List.replicate 22 0)) else s
  s.linkDown k cause

/-- Link k is disabled: it goes DOWN with cause 8 and reads DISABLED (R337, R339). -/
def State.linkDisable (s : State) (k : Nat) : State := (s.linkLost k 8).setLink k 0

/-- A link reset: the link goes DOWN with cause 7, `LINK_STATE` and `LINK_PEER` return to their reset values, and an
enabled link trains at once (R62, R341, R366). -/
def State.linkReset (s : State) (k : Nat) : State :=
  let s := s.linkLost k 7
  let s := ((s.setLink k 0).setFld R.LINK_STATE.LIGHT (k / 16) (k % 16) 0).setFld R.LINK_STATE.DOWN_CAUSE (k / 16) (k % 16) 0
  let s := [R.LINK_PEER.NODE, R.LINK_PEER.SLICE, R.LINK_PEER.MEMBER, R.LINK_PEER.PLANE, R.LINK_PEER.PEER_LINK,
    R.LINK_PEER.VALID].foldl (fun s f => s.setFld f (k / 16) (k % 16) 0) s
  (s.releasePins k).trainLink k

/-- The identity of a link's peer, as its IDENT gives it (R351). -/
structure Ident where
  node : Nat
  slice : Nat
  member : Nat
  plane : Bool
  plan : Nat
  link : Nat
  deriving DecidableEq, Repr

/-- Writes `LINK_PEER[k]`. -/
def State.setPeer (s : State) (k : Nat) (p : Ident) : State :=
  let s := (s.setFld R.LINK_PEER.NODE (k / 16) (k % 16) p.node).setFld R.LINK_PEER.SLICE (k / 16) (k % 16) p.slice
  let s := (s.setFld R.LINK_PEER.MEMBER (k / 16) (k % 16) p.member).setFld R.LINK_PEER.PLANE (k / 16) (k % 16) (b2n p.plane)
  (s.setFld R.LINK_PEER.PEER_LINK (k / 16) (k % 16) p.link).setFld R.LINK_PEER.VALID (k / 16) (k % 16) 1

def State.peerNode (s : State) (k : Nat) : Nat := s.fld R.LINK_PEER.NODE (k / 16) (k % 16)
def State.peerSlice (s : State) (k : Nat) : Nat := s.fld R.LINK_PEER.SLICE (k / 16) (k % 16)
def State.peerPlane (s : State) (k : Nat) : Bool := s.on R.LINK_PEER.PLANE (k / 16) (k % 16)
def State.peerValid (s : State) (k : Nat) : Bool := s.on R.LINK_PEER.VALID (k / 16) (k % 16)

/-- A link expectation word with V = 1 differs from a peer (R338, R360). -/
def expectDiffers (word node : Nat) (plane : Bool) : Bool :=
  bit word 13 && (decide (field word 0 12 ≠ node) || (bit word 12 != plane))

/-- The peer contradicts the plan or the Lock (R338). -/
def State.miscabled (s : State) (k : Nat) (p : Ident) : Bool :=
  let plan := s.power.startPlan
  decide (p.plan ≠ plan) || (isPlaneLink plan k != p.plane) ||
    expectDiffers (s.fabric.expects[k]?.getD 0) p.node p.plane

/-! ### Transit queries (R361) -/

/-- Nodes whose entry uses port k through a transit mask. -/
def transitNodes (routes : Table Route) (k : Nat) : List Nat :=
  routes.filterMap fun e =>
    if e.2.v && ((e.2.priTransit && bit e.2.pri k) || (e.2.altTransit && bit e.2.alt k)) then some e.1 else none

/-- Ascending nodes as ranges of neighbours. -/
def nodeRanges : List Nat → List (Nat × Nat)
  | [] => []
  | n :: t =>
    match nodeRanges t with
    | (lo, hi) :: r => if lo = n + 1 then (n, hi) :: r else (n, n) :: (lo, hi) :: r
    | [] => [(n, n)]

/-- Groups of at most sixteen ranges, the most one query carries (R351). -/
def groups16 : Nat → List (Nat × Nat) → List (List (Nat × Nat))
  | 0, _ => []
  | fuel + 1, l => if l.isEmpty then [] else l.take 16 :: groups16 fuel (l.drop 16)

/-- Sends the transit queries of port k for a set of routes and a slice; `load` marks those of a configuration being
loaded. -/
def State.queryPort (s : State) (routes : Table Route) (slice k : Nat) (load : Bool) : State :=
  let ranges := nodeRanges (transitNodes routes k)
  (groups16 ranges.length ranges).foldl (fun (s : State) (g : List (Nat × Nat)) =>
    let qid := s.fabric.nextQid
    let s := { s with fabric := { s.fabric with
      nextQid := (qid + 1) % 65536
      queries := s.fabric.queries ++ [(⟨k, qid, slice, g, none, load⟩ : Query)] } }
    s.emit (.ctl k 0xF2 (leBytes qid 2 ++ leBytes slice 1 ++ leBytes g.length 1 ++ List.replicate 20 0 ++
      g.flatMap fun (r : Nat × Nat) => leBytes (r.1 + 2 ^ 16 * r.2) 4))) s

/-- A link finishes training: it goes UP or MISCABLED with its peer recorded; an UP link that transit entries use is
queried at once (R338, R361). -/
def State.linkTrained (s : State) (k light : Nat) (p : Ident) : State :=
  let s := s.emit (.ctl k 0xF0 (s.identBytes k))
  let v := if s.miscabled k p then 3 else linkUp
  let s := (s.setLink k v).setFld R.LINK_STATE.LIGHT (k / 16) (k % 16) light
  let s := s.setPeer k p
  let s := s.raise (linkUnit k) none 0x0401 (w4 [k, p.node, v])
  if v = linkUp ∧ s.slice ≠ 0 then s.queryPort s.fabric.routes s.slice k false else s

end Sys2Proof.Machine
end

