-- ==== Sys2Proof/Machine/WeirOps.lean ====
section
/-! DEFINITION. Machine/WeirOps.lean: limits, boost, the alert and coolant conditions and the heartbeat
(R51-R53, R435, R439-R446, R451; 17_weir_power_and_thermal.md). -/
namespace Sys2Proof.Machine

def pwrUnit : Raiser := .page .pwr 0
def thermUnit : Raiser := .page .therm 0

/-- The main domain runs: the Weir and the thermal limits act (R443). -/
def State.mainRuns (s : State) : Bool := s.board.mainOn && !s.power.inReset

/-- The alert cap applies: `CAP_ALERT_L`, or SAG (R435). -/
def State.alertOn (s : State) : Bool := s.on R.PWR_STATUS.ALERT_PIN || s.on R.PWR_STATUS.SAG

/-- The limits that apply, in W, each with its bit: 0 cap and orphan cap, 1 alert cap, 2 coolant cap (R435). -/
def State.limits (s : State) : List (Nat × Nat) :=
  [(s.fld R.PWR_CAP.CAP, 0)] ++
  (if s.on R.PWR_STATUS.ORPHAN then [(s.fld R.PWR_ORPHAN.CAP, 0)] else []) ++
  (if s.alertOn then [(s.fld R.PWR_ALERT_CAP.CAP, 1)] else []) ++
  (if s.on R.THERM_STATUS.COOLANT then [(s.fld R.THERM_CFG.COOLANT_CAP, 2)] else [])

/-- The lowest limit that applies. -/
def State.limitNow (s : State) : Nat := s.limits.foldl (fun m l => min m l.1) (s.fld R.PWR_CAP.CAP)

/-- L at the next tick, in 0.1 W, and the limits it equals or rises from (R435): a fall at once, a rise of `PWR_SLEW`
per 100 µs. -/
def State.nextLimit (s : State) : Nat × Nat :=
  let target := 10 * s.limitNow
  let equal := bitMap 3 fun b => s.limits.any fun l => decide (10 * l.1 = target) && decide (l.2 = b)
  if target ≤ s.weir.lim then (target, equal)
  else
    let l := min target (s.weir.lim + s.fld R.PWR_SLEW.SLEW)
    (l, if l = target then equal else s.weir.governs)

/-- N of a die. -/
def State.weirN (s : State) (d : Nat) : Nat := s.fld R.WEIR_DIE.N 0 d

/-- Takes boost away from every die (R52). -/
def State.revokeBoost (s : State) : State := s.put R.CLK_STATUS.BOOST_ACTIVE 0 0

/-- G × Pest of the last tick, in W. -/
def State.estimate (s : State) : Nat := s.fld R.PWR_GAIN.G * s.weir.pest / 16384 / 1000

/-- Every condition of R51 for a die, and every N at 64 (R436). -/
def State.boostAllowed (s : State) (d : Nat) : Bool :=
  s.on R.CLK_CTRL.BOOST_EN && !s.on R.CLK_CTRL.FIXED_FREQ &&
    decide (s.fld R.PWR_GAIN.G * s.weir.pest + s.fld R.CLK_CTRL.BOOST_MARGIN * 1000 * 16384 ≤ s.weir.lim * 100 * 16384) &&
    decide (sext 12 (s.fld R.THERM_DIE.HOT 0 d) ≤ 680) && decide (s.fld R.PWR_STATUS.REASONS = 0) &&
    !s.on R.PWR_STATUS.ALERT_PIN && ((List.range 8).all fun e => decide (s.weirN e = 64)) && s.mainRuns && !s.haltBegun

/-- Revokes the boost of each die for which a condition fails (R52). -/
def State.checkBoost (s : State) : State :=
  s.put R.CLK_STATUS.BOOST_ACTIVE 0
    (bitMap 8 fun d => bit (s.fld R.CLK_STATUS.BOOST_ACTIVE) d && s.boostAllowed d)

/-- Posts a power-policy request where the duty is host-assisted (R451). Triggers: 0 period, 1 cap change, 2 alert
entered, 3 alert released. -/
def State.powerDuty (s : State) (trigger : Nat) : State :=
  if s.hostAssisted .weir 0 then
    s.dutyRequest 0 6 0
      (leBytes (s.weir.lim / 10) 2 ++ leBytes (s.fld R.PWR_CAP.CAP) 2 ++ leBytes (s.fld R.PWR_MEAS.MEAS) 2 ++
        leBytes s.estimate 2 ++ leBytes trigger 1 ++ leBytes (s.fld R.PWR_STATUS.REASONS) 1 ++ List.replicate 6 0 ++
        ((List.range 8).flatMap fun d => leBytes (s.weirN d) 1) ++
        ((List.range 8).flatMap fun d => leBytes (s.fld R.WEIR_DIE.I 0 d) 1) ++
        ((List.range 8).flatMap fun d => leBytes (twos 16 (sext 12 (s.fld R.THERM_DIE.HOT 0 d))) 2))
  else s

/-- A change of what asks for the alert cap: a duty request at the entry into ALERT and at the release (R451). -/
def State.alertDuty (s : State) (before : Bool) : State :=
  if s.alertOn && !before then s.powerDuty 2 else if before && !s.alertOn then s.powerDuty 3 else s

/-- `CAP_ALERT_L` is accepted asserted (R442): boost is revoked and every die is loaded with min(N, Nalert).
`EV_PWR_ALERT` is raised here, within its 20 µs. -/
def State.alertAssert (s : State) : State :=
  let before := s.alertOn
  let was := s.board.capAlert
  let s := { s with board := { s.board with capAlert := true } }
  if was || !s.mainRuns then s
  else
    let s := (s.put R.PWR_STATUS.ALERT_PIN 0 1).bump R.PWR_ALERTS.COUNT 0
    let s := s.revokeBoost
    let s := (List.range 8).foldl (fun s d =>
      let n := tget 0 s.weir.alert d
      if n = 0 then s else s.setFld R.WEIR_DIE.N 0 d (min (s.weirN d) (n - 1))) s
    (s.raise pwrUnit none 0x1604 (w4 [s.fld R.PWR_ALERT_CAP.CAP])).alertDuty before

/-- `CAP_ALERT_L` is accepted released: the alert cap leaves L at the next tick (R442). -/
def State.alertRelease (s : State) : State :=
  let before := s.alertOn
  let s := ({ s with board := { s.board with capAlert := false } } : State).put R.PWR_STATUS.ALERT_PIN 0 0
  s.alertDuty before

/-- Bits [4:2] of `THERM_STATUS`: 2 the pin, 3 the inlet, 4 the outlet. -/
def coolantBit : Nat → Fd
  | 2 => R.THERM_STATUS.COOLANT_PIN | 3 => R.THERM_STATUS.INLET_HIGH | _ => R.THERM_STATUS.OUTLET_HIGH

def State.coolantBits (s : State) : Nat :=
  s.fld R.THERM_STATUS.COOLANT_PIN + 2 * s.fld R.THERM_STATUS.INLET_HIGH + 4 * s.fld R.THERM_STATUS.OUTLET_HIGH

/-- A condition of R444 begins or clears while the main rails are on; the fault is entered with the first. -/
def State.coolantCondition (s : State) (b : Nat) (on : Bool) : State :=
  let s := if b = 2 then { s with board := { s.board with coolant := on } } else s
  if !s.mainRuns then s
  else
    let s := s.put (coolantBit b) 0 (b2n on)
    if on && !s.on R.THERM_STATUS.COOLANT then
      let s := s.put R.THERM_STATUS.COOLANT 0 1
      s.raise thermUnit none 0x1612 (w4 [s.coolantBits, s.fld R.THERM_COOLANT.INLET, s.fld R.THERM_COOLANT.OUTLET])
    else s

/-- A command that R440 accepts: detection is armed, and ORPHAN ends (R441). -/
def State.heartbeat (s : State) : State :=
  ({ s with weir := { s.weir with armed := s.weir.armed || s.on R.PWR_ORPHAN.EN } } : State).put R.PWR_STATUS.ORPHAN 0 0

/-- The cap is written, by LD0 (1) or over I3C (2) (R439). -/
def State.setCap (s : State) (cap src : Nat) : State :=
  let same := decide (s.fld R.PWR_CAP.CAP = cap) && decide (s.fld R.PWR_CAP.SRC = src)
  if same then s else
  let s := (s.put R.PWR_CAP.CAP 0 cap).put R.PWR_CAP.SRC 0 src
  (s.raise pwrUnit none 0x0602 (w4 [cap, src])).powerDuty 1

/-- The limit in mW/16384. -/
def limScaled (l : Nat) : Nat := l * (100 * 16384)

/-- G × Pest in mW/16384, or the measurement where it is larger while DIVERGED (R434). -/
def State.tickPower (s : State) (pe : Nat) : Nat :=
  if s.on R.PWR_STATUS.DIVERGED then max pe (s.fld R.PWR_MEAS.MEAS * (1000 * 16384)) else pe

/-- The power that the loop uses, in mW/16384, as the last tick left it (R436). -/
def State.loopPower (s : State) : Nat := s.tickPower (s.fld R.PWR_GAIN.G * s.weir.pest)

end Sys2Proof.Machine
end

