-- ==== Sys2Proof/Machine/ResetOps.lean ====
section
/-! DEFINITION. Machine/ResetOps.lean: the reset domains (R61-R66, R106, R110, R175, R206, R229, R247, R276, R284,
R316, R333, R390, R411, R429, R526; 02_clocks_reset_and_boot.md). -/
namespace Sys2Proof.Machine

/-- Keeps the fields whose address and lowest bit satisfy `keep`; the others return to their reset values. -/
def State.keepRegs (s : State) (keep : Nat → Nat → Bool) : State :=
  { s with
    regs := s.regs.filter fun e => keep (e.1 / 64) (e.1 % 64)
    errLatch := s.errLatch.filter fun e => keep (e.1 % 2 ^ 24) 0
    held := s.held.filter fun e => keep e.2.1 0
    latch := s.latch.filter fun e => keep e.2.1 0 }

/-- What lies in the management reset domain: the RST, BOOT, SEC and DBG pages, the FAULT page but for `FAULT_CTX` and
`FAULT_COUNT` (R518), the cap registers, ORPHAN and the trip latch (R441, R452). What RST and BOOT show of the main
domain's own progress starts over (R62, R70), a halt ends (R512), and every debug scope closes (R486). -/
def mgmtKeeps (a lo : Nat) : Bool :=
  (decide (0x2000 ≤ a ∧ a < 0x8000) && !decide (0x4000 ≤ a ∧ a < 0x5000) && !decide (0x5140 ≤ a ∧ a < 0x51A0) &&
    !decide (a = 0x2114 ∨ a = 0x2118) && !decide (a = 0x3100 ∧ lo < 12) && !decide (a = 0x5104 ∧ lo = 0) && !decide (a = 0x7100)) ||
  decide (0x9100 ≤ a ∧ a < 0x9110) || decide (a = 0x9114 ∧ lo = 5) ||
  (decide (a = 0xA108) && decide (lo = 0 ∨ lo = 5 ∨ lo = 8))

/-- Module state that a module reset returns to its reset value: everything outside the management domain (R62). -/
def State.moduleReset (s : State) : State :=
  let s := if s.fld R.DBG_SCOPE.SCOPES ≠ 0 then s.raise (.page .dbg 0) none 0x0712 [] else s
  let broken := decide (s.fld R.BOOT_MBOX_STATUS.STATE = 1) && s.power.running
  let k := s.keepRegs mgmtKeeps
  let k := if s.fld R.BOOT_MBOX_STATUS.STATE = 1 then k.put R.BOOT_MBOX_STATUS.STATE 0 0 else k
  let k := (k.put R.SEC_RESULT.BUSY 0 0).put R.DBG_STATUS.BUSY 0 0
  { State.reset with
    regs := k.regs
    errSeq := s.errSeq
    errLatch := k.errLatch
    held := k.held
    latch := k.latch
    board := s.board
    power := { Power.reset with flash := s.power.flash, flashBad := s.power.flashBad || broken }
    sec := { s.sec with stepping := [], lockImage := [], opening := none, token := [] }
    weir := { Weir.reset with armed := s.weir.armed }
    pending := s.pending
    out := s.out
    free := s.free }

/-- A management reset resets the management domain and, through it, the module domain; fuses and SPI flash, the
pins and the shutdown latch stay (R37, R62). -/
def State.mgmtReset (s : State) : State :=
  let m := s.moduleReset
  let fault := s.fld R.FAULT_STATUS.FAULT_L
  let m := ({ m with regs := [], errLatch := [], held := [], latch := [] } : State).put R.FAULT_STATUS.FAULT_L 0 fault
  { m with
    sec := { Security.reset with fuses := s.sec.fuses, certs := s.sec.certs }
    weir := Weir.reset
    board := { s.board with i3cAddr := none, mgmtFromRoot := false } }

/-- Eight freely drawn 32-bit words: a new nonce from the TRNG (R480). -/
def State.newNonce (s : State) : State :=
  (List.range 8).foldl (fun s i => let r := s.freeNat 32; r.2.setFld R.SEC_NONCE.NONCE 0 i r.1) s

/-! ### Contexts and logical devices -/

/-- A command completion (R407). -/
def cmdCqe (status cid handle tag : Nat) (done : Nat) : List Byte :=
  [1, BitVec.ofNat 8 status] ++ leBytes cid 2 ++ leBytes handle 4 ++ leBytes tag 8 ++ List.replicate 32 0 ++
    leBytes done 8 ++ List.replicate 8 0

/-- A register field that software writes: a context reset keeps it (R206, R255, R284, R316, R335, R391). -/
def rwField (p : Page) (off lo : Nat) : Bool :=
  (pageRegs p).any fun r =>
    decide (r.off ≤ off) && (if r.stride = 0 then decide (off = r.off) else
      decide ((off - r.off) % r.stride = 0) && decide ((off - r.off) / r.stride < r.count)) &&
    r.flds.any fun f => decide (f.lo = lo) && decide (f.acc = .rw)

/-- The context's pages from DUTY to MSG. -/
def ctxPages : List Page :=
  [.duty, .mani, .step, .toll, .xtal, .assay, .sluice, .xlat, .attn, .rake, .barge, .msf, .msg]

/-- What a context or LD reset keeps of the context's registers. -/
def ctxKeeps (ld : Bool) (c a lo : Nat) : Bool :=
  let base := 0x400000 + c * 0x10000
  if a < base ∨ base + 0x10000 ≤ a then true
  else
    let off := a % 0x1000
    match (a - base) / 0x1000 with
    | 0 => decide (0x100 ≤ off) || (decide (off = 8 ∧ lo = 2) && !ld)
    | 1 => !ld || decide (off = 0x104 ∧ lo = 0)
    | n =>
      match ctxPages[n - 2]? with
      | none => true
      | some p =>
        if off < 0x100 then decide (off = 8 ∧ lo = 2) && !ld
        else if p = .duty then
          if ld && decide (off = 0x100 ∨ (0x108 ≤ off ∧ off < 0x130)) then false
          else decide (off < 0x160) && !decide (off = 0x104)
        else if p = .xlat ∧ (off = 0x110 ∨ off = 0x128) then true
        else rwField p off lo

/-- A bucket that starts full (R316). -/
def Bucket.full (b : Bucket) : Bucket :=
  { b with depthNow := b.depth, level := (b.depth : Int) * 100000000, tokens := 0 }

/-- Stops the context's cores: RUNNING, TRAPPED and HALTED cores go READY, their unretired work, engines, tags and node
operations go (R81, R90, R106, R135, R378). -/
def State.resetCores (s : State) (c : Nat) : State :=
  (s.coresOf c).foldl (fun s n =>
    let st := s.coreState n
    let s := if st = coreRunning ∨ st = coreTrapped ∨ st = coreHalted then s.stopCore n coreReady else s
    (s.nextCoreGen n).modCore n fun k => { k.discard with engine := Engine.reset, tags := [], xops := [], src := .none }) s

/-- A live request ends with CONTEXT_RESET (R287). -/
def Entry.resetEnd (e : Entry) : Entry :=
  if e.state = 1 ∨ e.state = 2 then { e with state := 3, endCode := 8, cancel := false } else e

/-- The context's own state as a reset begins. -/
def Ctx.beginReset (x : Ctx) : Ctx :=
  { x with
    entries := x.entries.map fun e => (e.1, e.2.resetEnd)
    duties := []
    queue := []
    cmd := none
    posts := []
    member := Member.idle
    helm := { Helm.idle with refillAt := x.helm.refillAt } }

/-- Steps 1 and 2 of R65: requests end with CONTEXT_RESET, tokens in flight are dropped, engines stop, duty requests
are withdrawn, the update queue is discarded and barges begin to drain. -/
def State.beginCtxReset (s : State) (c : Nat) : State :=
  let s := (s.resetCores c).abandonBarges c
  let s := s.modCtx c Ctx.beginReset
  let s := { s with walks := s.walks.filter fun w => decide (w.ctx ≠ c) }
  let s := s.put R.STEP_STATUS.PHASE c 0
  let s := if s.fld R.RAKE_CMD_RESULT.BUSY c = 1 then (s.put R.RAKE_CMD_RESULT.BUSY c 0).put R.RAKE_CMD_RESULT.RESULT c 6 else s
  let s := if s.fld R.CTX_STATUS.STATE c = ctxActive then s.put R.CTX_STATUS.STATE c ctxQuiescing else s
  s.dutySync c

/-- The parts of an LD reset that a context reset has not: rings, doorbells, MSI-X, configuration space and the HDM
decoder (R411). -/
def State.ldParts (s : State) (n : Nat) : State :=
  let s := s.keepRegs (ctxKeeps true n)
  let s := s.put R.LD_STATUS.RESET_BUSY n 1
  let s := s.put R.RST_STATUS.LD 0 (setBit (s.fld R.RST_STATUS.LD) n)
  { s with
    wharf := { s.wharf with
      doorbells := tclear s.wharf.doorbells (4 * n) 4
      cmds := s.wharf.cmds.filter fun q => decide (q.ld ≠ n)
      evqLost := tset 0 s.wharf.evqLost n 0
      irqSince := tclear s.wharf.irqSince (4 * n) 4
      msixEn := clrBit s.wharf.msixEn n
      msixOpen := tclear s.wharf.msixOpen (64 * n) 64
      msixPend := tclear s.wharf.msixPend (64 * n) 64
      hdm := tset 0 s.wharf.hdm n 0
      aer := tset 0 s.wharf.aer n 0 }
    power := { s.power with heldDoorbells := s.power.heldDoorbells.filter fun d => decide (d.1 ≠ n) } }

/-- A request for a reset of LD n (domain 3) or context n (domain 4): it starts one, merges with one in progress, or
joins it (R59, R64). -/
def State.requestReset (s : State) (domain n : Nat) : State :=
  if s.power.inReset then s
  else if s.ldInReset n then s
  else if s.ctxInReset n then
    if domain = 3 then
      let s := s.ldParts n
      { s with resets := s.resets.map fun r =>
          if r.domain = 4 ∧ r.inst = n then { r with domain := 3, completions := false } else r }
    else s
  else
    let s := { s with resets := s.resets ++ [(⟨domain, n, false, decide (domain = 4)⟩ : ResetRec)] }
    let s := s.beginCtxReset n
    if domain = 3 then s.ldParts n else s

/-- Zeroes and frees every subpage of a context; the root and descriptor tables are emptied and stay in place
(R65, R175, R206, R229). -/
def State.releaseAll (s : State) (c : Nat) : State :=
  let s := s.basinUse.foldl (fun s e => if e.2.ctx = c then s.physZero 0 e.1 else s) s
  let s := s.hbmUse.foldl (fun s e => if e.2.ctx = c then s.physZero 1 e.1 else s) s
  { s with
    refs := s.refs.filter fun e => !(decide ((tget Use.none s.hbmUse e.1).ctx = c) &&
      decide ((tget Use.none s.hbmUse e.1).kind ≠ 0))
    basinUse := s.basinUse.filter fun e => decide (e.2.ctx ≠ c)
    hbmUse := s.hbmUse.filter fun e => decide (e.2.ctx ≠ c) || decide (e.2.kind = 5) }

/-- The context's state after a reset: what R65 and the chapters say is kept stays. -/
def Ctx.afterReset (x : Ctx) : Ctx :=
  { Ctx.reset with
    layers := x.layers, dirs := x.dirs, hosts := x.hosts, imports := x.imports, sched := x.sched
    tolls := x.tolls.map fun e => (e.1, e.2.full)
    remBusy := x.remBusy, remMac := x.remMac, remHbm := x.remHbm, remFabric := x.remFabric, remEnergy := x.remEnergy
    disabling := x.disabling
    entries := x.entries.filterMap fun e =>
      let g := if e.2.state = 0 then e.2.gen else (e.2.gen + 1) % 256
      if g = 0 then none else some (e.1, { Entry.none with gen := g }) }

/-- The drain of R65 step 3 ends: what is outstanding is abandoned, and steps 4-6 follow. -/
def State.endDrain (s : State) (r : ResetRec) : State :=
  let c := r.inst
  let s := s.abandonMsgs c fun _ => true
  let ended := (s.ctx c).entries.filter fun e => decide (e.2.state = 3) && decide (e.2.endCode = 8)
  let cmds := s.wharf.cmds.filter fun q => decide (q.ld = c)
  let s := (s.coresOf c).foldl (fun s n => (s.clearScr n).modCore n fun k => { k with clearing := true }) s
  let s := (s.releaseAll c).invalidateAll c
  let s := s.keepRegs (ctxKeeps (decide (r.domain = 3)) c)
  let s := s.put R.LD_STATUS.RESET_BUSY c (b2n (decide (r.domain = 3)))
  let s := s.modCtx c Ctx.afterReset
  let s := { s with
    rack := { s.rack with regions := s.rack.regions.filter fun e => decide (e.2.owner ≠ c) }
    wharf := { s.wharf with cmds := s.wharf.cmds.filter fun q => decide (q.ld ≠ c) } }
  if r.completions then
    let s := cmds.foldl (fun s q => (s.cqPush c (cmdCqe 10 q.cid 0 0 0)).bump R.LD_CMDS.COUNT c) s
    ended.foldl (fun s e => s.cqPush c (endCqe e.1 e.2 8)) s
  else s

/-- Releases the core set of a context whose DISABLE completes: quotas 0 and shares at their reset values (R417). -/
def State.finishDisable (s : State) (c : Nat) : State :=
  let s := (s.coresOf c).foldl (fun s n =>
    (((s.clearScr n).modCore n fun k => { k with clearing := true }).setCoreState n coreIdle).put R.CORE_STATE.CTX n 0) s
  let s := (List.range 16).foldl (fun s k => s.setFld R.CTX_CORES.BITS c k 0) s
  let s := s.put R.CTX_STATUS.CORES c 0
  let s := (List.range 4).foldl (fun s t => s.setFld R.SLUICE_QUOTA.LIMIT c t 0) s
  let s := [R.CTX_SHARES_A.HBM, R.CTX_SHARES_A.FABRIC, R.CTX_SHARES_B.HOST, R.CTX_SHARES_B.XTAL, R.CTX_SHARES_C.SLUICE].foldl
    (fun s f => s.put f c f.rst) s
  let s := (Page.ctx :: .ld :: ctxPages).foldl (fun s p => s.put (hdrCfgLock p) c 0) s
  let s := s.modCtx c fun x => { x with disabling := false }
  ((s.put R.CTX_STATUS.BUSY c 0).put R.CTX_CMD_RESULT.RESULT c 0).put R.CTX_STATUS.STATE c ctxDisabled

def rstUnit : Raiser := .page .rst 0

/-- A reset completes (R65, R66, R509): its status bits clear and `EV_RESET_DONE` is raised. -/
def State.resetComplete (s : State) (r : ResetRec) : State :=
  let s := { s with resets := s.resets.filter fun q => !(decide (q.domain = r.domain) && decide (q.inst = r.inst)) }
  let s :=
    if r.domain = 1 then s.put R.RST_STATUS.DIE 0 (clrBit (s.fld R.RST_STATUS.DIE) r.inst)
    else if r.domain = 2 then s.put R.RST_LINK_STATUS.LINK 0 (clrBit (s.fld R.RST_LINK_STATUS.LINK) r.inst)
    else
      let s := if r.drained then s else s.endDrain r
      let s := (s.put R.LD_STATUS.RESET_BUSY r.inst 0).put R.RST_STATUS.LD 0 (clrBit (s.fld R.RST_STATUS.LD) r.inst)
      let s := (s.setFld R.FAULT_CTX.ENDED 0 r.inst 0).setFld R.FAULT_CTX.CODE 0 r.inst 0
      let s := (s.coresOf r.inst).foldl (fun s n => s.modCore n fun k => { k with clearing := false }) s
      if (s.ctx r.inst).disabling then s.finishDisable r.inst
      else if s.fld R.CTX_STATUS.STATE r.inst = ctxDisabled then s
      else s.put R.CTX_STATUS.STATE r.inst ctxQuiescedCode
  s.raise rstUnit none 0x0003 (w4 [r.domain, r.inst])

/-- Every scratchpad is cleared (R61, R175). -/
def State.clearAllScr (s : State) : State := { s with cores := s.cores.map fun e => (e.1, { e.2 with scr := [] }) }

/-! ### Dies -/

/-- Die d's slice, stacks or cores hold something of a context (R63). -/
def State.dieHeld (s : State) (d : Nat) : Bool :=
  ((List.range 64).any fun i => (s.ownerOf (64 * d + i)).isSome) ||
  (s.basinUse.any fun e => decide (e.1 / 512 = d)) ||
  (s.hbmUse.any fun e => decide (e.1 / 1572864 = d)) ||
  (decide (d = 0) && (List.range 16).any fun c => decide (s.fld R.CTX_STATUS.STATE c ≠ ctxDisabled))

/-- Registers of die d's reset domain: its cores' but for `CORE_FENCE`, and its MX, SCR, BASIN and GAUGE pages
(R112, R176, R466). -/
def dieKeeps (d a : Nat) : Bool :=
  !((decide (0x100000 + 64 * d * 0x1000 ≤ a ∧ a < 0x100000 + 64 * (d + 1) * 0x1000) && !decide (a % 0x1000 = 0x108)) ||
    decide (a / 0x1000 = 0x20 + d) || decide (a / 0x1000 = 0x28 + d) || decide (a / 0x1000 = 0x30 + d) ||
    decide (a / 0x1000 = 0x38 + d))

/-- A die reset: every core but the FENCED ones goes IDLE, and the die's memories are zero (R62, R106, R110). -/
def State.dieReset (s : State) (d : Nat) : State :=
  let states := (List.range 64).filter fun i => decide (s.coreState (64 * d + i) = coreFenced)
  let s := s.keepRegs fun a _ => dieKeeps d a
  let s := states.foldl (fun s i => s.setCoreState (64 * d + i) coreFenced) s
  { s with
    cores := s.cores.filterMap fun e =>
      if e.1 / 64 ≠ d then some e
      else if states.contains (e.1 % 64) then some (e.1, { Core.reset with bistPassed := e.2.bistPassed, clearing := e.2.clearing })
      else none
    basin := tclear s.basin (d * 2 ^ 25) (2 ^ 25)
    hbm := tclear s.hbm (d * 1572864 * 65536) (1572864 * 65536)
    hbmUse := s.hbmUse.filter fun e => decide (e.1 / 1572864 ≠ d)
    refs := s.refs.filter fun e => decide (e.1 / 1572864 ≠ d)
    dieTlb := s.dieTlb.filter fun e => decide (e.1 / 2 ^ 31 ≠ d)
    walks := s.walks.filter fun w => decide (w.die ≠ d)
    assayUnit := tset 0 s.assayUnit d 0
    assayPtr := tset 0 s.assayPtr d 0
    xtalPtr := tclear s.xtalPtr (16 * d) 16
    xtalVisit := tset 0 s.xtalVisit d 0
    xtalDeficit := tclear s.xtalDeficit (16 * d) 16
    walkPtr := tset 0 s.walkPtr d 0
    hbmCe := tclear s.hbmCe (4 * d) 4
    basinBad := clrBit s.basinBad d }

end Sys2Proof.Machine
end

