-- ==== Sys2Proof/Machine/WharfOps.lean ====
section
/-! DEFINITION. Machine/WharfOps.lean: doorbells and the wake from P1 and P2 (R56-R59, R403), and the commands of a
submission queue (R404-R407). -/
namespace Sys2Proof.Machine

/-- The module begins to leave P1 or P2 for P0 (R57, R59). -/
def State.wake (s : State) : State :=
  let cur := s.fld R.DEV_PWR.CURRENT
  if (cur = 1 ∨ cur = 2) ∧ s.fld R.DEV_PWR.BUSY = 0 then
    let s := s.put R.DEV_PWR.BUSY 0 1
    { s with power := { s.power with goingTo := some 0, p1Pending := false } }
  else { s with power := { s.power with p1Pending := false } }

/-- The module is asleep, in P1 or P2. -/
def State.asleep (s : State) : Bool := decide (s.fld R.DEV_PWR.CURRENT = 1 ∨ s.fld R.DEV_PWR.CURRENT = 2)

/-- A doorbell takes effect (R403): 0 SQ tail, 1 CQ head, 2 TOK head, 3 EVQ head. -/
def State.doorbellTake (s : State) (ld k v : Nat) : State :=
  let last := s.doorbell ld k
  let (tail, head, log) : Nat × Nat × Nat :=
    if k = 0 then (v, s.fld R.LD_SQ_HEAD.INDEX ld, s.fld R.LD_RING_SIZES.SQ ld)
    else (s.fld (ringTail (k - 1)) ld, v, s.ringLog ld (k - 1))
  if (v + 2 ^ 32 - last) % 2 ^ 32 < 2 ^ 31 ∧ (tail + 2 ^ 32 - head) % 2 ^ 32 ≤ 2 ^ log then
    let s := { s with wharf := { s.wharf with doorbells := tset 0 s.wharf.doorbells (4 * ld + k) v } }
    if k = 3 then s.evqOverflow ld else s
  else
    (s.put R.LD_STATUS.DB_ERR ld 1).raise (.page .ld ld) (some ld) 0x0502 (w4 [ld, 4 * k, v])

/-- A 32-bit doorbell write (R57, R65, R403, R511): dropped in reset, while the rings are not enabled and while the
module is halted; it wakes a sleeping module, or is held. -/
def State.doorbellWrite (s : State) (ld k v : Nat) : State :=
  if s.ldInReset ld || s.ctxInReset ld || !s.on R.LD_CTRL.RINGS_EN ld || s.halted then s
  else if s.asleep then
    if s.on R.DEV_PWR.AUTO_WAKE then s.wake.doorbellTake ld k v
    else { s with power := { s.power with heldDoorbells := s.power.heldDoorbells ++ [(ld, k, v)] } }
  else s.doorbellTake ld k v

/-- A doorbell write of another size is ignored and reported (R403). -/
def State.doorbellBad (s : State) (ld k v : Nat) : State :=
  if s.ldInReset ld || s.ctxInReset ld || !s.on R.LD_CTRL.RINGS_EN ld || s.halted then s
  else (s.put R.LD_STATUS.DB_ERR ld 1).raise (.page .ld ld) (some ld) 0x0502 (w4 [ld, 4 * k, v])

/-! ### Submitted commands (R404-R407) -/

def State.modWharf (s : State) (f : Wharf → Wharf) : State := { s with wharf := f s.wharf }

/-- Commands of an LD that are outstanding, in ring order. -/
def State.outstandingCmds (s : State) (ld : Nat) : List SqCmd := s.wharf.cmds.filter fun q => decide (q.ld = ld)

/-- The command of an LD that may start next: commands start in index order, one with ORDER set after every earlier
command has completed, and later ones after it has (R404). -/
def State.startable (s : State) (ld : Nat) : Option SqCmd :=
  let l := s.outstandingCmds ld
  let running := l.filter fun q => q.started
  match l.find? fun q => !q.started with
  | some q => if running.any (fun r => r.order) || (q.order && !running.isEmpty) then none else some q
  | none => none

/-- The next command starts. -/
def State.markStarted (s : State) (ld : Nat) : State :=
  match s.startable ld with
  | some q => s.modWharf fun w => { w with
      cmds := w.cmds.map fun r => if r.ld = ld ∧ r.index = q.index then { r with started := true } else r }
  | none => s

/-- A fetched command of an LD completes: it is no longer outstanding, and its completion is written (R406, R407). -/
def State.cmdDone (s : State) (ld cid status handle tag done : Nat) : State :=
  ((s.modWharf fun w => { w with
    cmds := w.cmds.eraseP fun q => decide (q.ld = ld ∧ q.cid = cid) && q.started }).cqPush ld
    (cmdCqe status cid handle tag done)).bump R.LD_CMDS.COUNT ld

/-- Opcode under which an entry that holds a reserved encoding waits its turn. -/
def badOpcode : Nat := 0xFF

/-- Commands of reserved encodings complete with status 2 as their turn comes (R405, R406). -/
def State.startBad (ld : Nat) : Nat → State → State
  | 0, s => s
  | fuel + 1, s =>
    match s.startable ld with
    | some q => if q.opcode = badOpcode then State.startBad ld fuel ((s.markStarted ld).cmdDone ld q.cid 2 0 0 0) else s
    | none => s

/-- A command completes, and commands of reserved encodings behind it take their turn. -/
def State.cmdEnd (s : State) (ld cid status handle tag done : Nat) : State :=
  State.startBad ld 64 (s.cmdDone ld cid status handle tag done)

/-- Little-endian word of a submission entry. -/
def sqWord (e : List Byte) (off n : Nat) : Nat := ofLe ((e.drop off).take n)

/-- Bytes `[lo, hi)` of an entry are 0. -/
def sqZero (e : List Byte) (lo hi : Nat) : Bool := ((e.take hi).drop lo).all fun b => decide (b = 0)

/-- An entry holds no reserved encoding (R405). -/
def sqOk (e : List Byte) : Bool :=
  decide (sqWord e 1 1 ≤ 1) &&
  match sqWord e 0 1 with
  | 0 => sqZero e 4 64
  | 1 => sqZero e 4 8 && sqZero e 16 64 && decide (sqWord e 8 8 % 64 = 0)
  | 2 => sqZero e 8 64 && decide (sqWord e 4 4 < 2 ^ 18)
  | 3 => decide (sqWord e 4 4 < 512) && decide (sqWord e 8 8 % 64 = 0 ∧ sqWord e 8 8 < 2 ^ 48) && sqZero e 48 64
  | 4 => decide (sqWord e 4 4 ≤ 1) && decide (1 ≤ sqWord e 24 4 ∧ sqWord e 24 4 ≤ 2 ^ 30) && sqZero e 28 64
  | _ => false

/-- The command of a submission entry. -/
def sqDecode (ld index : Nat) (e : List Byte) : SqCmd :=
  let op := if sqOk e then sqWord e 0 1 else badOpcode
  { ld := ld, index := index, cid := sqWord e 2 2, order := bit (sqWord e 1 1) 0, opcode := op, started := false
    arg0 := if op = 1 ∨ op = 4 then sqWord e 8 8 else sqWord e 4 4
    arg1 := if op = 3 then sqWord e 8 8 else sqWord e 16 8
    arg2 := sqWord e 24 4, dir := bit (sqWord e 4 1) 0
    regs4 := (List.range 4).map fun i => BitVec.ofNat 64 (sqWord e (16 + 8 * i) 8) }

end Sys2Proof.Machine
end

