-- ==== Sys2Proof/Machine/Bundle.lean ====
section
/-! DEFINITION. Machine/Bundle.lean: a bundle from D2 to CM (R78-R83, R91-R98), and the idle `TICK`
(03_suina_core.md). -/
namespace Sys2Proof.Machine

/-! ### Registers a bundle names (R79, R95) -/

/-- s registers the S slot reads. -/
def sReads : SOp → List (BitVec 5)
  | .r .fsqrt _ rs1 _ _ | .r .fcvtIF _ rs1 _ _ | .r .fcvtFI _ rs1 _ _ => [rs1]
  | .r .sel _ rs1 rs2 rs3 | .r .fma _ rs1 rs2 rs3 => [rs1, rs2, rs3]
  | .r _ _ rs1 rs2 _ => [rs1, rs2]
  | .i _ _ rs1 _ => [rs1]
  | .lih rd _ => [rd]
  | .lds _ rs1 _ _ _ | .ldu _ rs1 _ _ _ | .ldn _ rs1 _ _ _ => [rs1]
  | .sts rs2 rs1 _ _ _ | .stu rs2 rs1 _ _ _ | .stn rs2 rs1 _ _ _ => [rs2, rs1]
  | .amo _ rs1 rs2 rs3 aop _ => if aop = .cas then [rs1, rs2, rs3] else [rs1, rs2]
  | .dinv _ rs1 rs2 => [rs1, rs2]
  | _ => []

/-- The s register the S slot names as its destination. -/
def sDest : SOp → List (BitVec 5)
  | .r _ rd _ _ _ | .i _ rd _ _ | .li rd _ | .lih rd _ | .lds rd _ _ _ _ | .ldu rd _ _ _ _ | .rdgauge rd _
  | .rdtick rd _ _ _ | .ldn rd _ _ _ _ | .rdtag rd _ _ => [rd]
  | .amo rd _ _ _ _ ret => if ret then [rd] else []
  | _ => []

def bReads : BOp → List (BitVec 5)
  | .bc _ rs1 rs2 _ => [rs1, rs2]
  | .jr rs1 | .callr rs1 | .loop _ rs1 _ | .wait rs1 => [rs1]
  | .ret => [31#5]
  | _ => []

def bDest : BOp → List (BitVec 5)
  | .call _ | .callr _ => [31#5]
  | _ => []

def isReduce (c : VCode) : Bool := decide (c = .vrsum ∨ c = .vrmax ∨ c = .vrmin)

def vReads : VOp → List (BitVec 5)
  | .op c f => (if c = .vld ∨ c = .vst ∨ c = .vbcast then [f.va] else []) ++ (if f.sb && !c.isMask then [f.vb] else [])
  | _ => []

/-- s register a V slot names as its destination. -/
def vDestS : VOp → List (BitVec 5)
  | .op c f => if isReduce c then [f.vd] else []
  | _ => []

/-- Mask a V slot names as its destination. -/
def vDestM : VOp → List (BitVec 5)
  | .op c f => if c.isCompare || c.isMask then [f.vd] else []
  | _ => []

/-- Vector register a V slot names as its destination. -/
def vDestV : VOp → List (BitVec 5)
  | .op c f => if c.isCompare || c.isMask || isReduce c || decide (c = .vst) then [] else [f.vd]
  | _ => []

def xReads : XOp → List (BitVec 5)
  | .xfer _ _ rs _ _ => [rs]
  | _ => []

/-- Every s register a bundle reads. -/
def bundleReads (w : Bundle) : List (BitVec 5) :=
  sReads w.s ++ bReads w.b ++ vReads w.v0 ++ vReads w.v1 ++ xReads w.x

/-- s registers the slots name as destinations. -/
def bundleDestS (w : Bundle) : List (BitVec 5) := sDest w.s ++ bDest w.b ++ vDestS w.v0 ++ vDestS w.v1

/-- Two entries of a list are equal. -/
def hasDup {α : Type} [DecidableEq α] : List α → Bool
  | [] => false
  | a :: t => t.contains a || hasDup t

/-- The bundle raises `ILLEGAL_BUNDLE` (R79): a reserved encoding, or one destination named by two slots. -/
def illegalBundle (w : Bundle) (k : Core) : Bool :=
  decide (w.s = .illegal ∨ w.b = .illegal ∨ w.v0 = .illegal ∨ w.v1 = .illegal ∨ w.m = .illegal ∨ w.x = .illegal) ||
    hasDup (bundleDestS w) || hasDup (vDestM w.v0 ++ vDestM w.v1) || hasDup (vDestV w.v0 ++ vDestV w.v1) || k.xReserved w.x

/-! ### Waits at D2 (R90, R95, R113, R114) -/

/-- Loads outstanding whose register the bundle reads or writes. -/
def Core.pendFor (k : Core) (w : Bundle) : List PendLd :=
  k.pend.filter fun p => p.rd ≠ 0#5 && (bundleReads w ++ bundleDestS w).contains p.rd

/-- Scratchpad accesses of the bundle that the engine's queue orders (R114). -/
def Core.scrSpans (k : Core) (w : Bundle) : List (Nat × Nat) :=
  (match w.s with
   | .lds _ rs1 size _ off | .sts _ rs1 size _ off => [(k.ea rs1 off, 2 ^ size.toNat)]
   | _ => []) ++
  ([w.v0, w.v1].flatMap fun v => match v with
   | .op .vld f | .op .vst f => [(k.vEa f, 256)]
   | _ => []) ++ k.xSpans w.x

/-- The bundle waits at D2. -/
def State.waitsD2 (s : State) (n : Nat) (w : Bundle) : Bool :=
  let k := s.core n
  decide (k.pendFor w ≠ []) || k.engine.holds (k.scrSpans w) ||
    (decide (w.m ≠ .nop) && decide (16 ≤ k.engine.queue.length)) ||
    (match xTag w.x with
     | some t => (k.tag t).busy
     | none => false) || s.xLimited n w.x

/-- The bundle reads the scratchpad. -/
def bundleReadsScr (w : Bundle) : Bool :=
  (match w.s with | .lds _ _ _ _ _ => true | _ => false) ||
  ([w.v0, w.v1].any fun v => match v with | .op .vld _ => true | _ => false) ||
  (match w.x with | .awalk _ _ _ | .msg _ _ | .rkpost _ _ _ _ _ _ _ | .bsend _ _ _ _ _ _ _ => true | _ => false)

/-! ### The slots, in order (R92) -/

/-- What the slots of a bundle come to. -/
inductive BundleOut where
  | wait (s : State)
  | trap (s : State) (cause slot addr : Nat)
  | done (s : State) (es : List Effects)

/-- Goes on to the next slot. -/
def SlotOut.next (o : SlotOut) (slot : Nat) (es : List Effects) (f : State → List Effects → BundleOut) : BundleOut :=
  match o with
  | .wait s => .wait s
  | .trap s c a => .trap s c slot a
  | .done s e => f s (es ++ [e])

/-- The six slots; every one reads the registers as they stood before the bundle (R78). -/
def State.evalSlots (s : State) (n : Nat) (w : Bundle) : BundleOut :=
  let f := s.free
  (({ s with free := f + 3 } : State).evalS n w.s w.env f).next 0 [] fun s es =>
  (s.evalB n w.b).next 1 es fun s es =>
  (s.evalV n w.v0 (f + 1)).next 2 es fun s es =>
  (s.evalV n w.v1 (f + 2)).next 3 es fun s es =>
  (s.evalM n w.m).next 4 es fun s es =>
  (s.evalX n w.x w.env).next 5 es fun s es => .done s es

/-! ### Commit (R78, R94) -/

/-- The register writes of a slot. -/
def Core.write (k : Core) (e : Effects) : Core :=
  let k := e.sw.foldl (fun k p => k.setS p.1 p.2) k
  let k := e.vw.foldl (fun k p => k.setV p.1 p.2) k
  let k := e.mw.foldl (fun k p => k.setM p.1 p.2) k
  e.lw.foldl (fun k p => k.setLc p.1 p.2) k

/-- A branch's history: its two-bit counter, and the return stack of 16 entries (R96). -/
def Core.history (k : Core) (pc : BitVec 48) (e : Effects) : Core :=
  let i := pc.toNat / 64 % 4096
  let b := tget 0 k.bht i
  { k with
    bht := match e.taken with
      | some true => tset 0 k.bht i (min 3 (b + 1))
      | some false => tset 0 k.bht i (b - 1)
      | none => k.bht
    rstack := match e.push with
      | some a => (a :: k.rstack).take 16
      | none => if e.pop then k.rstack.drop 1 else k.rstack }

/-- Where the bundle continues. -/
def contPc (pc : BitVec 48) (es : List Effects) : BitVec 48 := (es.findSome? Effects.pc).getD (nextPc pc)

/-- The registers, PC and history of a core after a bundle. -/
def Core.retire (k : Core) (es : List Effects) (now : Nat) : Core :=
  let pc := k.pc
  let k := es.foldl Core.write k
  let k := es.foldl (fun k e => k.history pc e) k
  { k with pc := contPc pc es, nodeAns := none, lastRetire := now }

/-- The bundle's stores drain through P0, in slot order; words that a higher-numbered port wins are lost and reported
(R79, R164, R165). -/
def State.drainStores (s : State) (n : Nat) (l : List (Nat × List Byte)) (drop : List Nat) : State :=
  let lost := (l.flatMap fun p => lostWords p.1 p.2.length drop).eraseDups
  let s := s.modCore n fun k => l.foldl (fun k p => k.scrWriteBut p.1 p.2 drop) k
  lost.foldl (fun s _ => s.wcoll n 0) s

/-- How a bundle stops its core: `HALT` waits for earlier operations, `BRK` halts it under the scope. -/
def State.stopAfter (s : State) (n : Nat) (es : List Effects) : State :=
  if es.any fun e => decide (e.stops = 1) then s.modCore n fun k => { k with halting := true, pend := [] }
  else if es.any fun e => decide (e.stops = 2) then s.setCoreState n coreHalted
  else s

/-- One bundle of a stepping core has been taken (R488). -/
def State.stepTaken (s : State) (n : Nat) : State :=
  if s.sec.stepping.contains n then
    ({ s with sec := { s.sec with stepping := s.sec.stepping.filter fun m => decide (m ≠ n) } } : State).put
      R.DBG_STATUS.BUSY 0 0
  else s

/-- A bundle retires. -/
def State.commit (s : State) (n : Nat) (es : List Effects) (env : Surround) : State :=
  let pc := (s.core n).pc.toNat
  let s := (s.modCore n fun k => k.retire es s.tick).put R.CORE_PC.PC n pc
  let s := s.drainStores n (es.flatMap Effects.st) env.drop
  let s := es.foldl (fun s e => e.after s) s
  (s.stopAfter n es).stepTaken n

/-- An exception is taken once the loads of earlier bundles have arrived (R91). -/
def State.except (s : State) (n cause slot addr : Nat) : State :=
  if (s.core n).pend = [] then (s.trap n cause slot addr).stepTaken n else s

/-- A bundle that stays at CM sends its node operation. -/
def heldSend (es : List Effects) : Option (State → State) := es.findSome? Effects.hold

/-- A bundle at D2 goes as far as it can. -/
def State.issue (s : State) (n : Nat) (w : Bundle) : State :=
  if illegalBundle w (s.core n) then s.except n 2 7 0
  else if s.waitsD2 n w then s
  else if bundleReadsScr w && isUe w.env.scr then s.scrEcc n w.env.scr
  else
    match s.evalSlots n w with
    | .wait s => s
    | .trap s' c slot a => if (s.core n).pend = [] then s'.except n c slot a else s
    | .done s es =>
      let s := if bundleReadsScr w then s.scrEcc n w.env.scr else s
      match heldSend es with
      | some send => send s
      | none =>
        if (es.any fun e => decide (e.stops = 2)) && decide ((s.core n).pend ≠ []) then s else s.commit n es w.env

/-! ### Running -/

/-- Core `n` executes: RUNNING, or stepping under a scope, and nothing holds it. -/
def State.executes (s : State) (n : Nat) : Bool :=
  (decide (s.coreState n = coreRunning) || (decide (s.coreState n = coreHalted) && s.sec.stepping.contains n)) &&
    !s.halted && !s.ctxInReset (s.ctxOf n) && !(s.core n).halting && decide ((s.core n).nodeWait = 0)

/-- The bundle the core fetches is `w`, up to what its surroundings decide. -/
def isBundle (bits : BitVec 512) (w : Bundle) : Bool := decide (decodeBundle bits w.env = w)

/-- Core `n` takes the bundle `w` at its PC. A bundle that memory does not hold there is none of the core's. -/
def State.runBundle (s : State) (n : Nat) (w : Bundle) : State :=
  if !s.executes n || (s.core n).ra.isSome then s
  else
    match s.fetch n with
    | (.wait, s) => s
    | (.fail, s') => if (s.core n).pend = [] then s'.except n 1 7 0 else s
    | (.bundle bits, s') => if isBundle bits w then s'.issue n w else s

/-- A NOP bundle of a running core retires as time passes. -/
def State.runNop (s : State) (n : Nat) : State :=
  if s.coreState n = coreRunning then
    match s.fetch n with
    | (.bundle bits, _) => if bits = 0#512 then s.runBundle n Bundle.nop else s
    | _ => s
  else s

/-- What a step does on an empty queue: one `TICK`, in which running cores pass over NOP bundles (log entry 7). -/
def State.idle (s : State) : State := (List.range 512).foldl State.runNop s.idleTick

end Sys2Proof.Machine
end

