-- ==== Sys2Proof/Machine/RunAhead.lean ====
section
/-! DEFINITION. Machine/RunAhead.lean: run-ahead (R99-R103; 03_suina_core.md). Nothing it computes reaches architectural
state; its prefetches fill the data cache. -/
namespace Sys2Proof.Machine

/-! ### The run-ahead file (R100) -/

/-- An s register of the file; none while it is marked invalid. -/
def RunAhead.s (a : RunAhead) (r : BitVec 5) : Option Word64 :=
  if r = 0#5 then some 0#64 else if bit a.sBad r.toNat then none else some (tget 0#64 a.sregs r.toNat)

/-- Writes an s register of the file, or marks it invalid. -/
def RunAhead.setS (a : RunAhead) (r : BitVec 5) (v : Option Word64) : RunAhead :=
  if r = 0#5 then a
  else
    match v with
    | some v => { a with sregs := tset 0#64 a.sregs r.toNat v, sBad := clrBit a.sBad r.toNat }
    | none => { a with sBad := setBit a.sBad r.toNat }

/-- Bytes of the scratchpad as the run-ahead sees them: its own stores, newest first, over the scratchpad. -/
def RunAhead.scr (a : RunAhead) (k : Core) (at_ n : Nat) : List Byte :=
  (List.range n).map fun i =>
    match a.stores.find? fun e => decide (e.1 ≤ at_ + i ∧ at_ + i < e.1 + e.2.length) with
    | some e => (e.2[at_ + i - e.1]?).getD 0#8
    | none => tget 0#8 k.scr (at_ + i)

/-- Enters run-ahead at the stalled bundle. -/
def Core.enterRa (k : Core) (limit : Nat) (bpred : Bool) : Core :=
  { k with ra := some {
      pc := k.pc, sregs := k.sregs, mregs := k.mregs, loops := k.loops
      sBad := k.pend.foldl (fun b p => setBit b p.rd.toNat) 0
      mBad := 0, vBad := 0, stores := [], issued := 0, limit := limit, bpred := bpred, stopped := false } }

/-- Leaves run-ahead: the file, the marks and the store buffer go. -/
def State.leaveRa (s : State) (n : Nat) : State :=
  (s.modCore n fun k => { k with ra := none }).put R.CORE_STATE.RA_ACTIVE n 0

/-- A data translation that starts no walk (R214): the leaf entry, or 0. -/
def State.raXlat (s : State) (n a : Nat) : Nat :=
  let c := s.ctxOf n
  let e := match (s.core n).dtlb.find? fun t => decide (t.leaf = a / 65536 ∧ t.ctx = c) with
    | some t => t.entry
    | none => (tget [] s.dieTlb (tlbKey (dieOf n) c (a / 2 ^ 21)))[a / 65536 % 32]?.getD 0
  if s.vaInRange c a && coreGrants e 1 then e else 0

/-- `LDU` in run-ahead: its value, if the data cache has the line, and the state with any prefetch it sends. -/
def State.raLdu (s : State) (n : Nat) (a : Nat) (size : BitVec 2) (sx : Bool) : Option Word64 × State :=
  let hit := tget [] (s.core n).dcache (a / 64)
  if uniFault a (2 ^ size.toNat) ≠ none then (none, s)
  else if hit ≠ [] then (some (extendLoad size sx (lineBytes hit a (2 ^ size.toNat))), s)
  else
    let e := s.raXlat n a
    if e = 0 ∨ 2 ≤ leafTier e ∨ s.held? (s.ctxOf n) (a / 65536) = true then (none, s)
    else
      let line := s.physRead (leafTier e) (leafLoc e) (a / 64 * 64) 64
      let r := s.freeNat 32
      let s := r.2.modCore n fun k => { k with dcache := dcacheAdd k.dcache r.1 (a / 64) line }
      (none, if leafTier e = 1 then s.hbmBytes (s.ctxOf n) 64 else s)

/-- The S slot in run-ahead: the file, and the state with any prefetch. -/
def State.raS (s : State) (n : Nat) (a : RunAhead) (op : SOp) : RunAhead × State :=
  let k := s.core n
  let ea := fun (r : BitVec 5) (off : BitVec 32) => (a.s r).map fun v => (v + sx32 off).toNat
  match op with
  | .r op rd rs1 rs2 rs3 =>
    let ok := (sReads (.r op rd rs1 rs2 rs3)).all fun r => (a.s r).isSome
    let f := s.freeNat 64
    (a.setS rd (if ok then some (rResult op ((a.s rs1).getD 0#64) ((a.s rs2).getD 0#64) ((a.s rs3).getD 0#64) f.1) else none),
      f.2)
  | .i op rd rs1 imm => (a.setS rd ((a.s rs1).map fun v => iResult op v imm), s)
  | .li rd imm => (a.setS rd (some (imm.signExtend 64)), s)
  | .lih rd imm => (a.setS rd ((a.s rd).map fun v => (imm.extractLsb' 0 16) ++ v.extractLsb' 0 48), s)
  | .lds rd rs1 size sx off =>
    (a.setS rd ((ea rs1 off).bind fun x =>
      if scrFault x (2 ^ size.toNat) = none then some (extendLoad size sx (a.scr k x (2 ^ size.toNat))) else none), s)
  | .sts rs2 rs1 size _ off =>
    match ea rs1 off, a.s rs2 with
    | some x, some v =>
      if scrFault x (2 ^ size.toNat) ≠ none then (a, s)
      else if 32 ≤ a.stores.length then ({ a with stopped := true }, s)
      else ({ a with stores := (x, storeBytes v size) :: a.stores }, s)
    | _, _ => (a, s)
  | .ldu rd rs1 size sx off =>
    match ea rs1 off with
    | none => (a.setS rd none, s)
    | some x => let r := s.raLdu n x size sx; (a.setS rd r.1, r.2)
  | .rdtag rd _ imm => (a.setS rd (some (k.tag (imm.toNat % 64)).word), s)
  | op => ((sDest op).foldl (fun a r => a.setS r none) a, s)

/-- The counter's prediction of a conditional branch (R96). -/
def RunAhead.predicts (a : RunAhead) (k : Core) : Bool := a.bpred && decide (2 ≤ tget 0 k.bht (a.pc.toNat / 64 % 4096))

/-- The B slot in run-ahead: the file with its next PC. A target that is not known, and `WAIT`, `HALT` and `BRK`, end
issue. -/
def raB (k : Core) (old a : RunAhead) (op : BOp) : RunAhead :=
  let goTo (pc : BitVec 48) : RunAhead := { a with pc := pc }
  let stop : RunAhead := { a with stopped := true }
  let jump (v : Option Word64) (a : RunAhead) : RunAhead := match v with
    | some v => { a with pc := bundleAddr v }
    | none => { a with stopped := true }
  match op with
  | .bc c rs1 rs2 off =>
    let taken := match old.s rs1, old.s rs2 with
      | some x, some y => bHolds c x y
      | _, _ => old.predicts k
    if taken then goTo (jumpTo old.pc off) else goTo (nextPc old.pc)
  | .j off => goTo (jumpTo old.pc off)
  | .call off => (goTo (jumpTo old.pc off)).setS 31#5 (some (linkValue old.pc))
  | .jr rs1 => jump (old.s rs1) a
  | .callr rs1 => (jump (old.s rs1) a).setS 31#5 (some (linkValue old.pc))
  | .ret =>
    match old.s 31#5, k.rstack with
    | some v, _ => goTo (bundleAddr v)
    | none, p :: _ => goTo p
    | none, [] => stop
  | .loop lc rs1 len =>
    match old.s rs1 with
    | none => stop
    | some v =>
      let l := loopSet old.pc v len
      { a with loops := tset LoopReg.zero a.loops lc.toNat l, pc := if l.count = 0#32 then nextPc l.stop else nextPc old.pc }
  | .lend lc =>
    let r := lendStep (tget LoopReg.zero old.loops lc.toNat) old.pc
    { a with loops := tset LoopReg.zero a.loops lc.toNat r.1, pc := r.2 }
  | .wait _ | .halt _ | .brk _ => stop
  | _ => goTo (nextPc old.pc)

/-- Marks the destinations of a V slot invalid. -/
def raV (a : RunAhead) (op : VOp) : RunAhead :=
  let a := (vDestS op).foldl (fun a r => a.setS r none) a
  { a with
    mBad := (vDestM op).foldl (fun b r => setBit b (r.toNat % 8)) a.mBad
    vBad := (vDestV op).foldl (fun b r => setBit b r.toNat) a.vBad }

/-- The bundle at the run-ahead PC; a fetch there starts no walk. -/
def State.raFetch (s : State) (n : Nat) (a : RunAhead) : Option (BitVec 512) :=
  match (({ s with walks := [] } : State).modCore n fun k => { k with pc := a.pc }).fetch n with
  | (.bundle bits, _) => some bits
  | _ => none

/-- One bundle issues in run-ahead. -/
def State.raBundle (s : State) (n : Nat) (a : RunAhead) (w : Bundle) : State :=
  match s.raFetch n a with
  | none => s
  | some bits =>
    if !isBundle bits w || a.stopped || decide (a.limit ≤ a.issued) then s
    else
      let r := s.raS n a w.s
      let b := if r.1.stopped then r.1 else raB (s.core n) a r.1 w.b
      let v := raV (raV b w.v0) w.v1
      r.2.modCore n fun k => { k with ra := some { v with issued := a.issued + 1 } }

/-- A core takes a bundle, in run-ahead or out of it. -/
def State.bundle (s : State) (n : Nat) (w : Bundle) : State :=
  match (s.core n).ra with
  | some a => if s.executes n then s.raBundle n a w else s
  | none => s.runBundle n w

/-- The bundle at the PC of a core that executes, if `w` is it. -/
def State.atPc (s : State) (n : Nat) (w : Bundle) : Bool :=
  s.executes n && (match s.fetch n with | (.bundle bits, _) => isBundle bits w | _ => false)

/-- The core enters run-ahead (R99): the bundle waits on loads from T1 or T2 alone, and the threshold is not 0. -/
def State.raEnter (s : State) (n : Nat) (w : Bundle) : State :=
  let k := s.core n
  let p := k.pendFor w
  if s.atPc n w && k.ra.isNone && decide (s.fld R.CORE_CFG.RUNAHEAD_THRESH n ≠ 0) && decide (p ≠ []) && p.all fun x => !x.t3 then
    (s.modCore n fun k => k.enterRa (16 * s.fld R.CORE_CFG.RUNAHEAD_MAX n) (s.on R.CORE_CFG.BPRED_EN n)).put R.CORE_STATE.RA_ACTIVE n 1
  else s

/-- Issue stops at the run-ahead's limits (R102). -/
def State.raLimit (s : State) (n : Nat) : State :=
  match (s.core n).ra with
  | some a =>
    if a.limit ≤ a.issued ∨ 32 ≤ a.stores.length then s.modCore n fun k => { k with ra := some { a with stopped := true } } else s
  | none => s

/-- The registers the bundle at the PC names. -/
def State.stalledOn (s : State) (n : Nat) : List (BitVec 5) :=
  match s.fetch n with
  | (.bundle bits, _) => let w := decodeBundle bits Bundle.nop.env; bundleReads w ++ bundleDestS w
  | _ => []

/-- The value and the line of a load whose data arrive; a line of T3 is what T3 answered, or freely drawn. -/
def PendLd.arrived (p : PendLd) (data : List Byte) (draw : Nat) : Word64 × List Byte :=
  if p.t3 then
    let line := if 64 ≤ data.length then data.take 64 else freeBytes draw 64
    let v := p.value.toNat
    (extendLoad (BitVec.ofNat 2 (field v 6 2)) (bit v 8) (line.drop (v % 64)), line)
  else (p.value, p.bytes)

/-- The data of an outstanding load arrive: its register and line, and the end of a run-ahead that waited on it
(R98, R101). -/
def State.lduReturn (s : State) (n : Nat) (rd : BitVec 5) (data : List Byte) : State :=
  match (s.core n).pend.find? fun p => decide (p.rd = rd) with
  | none => s
  | some p =>
    let v := p.arrived data s.free
    let r := ({ s with free := s.free + 1 } : State).freeNat 32
    let stalled := (s.stalledOn n).contains rd
    let s := r.2.modCore n fun k =>
      { k.setS rd.toNat v.1 with
        pend := k.pend.erase p
        dcache := if p.fill then dcacheAdd k.dcache r.1 p.line v.2 else k.dcache }
    if stalled then s.leaveRa n else s

end Sys2Proof.Machine
end

