-- ==== Sys2Proof/Machine/Assay.lean ====
section
/-! DEFINITION. Machine/Assay.lean: the Assay's operations (R142-R152; 05_assay_width_control.md). -/
namespace Sys2Proof.Machine

/-- The unit of a die is free again, and grants the next request. -/
def State.assayFree (s : State) (d : Nat) : State := ({ s with assayUnit := tset 0 s.assayUnit d 0 } : State).assayGrant d

/-- A granted comparison ends. An uncorrectable error fences its core and gives no sample (R171). -/
def State.assayCompare (s : State) (d n : Nat) (ecc : Ecc) : State :=
  match (s.core n).xops.find? fun x => decide (x.kind = 0x40) && x.granted with
  | none => s
  | some x =>
    let c := s.ctxOf n
    if isUe ecc then (s.bump R.ASSAY_DROPPED.COUNT c).scrEcc n ecc
    else
      let rows := x.c % 256 + 1
      let e := sampleError ((s.core n).scrRead x.a (rows * 64)) ((s.core n).scrRead x.b (rows * 64)) rows
      ((s.scrEcc n ecc).assayRecord c d (x.c / 256) e).modCore n fun k => k.tagDone x.tag 0 false

/-- A write of `ASSAY_LSTATE[l]`: CLEAR (false) or FORCE_WIDEN (true) acts at the helm at the next boundary; elsewhere, or where
both are set, the write is only recorded (R151, R158). -/
def State.layerCmd (s : State) (c l : Nat) (clear force : Bool) (detail : Nat) : State :=
  if !clear && !force then s
  else if !s.helm c || (clear && force) then s.errlog .assay c 2 (0xC00 + 4 * l) 0 detail
  else s.modCtx c fun x => { x with
    layerCmds := x.layerCmds ++ [(l, force)] }

/-- `X_ASSAY` (R142-R144). -/
def execXAssay (core : Fin 512) (tag : BitVec 6) (nsrc rsrc : BitVec 14) (rowsM1 : BitVec 4) (layer : BitVec 8)
    (ord : BitVec 25) (w : Bundle) (s : State) : Result :=
  .next (s.bundle core (withX w (.assay tag nsrc rsrc rowsM1 layer ord)))

/-- The comparison that a die's unit runs ends (R144-R146). -/
def execAssayCompareDone (die : Fin 8) (ecc : Ecc) (s : State) : Result :=
  let u := tget 0 s.assayUnit die
  .next (if u = 0 then s else (s.assayCompare die (u - 1) ecc).assayFree die)

/-- `X_ASEL` (R142, R143). -/
def execXAsel (core : Fin 512) (tag : BitVec 6) (dst : BitVec 14) (layer : BitVec 8) (obase : BitVec 16) (w : Bundle)
    (s : State) : Result :=
  .next (s.bundle core (withX w (.asel tag dst layer obase)))

end Sys2Proof.Machine
end

