-- ==== Sys2Proof/Machine/Xlat.lean ====
section
/-! DEFINITION. Machine/Xlat.lean: page-table walks, epochs and the queue of a context that runs no steps (R212-R229;
08_translation_and_sequence_ranges.md). Submissions to the queue are register writes: Machine/Bus.lean. -/
namespace Sys2Proof.Machine

/-- Every die has acknowledged the last `INV_NOW` (R227). -/
def State.invAcked (s : State) (c : Nat) : State :=
  if s.on (hdrDutyMode .xlat) c then s.put R.XLAT_UQ_RESULT.DONE c 1 else s

/-- A write of `XLAT_CTRL.ADVANCE` (R226): recorded and without effect on a context that runs steps. -/
def State.advance (s : State) (c detail : Nat) : State :=
  if s.on R.STEP_CTRL.EN c then s.errlog .xlat c 2 0x100 0 detail else s.put R.XLAT_STATUS.ADV_PENDING c 1

/-- No core of a context is RUNNING. -/
def State.noneRuns (s : State) (c : Nat) : Bool := (s.coresOf c).all fun n => decide (s.coreState n ≠ coreRunning)

/-- A pending ADVANCE proceeds as a boundary does (R226). -/
def State.advanceApply (s : State) (c : Nat) : State :=
  if !s.on R.XLAT_STATUS.ADV_PENDING c || !s.noneRuns c then s
  else if s.epochBlocked c then s.epochWait c
  else
    let s := (s.put R.XLAT_STATUS.EPOCH_WAIT c 0).put R.XLAT_STATUS.ADV_PENDING c 0
    let q := (s.checkSwitches c).applyQueue c
    ((q.1.kvQuotaRefused c q.2).settleReady c).modCtx c Ctx.takeNext

/-- What a page-walking request waits for: the walk's die and 2 MiB page. -/
def walkNote (w : Walk) : Nat := w.die + 8 * w.page

/-- Payload of a page-walking request (R425). -/
def walkRequest (w : Walk) : List Byte := leBytes w.va 8 ++ leBytes w.cls 1 ++ leBytes (b2n w.write + 2 * b2n w.fetch) 1

/-- Changes the walk of a die for a page of a context. -/
def State.setWalk (s : State) (c note : Nat) (f : Walk → Walk) : State :=
  { s with walks := s.walks.map fun w => if w.ctx = c ∧ walkNote w = note then f w else w }

/-- A page-walking request is answered: the walk repeats (R228). -/
def State.walkAnswered (s : State) (c note : Nat) : State :=
  s.setWalk c note fun w => { w with host := false, answered := true }

/-- A page-walking request ends without an answer: the access fails (R228). -/
def State.walkFailed (s : State) (c note : Nat) : State :=
  s.setWalk c note fun w => { w with host := false, failed := true }

/-- Takes a walk out. -/
def State.endWalk (s : State) (w : Walk) : State := { s with walks := s.walks.erase w }

/-- A walk completes: its leaf table is installed, unless an invalidation met it. In host-assisted mode one that meets
V = 0 waits for the host, and fails the access when it repeats (R213, R215, R228). -/
def State.walkDone (s : State) (die c page : Nat) (ecc : Ecc) : State :=
  match s.walks.find? fun w => decide (w.die = die ∧ w.ctx = c ∧ w.page = page) && !w.failed && !w.host with
  | none => s
  | some w =>
    let s := s.hbmBytes c 8
    if isUe ecc then (s.endWalk w).lineEcc 1 (s.root c / 65536) (s.root c % 65536) ecc
    else
      let s := s.lineEcc 1 (s.root c / 65536) (s.root c % 65536) ecc
      if w.stale then s.endWalk w
      else if s.on (hdrDutyMode .xlat) c && decide (s.leaf c (w.va / 65536) = 0) then
        if w.answered then s.walkFailed c (walkNote w)
        else (s.setWalk c (walkNote w) fun w => { w with host := true }).dutyRequest c 3 (walkNote w) (walkRequest w)
      else (s.endWalk w).dieInstall die c page (s.leafTable c page)

/-- Every die has acknowledged `INV_NOW` (R227). -/
def execInvNowAcknowledged (ctx : Fin 16) (s : State) : Result :=
  .next (s.invAcked ctx)

/-- A pending ADVANCE is applied once no core of the context runs (R226). -/
def execAdvanceApply (ctx : Fin 16) (s : State) : Result :=
  .next (s.advanceApply ctx)

/-- The oldest epoch retires once nothing holds it (R224). -/
def execEpochRetire (ctx : Fin 16) (s : State) : Result :=
  .next (s.retireEpoch ctx)

/-- A page-table walk completes (R213-R216). -/
def execPageWalkDone (die : Fin 8) (ctx : Fin 16) (page : BitVec 27) (ecc : Ecc) (s : State) : Result :=
  .next (s.walkDone die ctx page.toNat ecc)

end Sys2Proof.Machine
end

