-- ==== Sys2Proof/Machine/Attn.lean ====
section
/-! DEFINITION. Machine/Attn.lean: attention walks and the Rake's posts, and the boundary of a step on a member
(R188, R235-R253; 09_attention_and_kv_pages.md). -/
namespace Sys2Proof.Machine

/-- Asks T3 for the pages of a walk that lie there (R199). -/
def State.walkAsk (s : State) (c : Nat) (d : WalkDesc) (sel : List Nat) : State :=
  match (s.ctx c).desc d.slot with
  | none => s
  | some r => (d.slice (s.walkList c d sel)).foldl (fun s p => s.askSub c (s.leaf c (r.sub p.1 d.pair))) s

/-- A walk that the arbiter takes: its descriptor is read, and its pages are selected (R235, R237). -/
def State.walkTake (s : State) (die n : Nat) (far : List Byte) (ecc : Ecc) : State :=
  match (s.core n).xops.find? fun x => decide (x.kind = 0x48) && !x.granted with
  | none => s
  | some x =>
    let s := s.scrEcc n ecc
    if isUe ecc then s
    else
      let bs := (s.core n).scrRead x.a 64
      let d := walkDesc bs
      let r := s.walkStart die (s.ctxOf n) d ((s.core n).scrRead (d.qvec * 64) 256) far
      let s := r.2.2.modCore n fun k => { k with
        xops := k.xops.map fun y => if y.tag = x.tag then { y with data := bs, c := r.1, sel := r.2.1, granted := true } else y }
      if r.1 = 0 then s.walkAsk (s.ctxOf n) d r.2.1 else s

/-- A die's walker grants the next walk in rotation (R239). -/
def State.walkGrant (s : State) (die : Nat) (far : List Byte) (ecc : Ecc) : State :=
  let waits (i : Nat) : Bool := s.walkWaits (64 * die + i)
  let ptr := tget 0 s.walkPtr die
  if 32 ≤ s.walksOn die then s
  else
    match rotPick 64 ptr waits with
    | none => s
    | some i =>
      ({ s with walkPtr := tset 0 s.walkPtr die (rotNext 64 ptr i waits) } : State).walkTake die (64 * die + i) far ecc

/-- Writes a walk's pages and record, counts it, and completes its tag (R238, R240). -/
def State.walkDeliver (s : State) (n : Nat) (x : XPend) (d : WalkDesc) (w : Walked) (total : Nat) (drop : List Nat) : State :=
  let c := s.ctxOf n
  let rec' := walkRecord w.pages total w.status
  let s := (List.range w.bytes.length).foldl (fun s k => s.scrPut n 2 (x.b + 65536 * k) (w.bytes[k]?.getD []) drop) s
  let s := s.scrPut n 2 (x.b + 65536 * d.npages) rec' drop
  let lost := decide (lostWords (x.b + 65536 * d.npages) 64 drop ≠ []) ||
    (List.range w.bytes.length).any fun k => decide (lostWords (x.b + 65536 * k) 65536 drop ≠ [])
  let s := (s.bump R.ATTN_WALKS.COUNT c).bump R.ATTN_PAGES.COUNT c w.pages.length
  let s := if w.status = 0 then s else (s.bump R.ATTN_WALK_FAULTS.COUNT c).walkFault c d w.status
  s.modCore n fun k => k.tagDone x.tag 0 lost

/-- What the check bits of page `k` of a walk show at an offset. -/
def State.walkEcc (s : State) (c : Nat) (d : WalkDesc) (pages : List WalkPage) (k off : Nat) (ecc : Ecc) : State :=
  match pages[k]?, (s.ctx c).desc d.slot with
  | some p, some r =>
    let e := s.leaf c (r.sub p.1 d.pair)
    if e ≠ 0 ∧ leafTier e < 2 then s.lineEcc (leafTier e) (leafLoc e) off ecc else s
  | _, _ => s

/-- A granted walk ends: its pages are read and delivered. One that meets a page in REFILL goes on waiting. -/
def State.walkEnd (s : State) (n tag : Nat) (far : List Byte) (k off : Nat) (ecc : Ecc) (drop : List Nat) : State :=
  match (s.core n).xop tag 0x48 with
  | none => s
  | some x =>
    if !x.granted then s
    else
      let c := s.ctxOf n
      let d := walkDesc x.data
      let list := s.walkList c d x.sel
      let pages := d.slice list
      let s := if x.c = 0 then s.walkEcc c d pages k off ecc else s
      let start : Walked := ⟨[], [], x.c, false, far⟩
      let r := match (s.ctx c).desc d.slot with
        | some ds => pages.foldl (State.walkPage (dieOf n) c ds d.pair) (start, s)
        | none => ({ start with status := if x.c = 0 then 3 else x.c }, s)
      if r.1.held then r.2 else r.2.walkDeliver n x d r.1 list.length drop

/-- The rows of a post have been copied (R241). -/
def State.postDone (s : State) (n tag : Nat) (ecc : Ecc) : State :=
  match (s.core n).xop tag 0x49 with
  | none => s
  | some _ => if isUe ecc then s.scrEcc n ecc else (s.scrEcc n ecc).xDone n tag

/-- A write of `RAKE_CMD` (R253): one FORK at a time. -/
def State.forkCommand (s : State) (c : Nat) : State :=
  if s.on R.RAKE_CMD_RESULT.BUSY c then s.errlog .rake c 4 0 0 0
  else
    let f (fd : Fd) : Nat := s.fld fd c * 2 ^ fd.lo
    let a := f R.RAKE_CMD_ARG0.SRC_SLOT + f R.RAKE_CMD_ARG0.SRC_GEN + f R.RAKE_CMD_ARG0.DST_SLOT +
      f R.RAKE_CMD_ARG0.DST_GEN + f R.RAKE_CMD_ARG0.TOKENS
    (s.put R.RAKE_CMD_RESULT.BUSY c 1).internalEdit c 2 24 0 a 0 1

/-- `X_AWALK` (R237). -/
def execXAwalk (core : Fin 512) (tag : BitVec 6) (desc dst : BitVec 14) (w : Bundle) (s : State) : Result :=
  .next (s.bundle core (withX w (.awalk tag desc dst)))

/-- A walk is granted (R239). -/
def execAwalkGrant (die : Fin 8) (far : List Byte) (ecc : Ecc) (s : State) : Result :=
  .next (s.walkGrant die far ecc)

/-- A walk ends (R238, R240). -/
def execAwalkComplete (core : Fin 512) (tag : BitVec 6) (far : List Byte) (k : Fin 8) (off : BitVec 16) (ecc : Ecc)
    (drop : List Nat) (s : State) : Result :=
  .next (s.walkEnd core tag.toNat far k off.toNat ecc drop)

/-- `X_RKPOST` (R241). -/
def execXRkpost (core : Fin 512) (tag : BitVec 6) (src : BitVec 14) (slot : BitVec 10) (gen : BitVec 8)
    (pair : BitVec 12) (pos : BitVec 20) (countM1 : BitVec 8) (w : Bundle) (s : State) : Result :=
  .next (s.bundle core (withX w (.rkpost tag src slot gen pair pos countM1)))

/-- The copy of a post ends (R241). -/
def execRkpostCopyDone (core : Fin 512) (tag : BitVec 6) (ecc : Ecc) (s : State) : Result :=
  .next (s.postDone core tag.toNat ecc)

/-- The Rakes finish the scatter (R188 step 1, R244-R252). -/
def execScatterComplete (ctx : Fin 16) (s : State) : Result :=
  .next (s.scatterStep ctx)

/-- The member's boundary (R188 steps 2-6). -/
def execStepBoundary (ctx : Fin 16) (far : List Byte) (s : State) : Result :=
  .next (s.boundary ctx far)

end Sys2Proof.Machine
end

