-- ==== Sys2Proof/Machine/BSlot.lean ====
section
/-! DEFINITION. Machine/BSlot.lean: the B-slot operations (R82, R86, R92; 03_suina_core.md). -/
namespace Sys2Proof.Machine

/-- The halted core's earlier operations have completed: it is READY, and the source of its launch hears of it (R82,
R405). -/
def State.haltDone (s : State) (n : Nat) : State :=
  let k := s.core n
  if k.halting && decide (k.engine.queue = []) && decide (k.xops = []) then
    let s := (s.modCore n fun k => { k with halting := false, src := .none }).setCoreState n coreReady
    match k.src with
    | .command ld cid => s.cmdEnd ld cid 0 0 0 n
    | _ => s
  else s

/-- `HALT_COMPLETE` (R82). -/
def execHaltComplete (core : Fin 512) (s : State) : Result :=
  .next (s.haltDone core)

/-- `BEQ_BNE_BLT_BGE_BLTU_BGEU` (R86). -/
def execBeqBneBltBgeBltuBgeu (core : Fin 512) (c : BCond) (rs1 rs2 : BitVec 5) (off : BitVec 14)
    (w : Bundle) (s : State) : Result :=
  .next (s.bundle core (withB w (.bc c rs1 rs2 off)))

/-- `J` (R86). -/
def execJ (core : Fin 512) (off : BitVec 24) (w : Bundle) (s : State) : Result :=
  .next (s.bundle core (withB w (.j off)))

/-- `CALL` (R86). -/
def execCall (core : Fin 512) (off : BitVec 24) (w : Bundle) (s : State) : Result :=
  .next (s.bundle core (withB w (.call off)))

/-- `JR` (R86). -/
def execJr (core : Fin 512) (rs1 : BitVec 5) (w : Bundle) (s : State) : Result :=
  .next (s.bundle core (withB w (.jr rs1)))

/-- `CALLR` (R86). -/
def execCallr (core : Fin 512) (rs1 : BitVec 5) (w : Bundle) (s : State) : Result :=
  .next (s.bundle core (withB w (.callr rs1)))

/-- `RET` (R86). -/
def execRet (core : Fin 512) (w : Bundle) (s : State) : Result :=
  .next (s.bundle core (withB w .ret))

/-- `LOOP` (R86). -/
def execLoop (core : Fin 512) (lc : BitVec 2) (rs1 : BitVec 5) (len : BitVec 17) (w : Bundle) (s : State) : Result :=
  .next (s.bundle core (withB w (.loop lc rs1 len)))

/-- `LEND` (R86). -/
def execLend (core : Fin 512) (lc : BitVec 2) (w : Bundle) (s : State) : Result :=
  .next (s.bundle core (withB w (.lend lc)))

/-- `WAIT` (R86). -/
def execWait (core : Fin 512) (rs1 : BitVec 5) (w : Bundle) (s : State) : Result :=
  .next (s.bundle core (withB w (.wait rs1)))

/-- `HALT` (R82). -/
def execHalt (core : Fin 512) (w : Bundle) (s : State) : Result :=
  .next (s.bundle core (withB w (.halt 0#16)))

/-- `BRK` (R92). -/
def execBrk (core : Fin 512) (code : BitVec 16) (w : Bundle) (s : State) : Result :=
  .next (s.bundle core (withB w (.brk code)))

end Sys2Proof.Machine
end

