-- ==== Sys2Proof/Machine/Barge.lean ====
section
/-! DEFINITION. Machine/Barge.lean: the expert exchange's commands (R263-R283; 10_expert_exchange.md). -/
namespace Sys2Proof.Machine

/-- A part of one kind arrives at the Barge endpoint (R268, R270, R275): 1 dispatch, 2 return. -/
def State.partOf (s : State) (kind : Nat) (p : Part) : State :=
  if partKind p.bytes = kind then (s.bargePart p).2 else s

/-- An awaited half is complete (R271). -/
def State.bwaitComplete (s : State) (n tag : Nat) (drop : List Nat) : State :=
  match (s.core n).xop tag 0x4D with
  | some x => if (s.ctx (s.ctxOf n)).waitMet x then s.bwaitDone n x drop else s
  | none => s

/-- A write of `BARGE_DOWN_CLR` (R278): at the helm it acts at the next boundary; elsewhere it is recorded. -/
def State.downClear (s : State) (c bits detail : Nat) : State :=
  if bits = 0 then s
  else if !s.helm c then s.errlog .barge c 2 0x180 0 detail
  else s.modCtx c fun x => { x with downClr := x.downClr ||| bits }

/-- `X_BSEND` (R263). -/
def execXBsend (core : Fin 512) (tag : BitVec 6) (src : BitVec 14) (layer : BitVec 8) (half : Bool)
    (rowbase : BitVec 10) (count : BitVec 7) (total : BitVec 10) (w : Bundle) (s : State) : Result :=
  .next (s.bundle core (withX w (.bsend tag src layer half rowbase count total)))

/-- A half closes (R265-R267). -/
def execBargeClose (ctx : Fin 16) (layer : BitVec 8) (half : Bool) (far : List Byte) (s : State) : Result :=
  .next (s.closeHalf ctx layer.toNat half far)

/-- A dispatch part arrives (R268, R270). -/
def execDispatchPart (p : Part) (s : State) : Result :=
  .next (s.partOf 1 p)

/-- `X_BWAIT` (R271). -/
def execXBwait (core : Fin 512) (tag : BitVec 6) (dst : BitVec 14) (layer : BitVec 8) (half side : Bool)
    (host : BitVec 12) (w : Bundle) (s : State) : Result :=
  .next (s.bundle core (withX w (.bwait tag dst layer half side host)))

/-- A wait's parts have all arrived (R271). -/
def execBwaitComplete (core : Fin 512) (tag : BitVec 6) (drop : List Nat) (s : State) : Result :=
  .next (s.bwaitComplete core tag.toNat drop)

/-- `X_BRET` (R272). -/
def execXBret (core : Fin 512) (tag : BitVec 6) (host : BitVec 12) (half : Bool) (w : Bundle) (s : State) : Result :=
  .next (s.bundle core (withX w (.bret tag host half)))

/-- A return part arrives (R275). -/
def execReturnPart (p : Part) (s : State) : Result :=
  .next (s.partOf 2 p)

/-- Parts of a half are late (R277). -/
def execBargeRetTimeout (ctx : Fin 16) (layer : BitVec 8) (half side : Bool) (s : State) : Result :=
  .next (s.bargeTimeout ctx (halfKey layer.toNat half) (b2n side))

/-- A DRAINING barge becomes FREE (R276). -/
def execBargeDrainMax (ctx : Fin 16) (tag : BitVec 12) (s : State) : Result :=
  .next (s.drainMax ctx tag.toNat)

/-- A rebalance epoch ends (R281, R282): `others` are the loads of the convoy's other senders, as layer, expert and
count, and `spares` the spare entries of the other hosts, as layer, node and index (log entry 43). -/
def execRebalanceEpoch (ctx : Fin 16) (others spares : List (Nat × Nat × Nat)) (s : State) : Result :=
  .next (s.rebalance ctx others spares)

/-- A new replica's weights have been copied (R282). -/
def execReplicaCopyDone (ctx : Fin 16) (layer : BitVec 8) (expert : BitVec 12) (index : Fin 8) (data : List Byte)
    (failed : Bool) (s : State) : Result :=
  .next (s.replicaCopied ctx layer.toNat expert.toNat index data failed)

end Sys2Proof.Machine
end

