-- ==== Sys2Proof/Machine/Board.lean ====
section
/-! DEFINITION. Machine/Board.lean: power entry, sideband pins, laser sources and fibre arrays
(R16-R21, R28-R44; 01_module_power_entry_and_pins.md), and the clocks (R49-R55; 02_clocks_reset_and_boot.md).
Each command is the accepted change of a pin or a threshold; the deglitch and hold times are the sender's (R28). -/
namespace Sys2Proof.Machine

/-- Turns the main conversion off, with no orderly halt: every domain but management loses power and is held in
reset (R29, R39, R40). -/
def State.mainOff (s : State) : State :=
  let s := s.moduleReset
  { s with
    board := { s.board with mainOn := false, railsOk := false, good1ms := false }
    power := { s.power with inReset := true } }

/-- Starts the main conversion if PWR_EN asks for it and nothing holds it (R18, R20, R29, R30, R43, R44, R60). -/
def State.tryStart (s : State) : State :=
  let b := s.board
  if b.pwrEn && b.standby && b.vinOk && !b.offHold && !b.shutdown && !b.thermTrip && !b.p3 && !b.mainOn then
    { s with board := { b with mainOn := true, pwrEnHeld := false, off100 := false } }
  else if b.pwrEn && !b.mainOn then { s with board := { b with pwrEnHeld := true } }
  else s

/-- Releases THERM_TRIP_L once PWR_EN has been off for 100 ms and every die sensor reads below 95 degrees (R43). -/
def State.tripRelease (s : State) : State :=
  if s.board.thermTrip && s.board.off100 && s.board.sensorsBelow95 then
    { s with board := { s.board with thermTrip := false } }
  else s

/-- PWR_GOOD as the management domain drives it (R39). -/
def State.pwrGood (s : State) : Bool := s.board.standby && s.board.mgmtUp && s.board.mainOn && s.board.railsOk

/-- The power-up sequence begins: the module domain leaves reset and the root PLL begins to lock (R50, R70). -/
def State.startSequence (s : State) : State :=
  let s := s.put R.CLK_STATUS.SYSREF_OK 0 (b2n s.board.sysref)
  let s := { s with power := { s.power with inReset := false, seqHold := true, retryStatus := true } }
  let s := s.put R.PWR_STATUS.ALERT_PIN 0 (b2n s.board.capAlert)
  if s.board.coolant then s.coolantCondition 2 true else s

/-- Starts the sequence when PERST_L is released and PWR_GOOD has been high for 1 ms (R40, R70). -/
def State.maybeStartSequence (s : State) : State :=
  if s.pwrGood && s.board.good1ms && !s.board.perst && s.power.inReset then s.startSequence else s

/-- PWR_EN accepted asserted (R21, R28, R29, R30, R43). -/
def execPwrEnAssert (s : State) : Result :=
  let s := { s with board := { s.board with pwrEn := true } }
  .next s.tripRelease.tryStart

/-- PWR_EN accepted deasserted: the main conversion goes off at once and stays off for 100 ms (R29, R30, R72). -/
def execPwrEnDeassert (s : State) : Result :=
  let s := if s.board.mainOn then s.mainOff else s
  .next { s with board := { s.board with
    pwrEn := false, pwrEnHeld := false, offHold := s.board.standby, off100 := false, p3 := false } }

/-- 100 ms after the deassertion: the R20 latch clears and FAULT_L and THERM_TRIP_L are released where PWR_EN has
stayed deasserted throughout, and a held re-assertion is acted on (R20, R30, R41, R43). -/
def execPwrEnOffHoldExpiry (s : State) : Result :=
  if s.board.offHold then
    let s := { s with board := { s.board with offHold := false } }
    let s :=
      if s.board.pwrEn then s
      else
        let s := s.put R.FAULT_STATUS.FAULT_L 0 0
        { s with board := { s.board with off100 := true, shutdown := false } }
    .next s.tripRelease.tryStart
  else .next s

/-- The input has risen to 53 V (R18, R29). -/
def execMainConversionPermitted (s : State) : Result :=
  .next ({ s with board := { s.board with vinOk := true } } : State).tryStart

/-- The input has fallen below 50 V (R18). -/
def execMainConversionForcedOff (s : State) : Result :=
  let s := if s.board.mainOn then s.mainOff else s
  .next { s with board := { s.board with vinOk := false } }

/-- The standby converter comes on; the management domain is held in reset for 2 ms (R37, R62). -/
def execStandbyConverterOn (s : State) : Result :=
  let s := s.mgmtReset
  .next { s with board := { s.board with standby := true, mgmtUp := false } }

/-- The standby converter goes off: the module is unpowered and every latch clears (R18, R20, R37, R41, R441). -/
def execStandbyConverterOff (s : State) : Result :=
  let s := (s.put R.FAULT_STATUS.FAULT_L 0 0).mgmtReset
  .next { s with
    board := { s.board with
      standby := false, mgmtUp := false, vinOk := false, mainOn := false, railsOk := false, good1ms := false,
      shutdown := false, thermTrip := false, tripHalting := false, offHold := false, off100 := false,
      p3 := false, mgmtFromRoot := false, mgmtFree := false }
    power := { s.power with inReset := true } }

/-- The management reset ends and the management domain runs: a fresh nonce (R480), every debug scope closed
(R486), and the module's power-up sequence follows where the rails are good (R62). -/
def execMgmtResetEnd (s : State) : Result :=
  if s.board.standby && !s.board.mgmtUp then
    let s := { s with board := { s.board with mgmtUp := true, mgmtFree := !s.board.sysref } }
    let s := s.newNonce
    .next s.maybeStartSequence
  else .next s

/-- 2 s without service of the MC watchdog: a management reset (R62). -/
def execMcWatchdogExpiry (s : State) : Result :=
  let s := s.mgmtReset
  .next { s with
    board := { s.board with mgmtUp := false, tripHalting := false }
    power := { s.power with inReset := true } }

/-- The latched shutdown of R20, for overvoltage (0) or overcurrent (1). -/
def State.inputShutdown (s : State) (kind mv ma10 : Nat) : State :=
  if s.board.mainOn then
    let s := s.fatal (.page .pwr 0) 0x5002 (w4 [kind, mv, ma10])
    let s := s.mainOff
    { s with board := { s.board with shutdown := true } }
  else s

/-- Input above 66 V for more than 10 µs (R18, R20, R41, R44). `mv` and `ma10` are the readings the record carries. -/
def execOvervoltageShutdown (mv ma10 : Nat) (s : State) : Result := .next (s.inputShutdown 0 mv ma10)

/-- Input current above 60 A for more than 10 µs (R18, R20, R41, R44). -/
def execOvercurrentShutdown (mv ma10 : Nat) (s : State) : Result := .next (s.inputShutdown 1 mv ma10)

/-- Every main rail is in regulation (R39). -/
def execMainRailsInRegulation (s : State) : Result :=
  .next (if s.board.mainOn then { s with board := { s.board with railsOk := true } } else s)

/-- A main rail leaves regulation: PWR_GOOD goes low and the module domain is held in reset (R39, R40). -/
def execMainRailOutOfRegulation (s : State) : Result :=
  if s.board.railsOk then
    let s := s.moduleReset
    .next { s with
      board := { s.board with railsOk := false, good1ms := false }
      power := { s.power with inReset := true } }
  else .next s

/-- PWR_GOOD has been high for 1 ms; with PERST_L released the sequence of R70 starts here (R40). -/
def execPwrGoodHoldElapsed (s : State) : Result :=
  if s.pwrGood then .next ({ s with board := { s.board with good1ms := true } } : State).maybeStartSequence
  else .next s

/-- PERST_L accepted asserted: every domain but management is held in reset; no sideband output changes (R31, R72). -/
def execPerstLAssert (s : State) : Result :=
  let s := s.moduleReset
  .next { s with board := { s.board with perst := true }, power := { s.power with inReset := true } }

/-- PERST_L accepted released: the power-up sequence begins (R40, R70). -/
def execPerstLRelease (s : State) : Result :=
  .next ({ s with board := { s.board with perst := false } } : State).maybeStartSequence

/-- CAP_ALERT_L accepted asserted (R32, R52, R442, R451). -/
def execCapAlertLAssert (s : State) : Result := .next s.alertAssert

/-- CAP_ALERT_L accepted released (R442). -/
def execCapAlertLRelease (s : State) : Result := .next s.alertRelease

/-- COOLANT_FAULT_L accepted asserted (R32, R444). -/
def execCoolantFaultLAssert (s : State) : Result := .next (s.coolantCondition 2 true)

/-- COOLANT_FAULT_L accepted released: the 10 s before the coolant fault ends begin (R444). -/
def execCoolantFaultLRelease (s : State) : Result := .next (s.coolantCondition 2 false)

/-- Laser source `e` is removed or its interlock opens: the links it feeds go DOWN with cause 5 (R16, R17, R339). -/
def execElsRemoved (e : Fin 2) (s : State) : Result :=
  let t := (List.range 16).foldl (fun s i => s.linkLost (16 * e + i) 5) s
  .next { t with board := { s.board with els := clrBit s.board.els e } }

/-- Laser source `e` is seated and its interlock closed (R16, R17). -/
def execElsInserted (e : Fin 2) (s : State) : Result :=
  .next { s with board := { s.board with els := setBit s.board.els e } }

/-- Fibre array `a` is unmated and uncapped: emission stops on its enabled links, which go DOWN with cause 6
(R17, R339). -/
def execFibreArrayUnmated (a : Fin 2) (s : State) : Result :=
  let t := (List.range 16).foldl (fun s i => s.linkLost (16 * a + i) 6) s
  .next { t with board := { s.board with fibre := clrBit s.board.fibre a } }

/-- Fibre array `a` is mated or capped again (R17). -/
def execFibreArrayMated (a : Fin 2) (s : State) : Result :=
  .next { s with board := { s.board with fibre := setBit s.board.fibre a } }

/-! ### Clocks -/

/-- Boot enters recovery wait with a cause (R68, R73). -/
def State.enterRecovery (s : State) (cause : Nat) : State :=
  let s := s.put R.BOOT_STATUS.STAGE 0 0xE
  let s := s.put R.BOOT_STATUS.FAIL_CAUSE 0 cause
  let s := { s with power := { s.power with recovery := true } }
  s.raise (.page .boot 0) none 0x0002 (w4 [cause])

/-- The root PLL locks: the dividers run, TICK starts at 0 and the boot ROM runs, which enters recovery wait at
once where FORCE_RECOVERY asks for it (R49, R50, R54, R70, R73). -/
def execRootPllLock (s : State) : Result :=
  if s.power.seqHold && s.board.sysref then
    let s := s.put R.CLK_STATUS.ROOT_LOCK 0 1
    let s := s.put R.CLK_STATUS.SYSREF_OK 0 1
    let s := { s with
      tick := 0
      board := { s.board with mgmtFromRoot := true, mgmtFree := false }
      power := { s.power with seqHold := false } }
    .next (if s.on R.BOOT_CTRL.FORCE_RECOVERY && decide (s.sec.fuses.life < 4) then s.enterRecovery 0 else s.put R.BOOT_STATUS.STAGE 0 1)
  else .next s

/-- The clock of the main domain is lost: EV_CLK_UNLOCK, FAULT_L, and the main domain stops with no orderly halt
(R50). -/
def State.clockLost (s : State) (why : Nat) : State :=
  let s := s.fatal (.page .clk 0) 0x5001 (w4 [why])
  let s := s.put R.CLK_STATUS.ROOT_LOCK 0 0
  { s with power := { s.power with stopped := true } }

/-- SYS_REFCLK is lost after the root PLL has locked (R50). -/
def execSysRefclkLoss (s : State) : Result :=
  let s := { s with board := { s.board with sysref := false } }
  let locked := s.on R.CLK_STATUS.ROOT_LOCK
  let s := s.put R.CLK_STATUS.SYSREF_OK 0 0
  .next (if locked then s.clockLost 0 else s)

/-- The root PLL loses lock while the main domain runs (R50). -/
def execRootPllUnlock (s : State) : Result :=
  .next (if s.on R.CLK_STATUS.ROOT_LOCK then s.clockLost 1 else s)

/-- SYS_REFCLK is absent while only the management domain is powered: its PLL runs free (R49). -/
def execMgmtPllFreeRun (s : State) : Result :=
  if s.board.mainOn then .next s
  else
    let s := s.put R.CLK_STATUS.SYSREF_OK 0 0
    .next { s with board := { s.board with sysref := false, mgmtFree := true } }

/-- SYS_REFCLK appears: the management PLL locks and SYSREF_OK goes to 1 (R49, R50). -/
def execSysRefclkReturn (s : State) : Result :=
  let s := s.put R.CLK_STATUS.SYSREF_OK 0 1
  .next { s with board := { s.board with sysref := true, mgmtFree := false } }

/-- The ÷7 divider is granted to die `d` while every condition of R51 holds. -/
def execBoostGrant (d : Fin 8) (s : State) : Result :=
  .next (if s.boostAllowed d then
    s.put R.CLK_STATUS.BOOST_ACTIVE 0 (setBit (s.fld R.CLK_STATUS.BOOST_ACTIVE) d)
  else s)

end Sys2Proof.Machine
end

