-- ==== Sys2Proof/Machine/Resets.lean ====
section
/-! DEFINITION. Machine/Resets.lean: power states and the reset requests (R56-R66, R411, R515;
02_clocks_reset_and_boot.md). The requests that may meet a self-test are in
Machine/HostPort.lean. -/
namespace Sys2Proof.Machine

/-! ### Power states -/

/-- Every context is QUIESCED or DISABLED (R415). -/
def State.allQuiesced (s : State) : Bool :=
  (List.range 16).all fun c => decide (s.fld R.CTX_STATUS.STATE c = ctxDisabled ∨ s.fld R.CTX_STATUS.STATE c = ctxQuiescedCode)

/-- No context has a step in flight and no core is RUNNING (R56). -/
def State.p1Ready (s : State) : Bool :=
  ((List.range 16).all fun c => !(s.ctx c).member.active) &&
    (List.range 512).all fun n => decide (s.coreState n ≠ coreRunning)

/-- A write refused for the state of the module: KIND 2 on the DEV page (R58, R525). -/
def State.devRefused (s : State) (detail : Nat) : State := s.errlog .dev 0 2 0x100 0 detail

/-- A power target acts, or is held while a transition runs (R56-R60). `detail` names its writer. -/
def State.powerTarget (s : State) (t detail : Nat) : State :=
  let cur := s.fld R.DEV_PWR.CURRENT
  if s.on R.DEV_PWR.BUSY then { s with power := { s.power with heldTarget := some t } }
  else if t = cur then { s with power := { s.power with p1Pending := false } }
  else if t = 0 then s.wake
  else if t = 1 then
    if cur = 2 then
      let s := s.wake
      { s with power := { s.power with heldTarget := some 1 } }
    else if s.p1Ready then s.put R.DEV_PWR.CURRENT 0 1
    else { s with power := { s.power with p1Pending := true } }
  else if !s.allQuiesced then s.devRefused detail
  else if t = 2 then
    let s := s.put R.DEV_PWR.BUSY 0 1
    { s with power := { s.power with goingTo := some 2, p1Pending := false } }
  else
    let s := { s with board := { s.board with p3 := true } }
    s.mainOff

/-- A deferred entry to P1 takes place (R56). -/
def execP1Entry (s : State) : Result :=
  .next (if s.power.p1Pending && s.p1Ready then
    ({ s with power := { s.power with p1Pending := false } } : State).put R.DEV_PWR.CURRENT 0 1
  else s)

/-- A core whose memories have been powered off: its registers, engine, caches and scratchpad are clear (R61). -/
def Core.powerOff (k : Core) : Core :=
  { Core.reset with
    bistPassed := k.bistPassed
    clearBad := k.clearBad
    dropped := k.dropped
    gauge := k.gauge
    gaugeOvf := k.gaugeOvf
    gaugeSel := k.gaugeSel
    snapGauge := k.snapGauge }

/-- The registers and memories of a completed transition (R61). -/
def State.enterPower (s : State) (t : Nat) : State :=
  let was := s.fld R.DEV_PWR.CURRENT
  let s := (s.put R.DEV_PWR.BUSY 0 0).put R.DEV_PWR.CURRENT 0 t
  let s := { s with power := { s.power with goingTo := none } }
  if t = 0 ∧ was = 2 then { s with cores := s.cores.map fun e => (e.1, e.2.powerOff) } else s

/-- Doorbells that waited for P0 take effect (R57). -/
def State.releaseDoorbells (s : State) : State :=
  let l := s.power.heldDoorbells
  l.foldl (fun (s : State) (d : Nat × Nat × Nat) => s.doorbellTake d.1 d.2.1 d.2.2)
    { s with power := { s.power with heldDoorbells := [] } }

/-- The newest TARGET written during a transition is acted on (R59). -/
def State.heldTarget (s : State) : State :=
  match s.power.heldTarget with
  | some t => ({ s with power := { s.power with heldTarget := none } } : State).powerTarget t 0
  | none => s

/-! ### Reset requests -/

/-- A write of `RST_MODULE` (R62, R63). -/
def State.rstModule (s : State) (key : Nat) : State :=
  if key = 0x0000A5E1 then s.moduleReset.maybeStartSequence else s

/-- A request for a link reset (R62, R64). -/
def State.rstLink (s : State) (k : Nat) : State :=
  if s.resets.any fun r => decide (r.domain = 2) && decide (r.inst = k) then s
  else
    let s := { s with resets := s.resets ++ [(⟨2, k, false, false⟩ : ResetRec)] }
    (s.put R.RST_LINK_STATUS.LINK 0 (setBit (s.fld R.RST_LINK_STATUS.LINK) k)).linkReset k

/-- The drain of an LD or context reset of context n ends (R65). -/
def execResetDrainEnd (n : Fin 16) (s : State) : Result :=
  match s.resets.find? fun r => decide (3 ≤ r.domain) && decide (r.inst = n.val) && !r.drained with
  | some r =>
    let s := s.endDrain r
    .next { s with resets := s.resets.map fun q => if q.domain = r.domain ∧ q.inst = r.inst then { q with drained := true } else q }
  | none => .next s

/-- A reset in progress completes (R66); none does while the module is halted (R510). -/
def execResetDone (domain inst : Nat) (s : State) : Result :=
  match s.resets.find? fun r => decide (r.domain = domain) && decide (r.inst = inst) with
  | some r => .next (if s.haltBegun then s else s.resetComplete r)
  | none => .next s

/-- RESET_BUSY is still 1 50 ms into an LD reset: the module halts (R515). -/
def execLdResetStuck (n : Fin 16) (s : State) : Result :=
  .next (if s.on R.LD_STATUS.RESET_BUSY n then s.halt (.page .ld n) 0x5803 (w4 [n]) else s)

end Sys2Proof.Machine
end

