-- ==== Sys2Proof/Machine/Boot.lean ====
section
/-! DEFINITION. Machine/Boot.lean: checking and starting an image, the power-up sequence, recovery and the flash
(R61, R67-R74, R467, R468, R474, R475; 02_clocks_reset_and_boot.md, 19_lifecycle_security_debug.md). -/
namespace Sys2Proof.Machine

/-- Little-endian word of an image. -/
def imgWord (img : List Byte) (off n : Nat) : Nat := ofLe ((img.drop off).take n)

def imgBody (img : List Byte) : List Byte := (img.drop 256).take (imgWord img 0x00C 4)

/-- The bytes an image's signature covers (R67). -/
def imgSigned (img : List Byte) : List Byte := img.take 0x20 ++ imgBody img

/-- Key slot `k`'s hash in the fuse array: 0 Holyon's, 1-4 the owners'. -/
def Fuses.slotHash (f : Fuses) (k : Nat) : List Byte :=
  if k = 0 then f.holyonHash else (f.owners[k - 1]?.getD OwnerSlot.empty).hash

/-- An owner slot takes part: enrolled and not revoked (R467). -/
def Fuses.ownerActive (f : Fuses) (k : Nat) : Bool :=
  match f.owners[k - 1]? with
  | some o => decide (1 ≤ k) && o.enrolled && !o.revoked
  | none => false

/-- Firmware key slots that a lifecycle state accepts (R467, R474). -/
def Fuses.fwSlotOk (f : Fuses) (k : Nat) : Bool :=
  match f.life with
  | 0 | 1 | 3 => decide (k = 0)
  | 2 => decide (k = 0) || (decide (k ≤ 4) && f.ownerActive k && (f.owners[k - 1]?.getD OwnerSlot.empty).fwSign)
  | _ => false

/-- The public key that an image body opens with (R474). -/
def imgKey (img : List Byte) : List Byte := (imgBody img).take 136

/-- The first check of R68 and R474 that an image fails, as FAIL_CAUSE; 0 where it is accepted. -/
def State.imageCause (s : State) (img : List Byte) : Nat :=
  let f := s.sec.fuses
  let slot := imgWord img 0x014 4
  if img.length < 256 ∨ imgWord img 0 4 ≠ 0x52494C39 ∨ imgWord img 4 4 ≠ 1 ∨ 4194304 - 256 < imgWord img 0x00C 4 then 2
  else if !f.fwSlotOk slot || decide (Config.sha512 ((imgKey img).take 133) ≠ f.slotHash slot) then 3
  else if !Config.ecdsaVerify (imgKey img) (imgSigned img) ((img.drop 0x20).take 132) then 4
  else if imgWord img 8 4 < f.svn then 5
  else 0

/-- SVN of the running image. -/
def State.imageSvn (s : State) : Nat := imgWord s.power.image 8 4

/-- The two labels of the key derivation (R475). -/
def labelIdentity : List Byte := [0x69, 0x64, 0x65, 0x6E, 0x74, 0x69, 0x74, 0x79]
def labelAlias : List Byte := [0x61, 0x6C, 0x69, 0x61, 0x73]

/-- An accepted image starts: keys are derived (R475), links train under its plan (R70), and the sequence goes on to
the HBM step. A reserved plan value stands for a freely drawn plan. -/
def State.startImage (s : State) (img : List Byte) : State :=
  let v := imgWord img 0x018 8
  let draw := s.freeNat 2
  let plan := if v < 4 then v else draw.1
  let s := if v < 4 then s else draw.2
  let digest := Config.sha512 (imgSigned img)
  let held := decide (s.sec.fuses.life = 1 ∨ s.sec.fuses.life = 2)
  let secret := s.sec.fuses.secret
  let identity := Config.kdf secret labelIdentity
  let second := Config.kdf secret (labelAlias ++ digest ++ leBytes (imgWord img 8 4) 4)
  let s := { s with
    power := { s.power with image := img, running := true, recovery := false, startPlan := plan }
    sec := { s.sec with
      identity := []
      identityPub := if held then Config.ecdsaPublic identity else []
      aliasKey := if held then second else []
      aliasCert := if held then Config.certify identity (Config.ecdsaPublic second) else [] } }
  let s := s.put R.BOOT_STATUS.STAGE 0 3
  (List.range 32).foldl (fun s k => s.trainLink k) s

/-! ### The power-up sequence -/

/-- The image in flash: its header, and as much body as the header names. -/
def State.flashImage (s : State) : List Byte :=
  let head := tgetAll 0 s.power.flash 0 256
  head ++ (if imgWord head 0x00C 4 ≤ 4194304 - 256 then tgetAll 0 s.power.flash 256 (imgWord head 0x00C 4) else [])

/-- The image has been read from flash and is checked (R68, R70, R73, R468). The flash that an interrupted FLASH_WRITE
left is refused with a cause the spec does not give (R74). -/
def execFlashImageReadDone (readable : Bool) (s : State) : Result :=
  if s.on R.CLK_STATUS.ROOT_LOCK && decide (s.fld R.BOOT_STATUS.STAGE = 1) then
    let img := s.flashImage
    let draw := s.freeNat 32
    let s := if s.power.flashBad then draw.2 else s
    let cause := if !readable then 1 else if s.power.flashBad then 1 + draw.1 % 5 else s.imageCause img
    if 4 ≤ s.sec.fuses.life then .next ((s.put R.BOOT_STATUS.FAIL_CAUSE 0 3).put R.BOOT_STATUS.STAGE 0 0xF)
    else if cause = 0 then .next (s.startImage img)
    else .next (s.enterRecovery cause)
  else .next s

/-- Stack training ends: each stack that failed is excluded until a module reset (R71, R506). Bit s of `failed` is stack Ss. After a die reset only
that die's stacks train. -/
def execHbmTrainingDone (failed : BitVec 32) (s : State) : Result :=
  let boot := decide (s.fld R.BOOT_STATUS.STAGE = 3)
  let trains (i : Nat) : Bool := boot || s.resets.any fun r => decide (r.domain = 1) && decide (r.inst = i / 4)
  let bad := bitMap 32 fun i => trains i && bit failed.toNat i
  let s := { s with power := { s.power with hbmExcluded := s.power.hbmExcluded ||| bad } }
  .next ((bitsSet bad 32).foldl (fun s i => s.raise (.other 0x0024 i) none 0x2001 (w4 [i])) s)

/-- Zero-fill is complete (R61, R70). -/
def execHbmZeroFillDone (s : State) : Result :=
  if s.fld R.BOOT_STATUS.STAGE = 3 then
    let s : State := { s with hbm := [], power := { s.power with hbmFilled := true } }
    .next ((List.range 8).foldl (fun s d => s.put R.BASIN_STATUS.CLEAR_BUSY d 1) (s.put R.BOOT_STATUS.STAGE 0 4))
  else .next s

/-- Firmware reserves its tables in S0-S3, at a place the spec does not give (R63, R251, R389). -/
def State.reserveTables (s : State) : State :=
  let draw := s.freeNat 32
  { draw.2 with power := { draw.2.power with fwBase := some (draw.1 % (1572864 - 1408)) } }

/-- Firmware gives a context an empty root table and descriptor table in T2, and writes their addresses (R7, R217). -/
def State.giveTables (s : State) (c : Nat) : State :=
  let draw := s.freeNat 32
  let s := draw.2
  match s.hbmPick draw.1 with
  | some n =>
    let s := { s with hbmUse := tset Use.none s.hbmUse n ⟨5, c⟩ }
    (s.put R.XLAT_ROOT.ADDR c (n * 16)).put R.XLAT_SEQTAB.ADDR c (n * 4 + 1)
  | none => s

/-- The flags of the owner slots in `SEC_LIFECYCLE`, as the fuses give them. -/
def State.showSlots (s : State) : State :=
  let flag (g : OwnerSlot → Bool) : Nat := bitMap 4 fun i => g (s.sec.fuses.owners[i]?.getD OwnerSlot.empty)
  let s := s.put R.SEC_LIFECYCLE.ENROLLED 0 (flag fun o => o.enrolled)
  let s := (s.put R.SEC_LIFECYCLE.REVOKED 0 (flag fun o => o.revoked)).put R.SEC_LIFECYCLE.FW_SIGN 0 (flag fun o => o.fwSign)
  s.put R.SEC_LIFECYCLE.DEBUG_SIGN 0 (flag fun o => o.debugSign)

/-- The SEC registers that boot loads from the fuses. -/
def State.showFuses (s : State) : State :=
  let f := s.sec.fuses
  let s := (s.showSlots.put R.SEC_LIFECYCLE.STATE 0 f.life).put R.SEC_LIFECYCLE.SECRET_VALID 0
    (b2n (decide (f.life = 1 ∨ f.life = 2)))
  s.put R.SEC_DEVICE_ID.ID 0 f.deviceId

/-- An enabled link that is not up by the ready step stays down and keeps retrying (R71). -/
def State.lateLink (s : State) (k : Nat) : State :=
  if s.linkState k = 1 then
    let s := s.raise (linkUnit k) none 0x2401 (w4 [k, s.fld R.LINK_STATE.LIGHT (k / 16) (k % 16)])
    (s.setLinkLayer k { s.linkLayer k with trainFailed := true }).setLink k 4
  else s

/-- Boot reaches ready (R7, R61, R70, R71). -/
def execBootReady (s : State) : Result :=
  if s.fld R.BOOT_STATUS.STAGE = 4 then
    let s := (s.put R.BOOT_STATUS.SVN_FUSED 0 s.sec.fuses.svn).put R.BOOT_STATUS.SVN_IMAGE 0 s.imageSvn
    let s := (s.put R.LINK_PLAN.PLAN 0 s.power.startPlan).put R.SEC_FW_SLOT.SLOT 0 (imgWord s.power.image 0x014 4)
    let s := s.showFuses.reserveTables
    let s := (List.range 16).foldl State.giveTables s
    let s := (List.range 8).foldl (fun s d => s.put R.BASIN_STATUS.CLEAR_BUSY d 0) s.clearAllScr
    let s := { s with basin := [], power := { s.power with retryStatus := false } }
    let s := (s.put (hdrReady .dev) 0 1).put R.BOOT_STATUS.STAGE 0 5
    let s := s.raise (.page .boot 0) none 0x0001 (w4 [s.imageSvn])
    let s := s.raise rstUnit none 0x0003 (w4 [0, 0])
    .next ((List.range 32).foldl State.lateLink s)
  else .next s

/-! ### Recovery and the flash -/

/-- The mailbox command fails (R73, R74). -/
def State.mboxFail (s : State) (cause : Nat) : State :=
  (s.put R.BOOT_MBOX_STATUS.STATE 0 3).put R.BOOT_MBOX_STATUS.CAUSE 0 cause

/-- A write of `BOOT_MBOX_CMD` (R73, R74): LOAD in recovery wait, FLASH_WRITE from running firmware; while BUSY it has no
effect. -/
def State.bootCommand (s : State) (cmd : Nat) : State :=
  let ok := if cmd = 1 then s.power.recovery else s.power.running
  if s.fld R.BOOT_MBOX_STATUS.STATE = 1 ∨ ok = false then s
  else
    let s := (s.put R.BOOT_MBOX_STATUS.STATE 0 1).put R.BOOT_MBOX_STATUS.CAUSE 0 0
    s.emit (.hostRead 0 (s.fld R.BOOT_MBOX_ADDR.ADDR) (s.fld R.BOOT_MBOX_LEN.LEN))

/-- The recovery image has been read, or its DMA failed (R68, R73). -/
def execRecoveryLoadDone (data : Option (List Byte)) (s : State) : Result :=
  if s.power.recovery && decide (s.fld R.BOOT_MBOX_STATUS.STATE = 1) then
    match data with
    | none => .next ((s.mboxFail 6).put R.BOOT_STATUS.FAIL_CAUSE 0 6)
    | some img =>
      let cause := s.imageCause img
      if cause = 0 then .next ((s.put R.BOOT_MBOX_STATUS.STATE 0 2).startImage img)
      else .next ((s.mboxFail cause).put R.BOOT_STATUS.FAIL_CAUSE 0 cause)
  else .next s

/-- FLASH_WRITE ends: an image that fails R68 leaves the flash unchanged (R73, R74). -/
def execFlashWriteDone (data : Option (List Byte)) (s : State) : Result :=
  if s.power.running && decide (s.fld R.BOOT_MBOX_STATUS.STATE = 1) then
    match data with
    | none => .next (s.mboxFail 6)
    | some img =>
      let cause := s.imageCause img
      if cause = 0 then
        .next (({ s with power := { s.power with flash := tsetAll 0 s.power.flash 0 img, flashBad := false } } : State).put
          R.BOOT_MBOX_STATUS.STATE 0 2)
      else .next (s.mboxFail cause)
  else .next s

/-- A write of 1 to `SVN_COMMIT`: fuses are blown up to the running image's SVN (R69). -/
def State.svnCommit (s : State) : State :=
  if s.power.running && decide (s.sec.fuses.svn < s.imageSvn) then
    let s := { s with sec := { s.sec with fuses := { s.sec.fuses with svn := min 64 s.imageSvn } } }
    s.put R.BOOT_STATUS.SVN_FUSED 0 s.sec.fuses.svn
  else s

end Sys2Proof.Machine
end

