-- ==== Sys2Proof/Machine/Sluice.lean ====
section
/-! DEFINITION. Machine/Sluice.lean: the layer schedule's table, its marks and waits, and the ends of the Sluice's
transfers (R184-R203; 07_memory_tiers_and_sluice.md). The Sluice's commands are register writes: Machine/Bus.lean. -/
namespace Sys2Proof.Machine

/-- A range of a record: first subpage, count, tier, kind, pin; none where it holds a reserved encoding. -/
def schedRange (v : Nat) : Option (Nat × Nat × Nat × Nat × Bool) :=
  if field v 32 24 = 0 ∨ 2 ≤ field v 56 2 ∨ field v 58 2 = 3 ∨ field v 61 3 ≠ 0 then none
  else some (field v 0 32, field v 32 24, field v 56 2, field v 58 2, bit v 60)

/-- A record of the layer schedule; none where it holds a reserved encoding. -/
def schedRecord (bs : List Byte) : Option LayerSched :=
  let w := ofLe (bs.take 8)
  let rs := (List.range (field w 4 3)).map fun i => schedRange (ofLe ((bs.drop (8 + 8 * i)).take 8))
  if field w 7 57 ≠ 0 ∨ rs.any Option.isNone = true then none else some ⟨field w 0 4, rs.filterMap id⟩

/-- `SLUICE_CTRL.LST_RELOAD` (R191): what is read is used from the next boundary on. -/
def State.lstReload (s : State) (c : Nat) (far : List Byte) : State :=
  let n := s.fld R.SLUICE_LST_COUNT.COUNT c
  let r := s.ureadFar 0 c (s.addr R.SLUICE_LST_BASE.ADDR c) (64 * n) far
  match r.1 with
  | .bytes bs =>
    (List.range n).foldl (fun s i =>
      match schedRecord ((bs.drop (64 * i)).take 64) with
      | some l => s.modCtx c fun x => { x with schedNext := some (tset LayerSched.none (x.schedNext.getD []) i l) }
      | none => s.errlog .sluice c 4 i 0 0)
      (r.2.2.modCtx c fun x => { x with schedNext := some [] })
  | _ => r.2.2.errlog .sluice c 4 0 0 0

/-- A wait for a layer completes when the layer's ranges are readable (R193). -/
def State.lwaitDone (s : State) (n tag : Nat) : State :=
  match (s.core n).xop tag 0x45 with
  | some x => if s.layerReady (s.ctxOf n) x.a then s.xDone n tag else s
  | none => s

/-- A wait of the context for a layer has lasted longer than `SLUICE_TIER_WAIT_MAX` (R194). -/
def State.sluiceLate (s : State) (c l : Nat) : State :=
  let waits := (s.coresOf c).any fun n => (s.core n).xops.any fun x => decide (x.kind = 0x45 ∧ x.a = l)
  if waits && !s.layerReady c l && !(s.ctx c).member.lateTold.contains l then
    let s := (s.modCtx c fun x => { x with member := { x.member with lateTold := x.member.lateTold ++ [l] } }).bump
      R.SLUICE_LATE.COUNT c
    s.raise (sluiceUnit c) (some c) 0x1211 (w4 [l, s.fld R.STEP_NUMBER.STEP c % 2 ^ 32])
  else s

/-- A walk of the context that an engine has granted is under way. -/
def State.walkRuns (s : State) (c : Nat) : Bool :=
  (s.coresOf c).any fun n => (s.core n).xops.any fun x => decide (x.kind = 0x48) && x.granted

/-- A KV page in T3 is late: a read of it by a walk, or its transfer into T2 by a MOVE (R199). -/
def State.tierWait (s : State) (c sub : Nat) : State :=
  let e := s.homeLeaf c sub
  let m := (s.ctx c).move sub
  let moving := m != Copy.none && decide (m.state = 0) && decide (m.tier = 1)
  if decide (2 ≤ leafTier e) && (moving || s.walkRuns c) then s.tierFault c (leafTier e) (leafLoc e) else s

/-- Every 100 ms the write-backs that a failure holds are tried again (R203). -/
def State.retryStuck (s : State) (c : Nat) : State :=
  (s.ctx c).copies.foldl (fun s e =>
    if e.2.stuck && decide (e.2.state = 2) then
      s.modCtx c fun x => x.setCopy e.1 { e.2 with state := 3, written := false, retries := 0 }
    else s) s

/-- A Sluice transfer of a subpage ends (R184-R190, R202). -/
def execSluiceTransferDone (ctx : Fin 16) (sub : BitVec 32) (data : List Byte) (failed ue : Bool) (s : State) : Result :=
  .next (s.transferDone ctx sub.toNat data failed ue)

/-- RELEASING copies whose readers are gone are freed (R189). -/
def execCopyRelease (ctx : Fin 16) (s : State) : Result :=
  .next (s.freeReleased ctx)

/-- `X_LMARK` (R193). -/
def execXLmark (core : Fin 512) (tag : BitVec 6) (layer : BitVec 8) (w : Bundle) (s : State) : Result :=
  .next (s.bundle core (withX w (.lmark tag layer)))

/-- `X_LWAIT` (R193). -/
def execXLwait (core : Fin 512) (tag : BitVec 6) (layer : BitVec 8) (w : Bundle) (s : State) : Result :=
  .next (s.bundle core (withX w (.lwait tag layer)))

/-- An awaited layer is readable (R193). -/
def execLwaitComplete (core : Fin 512) (tag : BitVec 6) (s : State) : Result :=
  .next (s.lwaitDone core tag.toNat)

/-- `EV_SLUICE_LATE` (R194). -/
def execSluiceLate (ctx : Fin 16) (layer : BitVec 8) (s : State) : Result :=
  .next (s.sluiceLate ctx layer.toNat)

/-- A KV page in T3 is late (R199). -/
def execTierWaitExpiry (ctx : Fin 16) (sub : BitVec 32) (s : State) : Result :=
  .next (s.tierWait ctx sub.toNat)

/-- The periodic retry of stuck write-backs (R203). -/
def execWritebackRetry (ctx : Fin 16) (s : State) : Result :=
  .next (s.retryStuck ctx)

end Sys2Proof.Machine
end

