-- ==== Sys2Proof/Machine/Wharf.lean ====
section
/-! DEFINITION. Machine/Wharf.lean: the host port, its rings and commands, CXL.mem and Unordered I/O
(R392-R411; 15_host_port_and_logical_devices.md). Register writes are in Machine/RegRows.lean. -/
namespace Sys2Proof.Machine

/-! ### Configuration and MSI-X -/

/-- LD traffic is held: the link retrains (R392), or the port follows in a loop-back (R501). A request given meanwhile is
not taken (log entry 62). -/
def State.trafficHeld (s : State) : Bool := s.wharf.training || s.wharf.heldLds

/-- LD n's requests other than configuration requests are served: it is enabled and not in reset (R395, R411). -/
def State.ldServes (s : State) (n : Nat) : Bool := s.wharf.up && s.ldEnabled n && !s.ldInReset n && !s.power.inReset

/-- Unmasks or masks a vector; a pending message goes out as its vector is unmasked (R410). -/
def State.msixMask (s : State) (n v : Nat) (masked : Bool) : State :=
  let s := s.modWharf fun w => { w with msixOpen := tset false w.msixOpen (64 * n + v) (!masked) }
  if !masked && tget false s.wharf.msixPend (64 * n + v) && bit s.wharf.msixEn n then
    (s.modWharf fun w => { w with msixPend := tset false w.msixPend (64 * n + v) false }).emit (.msix n v)
  else s

/-- Enables or disables an LD's MSI-X; the messages of open vectors that are pending go out (R410). -/
def State.msixEnable (s : State) (n : Nat) (on : Bool) : State :=
  let s := s.modWharf fun w => { w with msixEn := if on then setBit w.msixEn n else clrBit w.msixEn n }
  (List.range 64).foldl (fun (s : State) v =>
    if tget false s.wharf.msixOpen (64 * n + v) then s.msixMask n v false else s) s

/-- A request that is served, by what it asks. An HDM decoder commits only 1-way and in units of 256 MiB up to 768 GiB
(R398). -/
def State.cfgServe (s : State) (n : Nat) : CfgRequest → State
  | .read => s.emit (.cfg n 2)
  | .msixEnable on => (s.msixEnable n on).emit (.cfg n 2)
  | .msixMask v m => s.msixMask n v m
  | .hdmCommit b ways =>
    if ways = 1 ∧ b % 2 ^ 28 = 0 ∧ 0 < b ∧ b ≤ hbmSize then s.modWharf fun w => { w with hdm := tset 0 w.hdm n (b / 2 ^ 28) }
    else s

/-- The request is a configuration request, not a memory request of BAR2. -/
def isCfg : CfgRequest → Bool
  | .read => true | .msixEnable _ => true | .msixMask _ _ => false | .hdmCommit _ _ => false

/-- A CXL.io request outside the register pages and the doorbells (R70, R393, R395, R398, R410, R411). -/
def execConfigurationRequest (ld : Fin 16) (r : CfgRequest) (s : State) : Result :=
  .next (if s.trafficHeld then s
  else if isCfg r && s.power.retryStatus then s.emit (.cfg ld 0)
  else if isCfg r && !s.ldEnabled ld then s.emit (.cfg ld 1)
  else if !isCfg r && !s.ldServes ld then s.emit (.unsupported ld)
  else s.cfgServe ld r)

/-! ### Doorbells and submission queues (R402-R406) -/

/-- A doorbell of LD n is written with a value and a size in bytes (R57, R395, R403, R411): 0 SQ tail, 1 CQ head,
2 TOK head, 3 EVQ head. -/
def execDoorbellWrite (ld : Fin 16) (k : Fin 4) (value : Word32) (size : BitVec 4) (s : State) : Result :=
  .next (if s.trafficHeld then s
  else if !s.ldServes ld then s.emit (.unsupported ld)
  else if size = 4 then s.doorbellWrite ld k value.toNat
  else s.doorbellBad ld k value.toNat)

/-- LD n's queues are served. -/
def State.sqServed (s : State) (n : Nat) : Bool :=
  s.ldServes n && !s.trafficHeld && s.on R.LD_CTRL.RINGS_EN n && !s.ctxInReset n && !s.halted && !s.asleep

/-- The next entry of LD n's submission queue is fetched (R404): it is there, fewer than 64 commands are outstanding, and
the CQ has room for their completions and its own. -/
def execSqFetch (ld : Fin 16) (entry : List Byte) (s : State) : Result :=
  let head := s.fld R.LD_SQ_HEAD.INDEX ld
  let n := (s.outstandingCmds ld).length
  .next (if s.sqServed ld && decide (s.doorbell ld 0 ≠ head ∧ n < 64 ∧ n + 1 ≤ s.ringRoom ld 0) then
    let s := s.put R.LD_SQ_HEAD.INDEX ld (head + 1)
    State.startBad ld 64 (s.modWharf fun w => { w with cmds := w.cmds ++ [sqDecode ld head entry] })
  else s)

/-- The command that may start next on LD n, where it is the one named. -/
def State.nextCmd (s : State) (ld cid opcode : Nat) : Option SqCmd :=
  if s.sqServed ld then
    match s.startable ld with
    | some q => if q.cid = cid ∧ q.opcode = opcode then some q else none
    | none => none
  else none

/-- An SQ NOP (R405). -/
def execNop (ld : Fin 16) (cid : BitVec 16) (s : State) : Result :=
  .next (match s.nextCmd ld cid.toNat 0 with
  | some q => (s.markStarted ld).cmdEnd ld q.cid 0 0 0 0
  | none => s)

/-- The read of an admission record was answered with an error or timed out (R406). -/
def State.admitUnread (s : State) (ld : Nat) (q : SqCmd) : State := (s.markStarted ld).cmdEnd ld q.cid 7 0 0 0

/-- An SQ ADMIT whose record has been read (R289, R290, R405): `rec'` is the record, `far` what T3 holds of its prompt.
With no step in flight the helm then issues one (R292). -/
def execSqAdmit (ld : Fin 16) (cid : BitVec 16) (rec' far : List Byte) (failed : Bool) (s : State) : Result :=
  .next (match s.nextCmd ld cid.toNat 1 with
  | some q =>
    let s := s.emit (.hostRead ld q.arg0 64)
    if failed then s.admitUnread ld q
    else
      let r := s.admission ld rec' far
      State.emptyStep ((r.2.markStarted ld).cmdEnd ld q.cid r.1 (field (wordAt rec' 8 4) 0 26) (wordAt rec' 0 8) 0) ld
  | none => s)

/-- An SQ CANCEL (R292, R309, R405, R406). -/
def execSqCancel (ld : Fin 16) (cid : BitVec 16) (s : State) : Result :=
  .next (match s.nextCmd ld cid.toNat 2 with
  | some q =>
    let slot := field q.arg0 0 10
    let gen := field q.arg0 10 8
    let tenant := (s.entry ld slot).tenant
    let r := s.cancel ld slot gen
    State.emptyStep ((r.2.markStarted ld).cmdEnd ld q.cid (if r.1 = 2 then 6 else r.1)
      (handle slot gen + (if r.1 = 0 then 2 ^ 18 * tenant else 0)) 0 0) ld
  | none => s)

/-- An SQ LAUNCH (R82, R405, R406): it completes as the core halts. -/
def execSqLaunch (ld : Fin 16) (cid : BitVec 16) (s : State) : Result :=
  .next (match s.nextCmd ld cid.toNat 3 with
  | some q =>
    let n := q.arg0 % 512
    let s' := s.markStarted ld
    if s.inSet ld n && decide (s.coreState n = coreReady) && s.ctxRuns ld then
      s'.launch n q.arg1 q.regs4 (.command ld q.cid)
    else s'.cmdEnd ld q.cid 9 0 0 n
  | none => s)

/-- An SQ COPY starts (R405): a copy to the device asks host memory. -/
def execCopy (ld : Fin 16) (cid : BitVec 16) (s : State) : Result :=
  .next (match s.nextCmd ld cid.toNat 4 with
  | some q =>
    let s := s.markStarted ld
    if q.dir then s else s.emit (.hostRead ld q.arg0 q.arg2)
  | none => s)

/-- The pieces of a COPY, one 64 KiB of the range after the other (R405, R406): the status and the bytes completed. `data`
is what host memory gave; `ecc` is what the check bits show of the first piece read here. -/
def State.copyPieces (s : State) (ld : Nat) (q : SqCmd) (data : List Byte) (ecc : Ecc) :
    List (Nat × Nat) → Nat → Nat × Nat × State
  | [], done => (0, done, s)
  | p :: ps, done =>
    let t := s.translate 0 ld p.1 (if q.dir then 1 else 2)
    let s := t.2
    if t.1 = 0 ∨ 2 ≤ leafTier t.1 then (8, done, s)
    else
      let s := if leafTier t.1 = 1 then s.hbmBytes ld p.2 else s
      if q.dir then
        let bs := s.physRead (leafTier t.1) (leafLoc t.1) (p.1 % 65536) p.2
        let s := s.lineEcc (leafTier t.1) (leafLoc t.1) (p.1 % 65536) ecc
        let s := s.emit (.hostWrite ⟨ld, q.arg0 + done,
          match ecc with | .uncorrectable => freeBytes s.free p.2 | _ => bs⟩)
        State.copyPieces { s with free := s.free + 1 } ld q data .ok ps (done + p.2)
      else if data.length < done + p.2 then (7, done, s)
      else
        let s := s.physWrite (leafTier t.1) (leafLoc t.1) (p.1 % 65536) ((data.drop done).take p.2)
        State.copyPieces (s.modCtx ld fun x => x.noteWrite (p.1 / 65536)) ld q data .ok ps (done + p.2)

/-- A started COPY of LD n. -/
def State.runningCopy (s : State) (ld cid : Nat) : Option SqCmd :=
  (s.outstandingCmds ld).find? fun q => q.started && decide (q.cid = cid ∧ q.opcode = 4)

/-- A COPY ends (R405, R406). -/
def execCopyDone (ld : Fin 16) (cid : BitVec 16) (data : List Byte) (ecc : Ecc) (s : State) : Result :=
  .next (match s.runningCopy ld cid.toNat with
  | some q =>
    if s.sqServed ld then
      let r := s.copyPieces ld q data ecc (pieces q.arg1 (q.arg2 / 65536 + 2) q.arg2) 0
      r.2.2.cmdEnd ld q.cid r.1 0 0 r.2.1
    else s
  | none => s)

/-! ### CXL.mem (R395, R398, R399) -/

/-- LD n may reach a device physical address: LD0 any, LD n what its context holds in T2, its page tables and its
descriptor table. -/
def State.memReach (s : State) (n dpa : Nat) : Bool :=
  let u := tget Use.none s.hbmUse (dpa / 65536)
  n == 0 || (decide (u.kind ≠ 0) && decide (u.ctx = n))

/-- A CXL.mem access is refused: counted, and reported at most once per millisecond. -/
def State.memRefused (s : State) (n dpa : Nat) : State :=
  ((s.bump R.LD_MEM_REFUSED.COUNT n).bump R.WHARF_MEM_REFUSED.COUNT 0).raiseOnce (toldKey 0x0501 n) msTicks
    (.page .ld n) (some n) 0x0501 (w4 [n] ++ leBytes dpa 8)

/-- The HDM decoder of LD n maps `k` bytes at a device physical address. -/
def State.hdmMaps (s : State) (n dpa k : Nat) : Bool := decide (dpa + k ≤ tget 0 s.wharf.hdm n * 2 ^ 28)

/-- A CXL.mem read through LD n's window. A refused read, one of a disabled LD and one that meets an uncorrectable error
return all ones. -/
def execCxlMemRead (ld : Fin 16) (dpa : BitVec 40) (k : BitVec 7) (ecc : Ecc) (s : State) : Result :=
  let ones := List.replicate k.toNat (0xFF#8)
  .next (if s.trafficHeld then s
  else if !s.ldEnabled ld then s.emit (.memData ld ones)
  else if !s.hdmMaps ld dpa.toNat k.toNat then s
  else if s.ldInReset ld || !s.memReach ld dpa.toNat then (s.memRefused ld dpa.toNat).emit (.memData ld ones)
  else
    let bs := s.hbmRead dpa.toNat k.toNat
    let s := (s.hbmBytes ld k.toNat).lineEcc 1 (dpa.toNat / 65536) (dpa.toNat % 65536) ecc
    s.emit (.memData ld (match ecc with | .uncorrectable => ones | _ => bs)))

/-- A CXL.mem write through LD n's window. -/
def execCxlMemWrite (ld : Fin 16) (dpa : BitVec 40) (data : List Byte) (s : State) : Result :=
  .next (if s.trafficHeld || !s.ldEnabled ld || !s.hdmMaps ld dpa.toNat data.length then s
  else if s.ldInReset ld || !s.memReach ld dpa.toNat then s.memRefused ld dpa.toNat
  else ((s.hbmBytes ld data.length).hbmWrite dpa.toNat data).noteLoc 1 (dpa.toNat / 65536))

/-! ### Unordered I/O (R184, R400) -/

/-- A UIO request of a context's LD fails: counted, and logged in the LD's AER as an advisory error. -/
def State.uioError (s : State) (c : Nat) : State :=
  (s.bump R.WHARF_UIO_ERRORS.COUNT 0).modWharf fun w => { w with aer := tset 0 w.aer c (tget 0 w.aer c + 1) }

/-- The access to a pooled subpage that failed: a Sluice transfer, or a walk's read of the page (R184, R199). -/
def State.uioFailed (s : State) (c sub : Nat) : State :=
  let s := s.uioError c
  if (s.ctx c).inFlight sub then s.transferDone c sub [] true false else s.tierWait c sub

/-- A UIO completion of `n` bytes: with `last` it completes the Sluice's transfer of the subpage, to which `data` holds
what was read; one with an error fails the access. -/
def execUioCompletion (ctx : Fin 16) (sub : BitVec 32) (write : Bool) (n : BitVec 17) (data : List Byte) (ok last : Bool)
    (s : State) : Result :=
  .next (if s.trafficHeld || s.ldInReset ctx || s.ctxInReset ctx then s
  else if !ok then s.uioFailed ctx sub.toNat
  else
    let s := s.bump (if write then R.WHARF_UIO_WR_BYTES.COUNT else R.WHARF_UIO_RD_BYTES.COUNT) 0 n.toNat
    if last && (s.ctx ctx).inFlight sub.toNat then s.transferDone ctx sub.toNat data false false else s)

/-- No completion arrives in time (R400, R406): for a UIO access to a subpage, or for the host read of an ADMIT or a COPY
to the device. -/
def execCompletionTimeout (ld : Fin 16) (uio : Bool) (sub : BitVec 32) (cid : BitVec 16) (s : State) : Result :=
  .next (if s.ldInReset ld || s.ctxInReset ld then s
  else if uio then s.uioFailed ld sub.toNat
  else match s.nextCmd ld cid.toNat 1, s.runningCopy ld cid.toNat with
    | some q, _ => s.admitUnread ld q
    | none, some q => if q.dir then s else s.cmdEnd ld q.cid 7 0 0 0
    | none, none => s)

/-! ### Interrupts and the event ring (R409, R410) -/

/-- TIME of a ring's interrupt register. -/
def irqTime : Nat → Fd
  | 0 => R.LD_IRQ_CQ.TIME | 1 => R.LD_IRQ_TOK.TIME | 2 => R.LD_IRQ_EVQ.TIME | _ => R.DUTY_IRQ.TIME

/-- TIME µs have passed since the first entry that no message has signalled; ring 3 is the duty request ring. -/
def execIrqTimer (ld : Fin 16) (ring : Fin 4) (s : State) : Result :=
  .next (if s.on (irqEn ring) ld && s.on (irqTime ring) ld && decide (tget 0 s.wharf.irqSince (4 * ld + ring) ≠ 0) then
    (s.modWharf fun w => { w with irqSince := tset 0 w.irqSince (4 * ld + ring) 0 }).sendMsix ld (s.fld (irqVector ring) ld)
  else s)

/-- Room has returned in an EVQ after drops (R409). -/
def execEvqOverflowRecord (ld : Fin 16) (s : State) : Result := .next (s.evqOverflow ld)

/-! ### Effects of register writes (R395, R400, R413) -/

/-- A write of `WHARF_CTRL.RETRAIN` (R400). -/
def State.retrain (s : State) : State := s.modWharf fun w => { w with training := true }

/-- `WHARF_LD_EN` bits that a write would clear while their context is not quiesced (R395). -/
def State.ldEnRefused (s : State) (old new : Nat) : Bool :=
  (List.range 15).any fun i => bit old i && !bit new i &&
    decide (s.fld R.CTX_STATUS.STATE (i + 1) = ctxActive ∨ s.fld R.CTX_STATUS.STATE (i + 1) = ctxQuiescing)

/-- `LD_CTRL.RINGS_EN` goes from 0 to 1: every ring index is zero (R413). -/
def State.ringsZero (s : State) (ld : Nat) : State :=
  let s := [R.LD_SQ_HEAD.INDEX, R.LD_CQ_TAIL.INDEX, R.LD_TOK_TAIL.INDEX, R.LD_EVQ_TAIL.INDEX].foldl
    (fun (s : State) f => s.put f ld 0) s
  s.modWharf fun w => { w with doorbells := tclear w.doorbells (4 * ld) 4 }

end Sys2Proof.Machine
end

