-- ==== Sys2Proof/Machine/CtxOps.lean ====
section
/-! DEFINITION. Machine/CtxOps.lean: the commands of a context, its accounts, and the answers and timeouts of duties
(R414-R429; 16_contexts_shares_and_duty_modes.md). -/
namespace Sys2Proof.Machine

/-! ### Context commands (R415-R418) -/

/-- Nothing of the context remains in flight (R415). -/
def State.ctxIdle (s : State) (c : Nat) : Bool :=
  let x := s.ctx c
  ((s.coresOf c).all fun n => decide (s.coreState n ≠ coreRunning ∧ s.coreState n ≠ coreHalted) && (s.core n).xops.isEmpty) &&
    !x.member.active && (!s.helm c || !s.stepFlies c) && (s.outstandingCmds c).isEmpty && x.barges.isEmpty &&
    decide (s.outstanding c = 0 ∧ s.inflight c = 0) && (s.rack.waiting.all fun m => decide (m.ctx ≠ c)) &&
    (s.walks.all fun w => decide (w.ctx ≠ c)) && x.cmd.isNone && x.duties.isEmpty &&
    (x.copies.all fun e => !x.inFlight e.1) && x.moves.all fun e => !x.inFlight e.1

/-- Cores that `CTX_CORES_REQ` names. -/
def State.coresReq (s : State) (c : Nat) : List Nat :=
  (List.range 512).filter fun n => bit (s.fld R.CTX_CORES_REQ.BITS c (n / 32)) (n % 32)

/-- A writer with LD0's rights: LD0, firmware (16) or JTAG (17). -/
def asLd0 (req : Nat) : Bool := decide (req = 0 ∨ 16 ≤ req)

/-- The states a command is allowed from: 1 ENABLE, 2 QUIESCE, 3 RESUME, 4 DISABLE, 5 SET_CORES (R417). -/
def ctxFrom : Nat → List Nat
  | 1 => [ctxDisabled] | 2 => [ctxActive] | 3 => [ctxQuiescing, ctxQuiescedCode] | _ => [ctxQuiescedCode]

/-- The refusal of a context command, in the order of R418 after its check 6; 0 where it acts. A context that has ended
is not resumed (R507). -/
def State.ctxRefusal (s : State) (req c op : Nat) : Nat :=
  let added := (s.coresReq c).filter fun n => !s.inSet c n
  if op = 0 ∨ 5 < op then 5
  else if !asLd0 req && decide (op ≠ 2 ∧ op ≠ 3) then 4
  else if !(ctxFrom op).contains (s.fld R.CTX_STATUS.STATE c) || s.ctxInReset c || s.ldInReset c ||
      (decide (op = 3) && s.ended c) then 1
  else if op = 1 ∧ s.ldEnabled c = false then 3
  else if (op = 1 ∨ op = 5) ∧ (added.any fun n => decide (s.coreState n ≠ coreIdle)) = true then 2
  else 0

/-- A core joins a context's set; its Gauges are cleared (R417, R463). -/
def State.joinSet (s : State) (c n : Nat) : State :=
  let s := (s.modCore n Core.freshGauges).setFld R.CTX_CORES.BITS c (n / 32) (setBit (s.fld R.CTX_CORES.BITS c (n / 32)) (n % 32))
  let s := s.put R.CTX_STATUS.CORES c (s.fld R.CTX_STATUS.CORES c + 1)
  (s.put R.CORE_STATE.CTX n c).setCoreState n coreReady

/-- A core leaves a context's set: it is cleared and goes IDLE (R175, R417). -/
def State.partSet (s : State) (n : Nat) : State :=
  ((((s.leaveSet n).clearScr n).modCore n fun k => { k with clearing := true }).setCoreState n coreIdle).put R.CORE_STATE.CTX n 0

/-- LAUNCH commands that have not started complete with CORE_STATE (R416). -/
def State.endLaunches (s : State) (c : Nat) : State :=
  let mine (q : SqCmd) : Bool := decide (q.ld = c ∧ q.opcode = 3) && !q.started
  let l := s.wharf.cmds.filter mine
  let s := s.modWharf fun w => { w with cmds := w.cmds.filter fun q => !mine q }
  l.foldl (fun (s : State) (q : SqCmd) =>
    (s.cqPush c (cmdCqe 9 q.cid 0 0 (q.arg0 % 512))).bump R.LD_CMDS.COUNT c) s

/-- A context command that nothing refuses (R417). -/
def State.ctxAct (s : State) (c op : Nat) : State :=
  match op with
  | 1 => ((s.coresReq c).foldl (fun s n => s.joinSet c n) s).put R.CTX_STATUS.STATE c ctxActive
  | 2 => (s.endLaunches c).put R.CTX_STATUS.STATE c ctxQuiescing
  | 3 => (s.put R.CTX_STATUS.STATE c ctxActive).nextStep c
  | 4 => ((s.put R.CTX_STATUS.BUSY c 1).modCtx c fun x => { x with disabling := true }).requestReset 4 c
  | _ =>
    let s' := ((s.coresOf c).filter fun n => !(s.coresReq c).contains n).foldl State.partSet s
    ((s.coresReq c).filter fun n => !s.inSet c n).foldl (fun s n => s.joinSet c n) s'

/-- A command is judged, and acts or is refused whole. -/
def State.ctxDo (s : State) (req c op : Nat) : State :=
  let r := s.ctxRefusal req c op
  if r = 0 then (s.put R.CTX_CMD_RESULT.RESULT c 0).ctxAct c op else s.put R.CTX_CMD_RESULT.RESULT c r

/-- A write of `CTX_CMD` (R418); held while a self-test runs (R495). -/
def State.ctxCmd (s : State) (req c op : Nat) : State :=
  if s.on R.CTX_STATUS.BUSY c then s.put R.CTX_CMD_RESULT.RESULT c 6
  else if s.on R.BIST_STATUS.BUSY then
    { s.put R.CTX_STATUS.BUSY c 1 with bist := { s.bist with heldCmds := s.bist.heldCmds ++ [(req, c, op)] } }
  else s.ctxDo req c op

/-- `CTX_ACCT_CTRL.SNAP` (R422). -/
def State.ctxSnap (s : State) (c : Nat) : State :=
  let s := (List.range 5).foldl (fun (s : State) i =>
    let f := [R.CTX_ACCT_BUSY.COUNT, R.CTX_ACCT_BITMAC.COUNT, R.CTX_ACCT_HBM.COUNT, R.CTX_ACCT_FABRIC.COUNT,
      R.CTX_ACCT_ENERGY.COUNT][i]?.getD R.CTX_ACCT_BUSY.COUNT
    s.setFld R.CTX_SNAP.COUNT c i (s.fld f c)) s
  s.put R.CTX_SNAP_TICK.TICK c s.tick

/-! ### Duties (R423-R428) -/

/-- The page of a duty. -/
def dutyPage : Nat → Page
  | 1 => .step | 2 => .xtal | 3 => .xlat | 4 => .barge | 5 => .sluice | 6 => .weir | _ => .assay

/-- The instance of a duty's page that acts for a context. -/
def dutyInst (kind c : Nat) : Nat := if kind = 6 then 0 else c

/-- A request that ends without an answer, as its duty's chapter states; `fallback` says that the duty returns to
hardware (R156, R205, R228, R315, R332, R451; log entry 47). -/
def State.dutyUnanswered (s : State) (c : Nat) (r : DutyReq) (fallback : Bool) : State :=
  match r.kind with
  | 1 => s.buildInstead c
  | 2 => if fallback then s.xsampToLane r.note else s.xsampAnswered r.note none
  | 3 => s.walkFailed c r.note
  | 5 =>
    let l := ((r.payload[2]?.getD 0).toNat)
    if fallback && decide (l ≠ 0xFF) then s.stageLayer c l else s
  | 7 => if fallback then s.widenRequest c (r.note % 256) (r.note / 256) else s
  | _ => s

/-- The outstanding requests of a duty are withdrawn (R423). -/
def State.dutyWithdraw (s : State) (c kind : Nat) : State :=
  let l := (s.ctx c).duties.filter fun r => decide (r.kind = kind)
  let s := (s.modCtx c fun x => { x with duties := x.duties.filter fun r => decide (r.kind ≠ kind) }).dutySync c
  (l.foldl (fun s r => s.dutyUnanswered c r true) s).dutyPost c

/-- A request times out (R428). -/
def State.dutyTimeout (s : State) (c k : Nat) : State :=
  match (s.ctx c).duties[k]? with
  | none => s
  | some r =>
    let p := dutyPage r.kind
    let fallback := bit (s.fld R.DUTY_FALLBACK.KINDS c) (r.kind - 1)
    let s := (s.dutyTake c k).bump R.DUTY_TIMEOUTS.COUNT c
    let s := s.raise (.page .duty c) (some c) 0x1511 (w4 [r.kind, r.id])
    let s := if fallback then s.put (hdrDutyMode p) (dutyInst r.kind c) 0 else s
    let s := s.dutyUnanswered c r fallback
    if fallback then s.dutyWithdraw c r.kind else s.dutyPost c

/-- Little-endian word of an answer entry. -/
def ansWord (e : List Byte) (off n : Nat) : Nat := ofLe ((e.drop off).take n)

/-- An answer entry holds a reserved encoding (R426). -/
def ansReserved (e : List Byte) : Bool :=
  let k := ansWord e 0 1
  decide (k = 0 ∨ 7 < k ∨ 1 < ansWord e 1 1 ∨ ansWord e 2 2 ≠ 0) || ((e.drop 20).any fun b => decide (b ≠ 0)) ||
    (if k = 1 ∨ k = 4 then false
      else if k = 2 then decide (2 ^ 18 ≤ ansWord e 8 8 ∨ ansWord e 16 4 ≠ 0)
      else decide (ansWord e 8 8 ≠ 0 ∨ ansWord e 16 4 ≠ 0))

/-- Bytes of the list that an answer names. -/
def ansListBytes (e : List Byte) : Nat :=
  if ansWord e 1 1 ≠ 0 then 0
  else match ansWord e 0 1 with
    | 1 => 8 * ansWord e 16 4
    | 4 => 72 * ansWord e 16 4
    | _ => 0

/-- An answer acts on its request (R426). -/
def State.dutyAct (s : State) (c : Nat) (r : DutyReq) (e list : List Byte) : State :=
  if ansWord e 1 1 = 1 then s.dutyUnanswered c r false
  else match r.kind with
    | 1 => s.hostList c ((List.range (ansWord e 16 4)).map fun i => ofLe ((list.drop (8 * i)).take 8))
    | 2 => s.xsampAnswered r.note (some (ansWord e 8 8))
    | 3 => s.walkAnswered c r.note
    | 4 => (List.range (ansWord e 16 4)).foldl (fun (s : State) i =>
        let b := (list.drop (72 * i)).take 72
        s.answerPlacement c (ofLe (b.take 4)) (ofLe ((b.drop 4).take 4)) (b.drop 8)) s
    | _ => s

/-- One answer is read and matched (R427). -/
def State.dutyAnswer (s : State) (c : Nat) (e list : List Byte) : State :=
  if ansReserved e then s.bump R.DUTY_BAD_ANSWERS.COUNT c
  else match (s.ctx c).duties.findIdx? fun r => r.posted && decide (r.id = ansWord e 4 4 ∧ r.kind = ansWord e 0 1) with
    | none => s.bump R.DUTY_LATE.COUNT c
    | some k =>
      match (s.ctx c).duties[k]? with
      | none => s
      | some r => (((s.dutyTake c k).bump R.DUTY_ANSWERED.COUNT c).dutyAct c r e list).dutyPost c

/-- Answers in index order; `lists` holds the lists they name, one after the other. -/
def State.dutyAnswers (c : Nat) : List (List Byte) → List Byte → State → State
  | [], _, s => s
  | e :: es, lists, s =>
    let n := ansListBytes e
    let s := if n = 0 then s else s.emit (.hostRead c (ansWord e 8 8) n)
    State.dutyAnswers c es (lists.drop n) (s.dutyAnswer c e (lists.take n))

/-- A write of `DUTY_ANS_TAIL` (R424, R427): `far` holds the new answers, and then the lists they name. -/
def State.ansTail (s : State) (c v : Nat) (far : List Byte) : State :=
  let old := s.fld R.DUTY_ANS_TAIL.INDEX c
  let head := s.fld R.DUTY_ANS_HEAD.INDEX c
  let n := (v + 2 ^ 32 - head) % 2 ^ 32
  if (v + 2 ^ 32 - old) % 2 ^ 32 < 2 ^ 31 ∧ n ≤ 2 ^ s.fld R.DUTY_RING_SIZES.ANS c then
    let s := s.put R.DUTY_ANS_TAIL.INDEX c v
    let s := State.dutyAnswers c ((List.range n).map fun i => (far.drop (64 * i)).take 64) (far.drop (64 * n)) s
    s.put R.DUTY_ANS_HEAD.INDEX c v
  else s.bump R.DUTY_BAD_ANSWERS.COUNT c

/-- A write that changes `CTRL.DUTY_MODE` of a page (R423). -/
def State.dutyModeChanged (s : State) (kind c : Nat) : State := s.dutyWithdraw c kind

end Sys2Proof.Machine
end

