-- ==== Sys2Proof/Machine/Context.lean ====
section
/-! DEFINITION. Machine/Context.lean: what happens to a context and its duties by itself (R415, R424, R428;
16_contexts_shares_and_duty_modes.md). Writes of `CTX_CMD` and of the DUTY page are in Machine/RegRows.lean. -/
namespace Sys2Proof.Machine

/-- Nothing of a QUIESCING context remains in flight (R415, R416). -/
def execCtxQuiesced (ctx : Fin 16) (s : State) : Result :=
  .next (if s.fld R.CTX_STATUS.STATE ctx = ctxQuiescing ∧ s.ctxIdle ctx = true then
    s.put R.CTX_STATUS.STATE ctx ctxQuiescedCode
  else s)

/-- A waiting duty request is posted as the request ring has room (R424). -/
def execDutyRequestPost (ctx : Fin 16) (s : State) : Result := .next (s.dutyPost ctx)

/-- The k-th outstanding duty request of a context times out (R428). -/
def execDutyTimeout (ctx : Fin 16) (k : BitVec 13) (s : State) : Result := .next (s.dutyTimeout ctx k.toNat)

end Sys2Proof.Machine
end

