-- ==== Sys2Proof/Machine/Fence.lean ====
section
/-! DEFINITION. Machine/Fence.lean: fencing, unfencing and the clears of scratchpads and Basin slices (R107-R111, R174,
R175; 03_suina_core.md, 06_scratchpads_and_basin.md). -/
namespace Sys2Proof.Machine

/-- A bundle waits on an answer from outside the core: a load, a busy tag, a unit's limit, a `WAIT`, or a translation
(R107). -/
def State.bundleOutside (s : State) (n : Nat) (w : Bundle) : Bool :=
  let k := s.core n
  decide (k.pendFor w ≠ []) || s.xLimited n w.x ||
    (match xTag w.x with
     | some t => (k.tag t).busy
     | none => false) ||
    (match s.evalSlots n w with
     | .wait _ => true
     | _ => false)

/-- The oldest bundle of a core waits on an answer from outside the core. -/
def State.waitsOutside (s : State) (n : Nat) : Bool :=
  let k := s.core n
  decide (k.nodeWait ≠ 0) || k.ra.isSome || k.halting ||
    (match s.fetch n with
     | (.wait, _) => true
     | (.bundle bits, _) => s.bundleOutside n (decodeBundle bits Bundle.nop.env)
     | _ => false)

/-- The watchdog of a core (R107). -/
def State.watchdog (s : State) (n : Nat) : State :=
  if s.coreState n = coreRunning ∧ (s.core n).lastRetire + s.fld R.CORE_WDOG.LIMIT n ≤ s.tick ∧ s.waitsOutside n = false then
    s.fenceCore n 2
  else s

/-- The clear of a core's scratchpad ends (R175): the scratchpad is zero, or the failure is recorded on `page` and the
core is unavailable until a die reset. -/
def State.clearEnd (s : State) (n : Nat) (failed : Bool) : State :=
  if !(s.core n).clearing then s
  else if failed then (s.modCore n fun k => { k with clearing := false, clearBad := true }).errlog .core n 5 n 0 0
  else s.modCore n fun k => { k with clearing := false, scr := [] }

/-- A fenced core's clear ends (R108). -/
def State.fenceClearEnd (s : State) (n : Nat) (failed : Bool) : State :=
  if s.coreState n = coreFenced then s.clearEnd n failed else s

/-- The clear of a Basin slice ends (R175). -/
def State.sliceClearEnd (s : State) (d : Nat) (failed : Bool) : State :=
  if s.on R.BASIN_STATUS.CLEAR_BUSY d then
    let s := s.put R.BASIN_STATUS.CLEAR_BUSY d 0
    if failed then ({ s with basinBad := setBit s.basinBad d } : State).errlog .basin d 5 d 0 0
    else { s with basin := tclear s.basin (d * 2 ^ 25) (2 ^ 25) }
  else s

/-- `UNFENCE` (R110): `detail` names the writer in the record of a write without effect. -/
def State.unfence (s : State) (n detail : Nat) : State :=
  if s.coreState n = coreFenced ∧ (s.core n).bistPassed = true then
    let s := (List.range 5).foldl (fun s i => s.put (fenceCause i) n 0) s
    (s.modCore n fun k => { k with clearing := true, scr := [] }).setCoreState n coreIdle
  else s.errlog .core n 2 0x108 0 detail

/-- A parity error in the core's pipeline or engine state (R107). -/
def execPipelineParityError (core : Fin 512) (s : State) : Result :=
  .next (s.fenceCore core 0)

/-- The watchdog expires (R107). -/
def execCoreWatchdogExpiry (core : Fin 512) (s : State) : Result :=
  .next (s.watchdog core)

/-- The clear of a fenced core's scratchpad ends (R108). -/
def execFenceClearDone (core : Fin 512) (failed : Bool) (s : State) : Result :=
  .next (s.fenceClearEnd core failed)

/-- Any other clear ends (R175): a core's scratchpad, or the slice of a die. -/
def execClearDone (die : Fin 8) (core : Option (Fin 64)) (failed : Bool) (s : State) : Result :=
  .next (match core with
    | some i => if s.coreState (64 * die + i) = coreFenced then s else s.clearEnd (64 * die + i) failed
    | none => s.sliceClearEnd die failed)

/-- The patrol scrubber reads a line of a slice (R174): line `line` of die `die`, in 128-byte units. -/
def State.scrub (s : State) (d line : Nat) (ecc : Ecc) (again : Bool) : State :=
  let loc := 512 * d + line / 512
  let off := line % 512 * 128
  if !s.on R.BASIN_CTRL.SCRUB_EN d || s.on R.BASIN_STATUS.CLEAR_BUSY d then s
  else
    let s := match ecc with
      | .ok => s
      | .corrected _ _ => s.basinCe loc off
      | .uncorrectable => s.basinUe loc off true again
    let s := s.put R.BASIN_STATUS.SCRUB_ACTIVE d (b2n (line != 262143))
    if line = 262143 then s.bump R.BASIN_SCRUB_PASSES.COUNT d else s

/-- A scrub read (R174). -/
def execBasinScrubRead (die : Fin 8) (line : BitVec 18) (ecc : Ecc) (again : Bool) (s : State) : Result :=
  .next (s.scrub die line.toNat ecc again)

end Sys2Proof.Machine
end

