-- ==== Sys2Proof/Machine/Gauges.lean ====
section
/-! DEFINITION. Machine/Gauges.lean: what a Gauge counts and its reading by compiled code (R453-R459, R465;
18_gauges.md). The register writes of the GAUGE pages are in Machine/RegRows.lean. -/
namespace Sys2Proof.Machine

/-- A core Gauge counts what its fixed meaning or its selection names, unless it is frozen or selects nothing
(R453, R457, R460). -/
def State.coreGaugeCounts (s : State) (n g amount : Nat) : State :=
  if s.frozen (n / 64) || decide (8 ≤ g ∧ tget 0 (s.core n).gaugeSel (g - 8) = 0) then s else s.countCore n g amount

/-- A module Gauge counts its event, unless it is frozen or selects nothing (R458, R460). -/
def State.moduleGaugeCounts (s : State) (g amount : Nat) : State :=
  if s.mfrozen || decide (s.fld R.GAUGE_MSEL.EVENT 0 g = 0) then s else s.countModule g amount

/-- A Gauge of page instance `inst` counts `amount` and wraps past 2^48 − 1: instances 0-7 hold the core Gauges of a
die, 8 the module Gauges (R459, R466). -/
def execGaugeWrap (inst : Fin 9) (core gauge : Fin 64) (amount : BitVec 48) (s : State) : Result :=
  .next (if inst.val = 8 then s.moduleGaugeCounts gauge amount.toNat
  else s.coreGaugeCounts (64 * inst.val + core.val) (gauge.val % 16) amount.toNat)

/-- A bundle whose X slot is `X_GSNAP` (R465). -/
def execXGsnap (core : Fin 512) (tag : BitVec 6) (dst : BitVec 14) (w : Bundle) (s : State) : Result :=
  .next (s.bundle core (withX w (.gsnap tag dst)))

end Sys2Proof.Machine
end

