-- ==== Sys2Proof/Machine/BistOps.lean ====
section
/-! DEFINITION. Machine/BistOps.lean: the BIST controller's items, scheduling and results, and the loop-backs
(R492-R505; 20_bist_and_loopbacks.md). -/
namespace Sys2Proof.Machine

/-! ### Items (R493) -/

/-- Instances of a class that a selection names: `links` are the links that may be tested. -/
def bistInsts (cls dies links : Nat) : List Nat :=
  if cls ≤ 4 then bitsSet dies 8
  else if cls = 5 then bitsSet dies 2
  else if cls = 6 then bitsSet links 32
  else [0]

/-- The set includes a class. -/
def bistInSet (full : Bool) (cls : Nat) : Bool := full || !decide (cls = 4 ∨ cls = 5)

/-- The items of a selection, in class order and then by instance (R496). -/
def bistItems (full : Bool) (classes dies links : Nat) : List BistItem :=
  (bitsSet classes 8).flatMap fun k =>
    if bistInSet full (k + 1) then (bistInsts (k + 1) dies links).map fun i => ⟨k + 1, i, false⟩ else []

/-- Allowance of a class, in W. -/
def bistAllowance : Nat → Nat
  | 1 => 160 | 2 => 90 | 3 => 40 | 4 => 60 | 5 => 40 | 6 => 10 | 7 => 10 | _ => 5

/-- Watts in mW/16384. -/
def wattScaled (w : Nat) : Nat := w * (1000 * 16384)

/-- The item has die d. -/
def BistItem.onDie (it : BistItem) (d : Nat) : Bool := decide (it.cls ≤ 4 ∧ it.inst = d)

/-! ### The end of a run -/

/-- The links that a full run leaves enter TRAINING, where they are enabled (R499). -/
def State.bistRetrain (s : State) : State :=
  (List.range 32).foldl (fun (s : State) k => (s.linkLost k 7).trainLink k) s

/-- The clears at the end of a full run (R499). -/
def State.bistClear (s : State) : State :=
  let s := { s.clearAllScr with basin := [], hbm := [], rack := { s.rack with records := [] } }
  s.bistRetrain

/-- What was held during a run is acted on: the context commands, and then the power target (R495). -/
def State.bistRelease (s : State) : State :=
  let cmds := s.bist.heldCmds
  let s : State := { s with bist := { s.bist with heldCmds := [] } }
  let s := cmds.foldl (fun (s : State) (q : Nat × Nat × Nat) =>
    (s.put R.CTX_STATUS.BUSY q.2.1 0).ctxDo q.1 q.2.1 q.2.2) s
  s.heldTarget

/-- The run is over: nothing runs and nothing waits. -/
def State.bistStop (s : State) : State :=
  let s := ((s.put R.BIST_STATUS.BUSY 0 0).put R.BIST_STATUS.RUNNING 0 0).bump R.BIST_RUNS.COUNT 0
  { s with bist := { s.bist with todo := [], running := [] } }

def bistUnit : Raiser := .page .bist 0

/-- Ends the run once its last record is written (R498). -/
def State.bistOver (s : State) : State :=
  if s.on R.BIST_STATUS.BUSY && s.bist.todo.isEmpty && s.bist.running.isEmpty then
    let s := if s.bist.full then s.bistClear else s
    let s := s.bistStop.raise bistUnit none 0x0721 (w4 [s.fld R.BIST_STATUS.DONE, s.fld R.BIST_STATUS.FAILED])
    s.bistRelease
  else s

/-- The run ends without further records (R495): a thermal trip. -/
def State.bistTrip (s : State) : State :=
  if s.on R.BIST_STATUS.BUSY then s.bistStop.bistRelease else s

/-! ### Results (R498, R499) -/

/-- RESULT codes. -/
def bistFail : Nat := 1
def bistAborted : Nat := 2
def bistSkipped : Nat := 3

/-- Writes an item's record and raises what it calls for. -/
def State.bistRecord (s : State) (it : BistItem) (result cause mask sig stored : Nat) : State :=
  let k := s.fld R.BIST_STATUS.DONE
  let s := s.emit (.hostWrite ⟨0, s.addr R.BIST_LOG_ADDR.ADDR + 32 * k,
    leBytes it.cls 1 ++ leBytes it.inst 1 ++ leBytes result 1 ++ leBytes cause 1 ++ List.replicate 4 0 ++
    leBytes mask 8 ++ leBytes sig 8 ++ leBytes stored 8⟩)
  let s := s.bump R.BIST_STATUS.DONE 0
  if result = bistFail then
    let s := (s.bump R.BIST_STATUS.FAILED 0).bump R.BIST_FAILS.COUNT 0
    s.raise bistUnit none 0x2721 (w4 [it.cls, it.inst] ++ leBytes mask 8)
  else s

/-- What an item leaves of the unit it ran on, whatever its result: its cores' scratchpads are clear (R499), and a
link is no longer looped (R500). -/
def State.bistLeave (s : State) (it : BistItem) : State :=
  if it.cls = 1 then (List.range 64).foldl (fun (s : State) i => s.clearScr (64 * it.inst + i)) s
  else if it.cls = 6 ∧ s.linkState it.inst = 6 then
    let s := s.setLink it.inst 0
    if s.bist.full then s else s.trainLink it.inst
  else s

/-- Takes an item out of those running. -/
def State.bistUnrun (s : State) (it : BistItem) : State :=
  let running := s.bist.running.filter fun q => !decide (q.cls = it.cls ∧ q.inst = it.inst)
  let s : State := { s with bist := { s.bist with running := running } }
  (s.put R.BIST_STATUS.RUNNING 0 running.length).bistLeave it

/-- A running item ends ABORTED. -/
def State.bistAbortItem (s : State) (it : BistItem) : State :=
  (s.bistUnrun it).bistRecord it bistAborted 0 0 0 0

/-- Free subpages of a slice. -/
def State.freeSubs (s : State) (d : Nat) : List Nat :=
  ((List.range 512).map fun i => 512 * d + i).filter fun loc => decide ((tget Use.none s.basinUse loc).kind = 0)

/-- The consequences of DIE_CORES (R110, R499): each failing core is fenced, and a passing one may be unfenced. -/
def State.coresResult (s : State) (d mask : Nat) : State :=
  (List.range 64).foldl (fun (s : State) i =>
    if bit mask i then s.fenceCore (64 * d + i) 3 else s.modCore (64 * d + i) fun k => { k with bistPassed := true }) s

/-- The consequences of DIE_MEM: failing free subpages are retired; failing engines fence every core of the die and
retire every free subpage. -/
def State.memResult (s : State) (d : Nat) (engines : Bool) (subs : List Nat) : State :=
  let bad := (s.freeSubs d).filter fun loc => engines || subs.contains (loc % 512)
  let s := bad.foldl (fun (s : State) loc => s.retireSub loc) s
  if engines then (List.range 64).foldl (fun (s : State) i => s.fenceCore (64 * d + i) 3) s else s

/-- The consequences of an item's mask, for the classes other than DIE_MEM. -/
def State.bistResult (s : State) (it : BistItem) (mask : Nat) : State :=
  match it.cls with
  | 1 => s.coresResult it.inst mask
  | 3 | 4 => { s with power := { s.power with
      hbmExcluded := s.power.hbmExcluded ||| (mask * 2 ^ (4 * it.inst)) } }
  | _ => s

/-- Width of an item's fail mask (R498). -/
def maskWidth : Nat → Nat
  | 1 => 64 | 3 => 4 | 4 => 4 | 6 => 8 | _ => 1

/-- The fail mask of DIE_MEM: bit i for subpages 8i to 8i + 7, bit 63 the engines. The last eight subpages share
bit 63 with them, and what it reads where only one of the two fails is open (log entry 63). -/
def State.memMask (s : State) (engines : Bool) (subs : List Nat) : Nat × State :=
  let low := bitMap 63 fun i => subs.any fun b => decide (b / 8 = i)
  if engines then (low + 2 ^ 63, s)
  else if subs.any fun b => decide (b / 8 = 63) then
    let r := s.freeNat 1
    (low + 2 ^ 63 * r.1, r.2)
  else (low, s)

/-- A running item ends with what it found (R498, R499). `fail` is the mask; for DIE_MEM bit 0 says that the engines
fail and `subs` lists the failing subpages. -/
def State.bistItemEnd (s : State) (cls inst fail : Nat) (subs : List Nat) (sig stored : Nat) : State :=
  match s.bist.running.find? fun q => decide (q.cls = cls ∧ q.inst = inst) with
  | none => s
  | some it =>
    let engines := bit fail 0
    let subs := if s.bist.full then subs else subs.filter fun b => (s.freeSubs inst).contains (512 * inst + b)
    let m := if cls = 2 then s.memMask engines subs else (fail % 2 ^ maskWidth cls, s)
    let bad := if cls = 2 then engines || !subs.isEmpty else decide (m.1 ≠ 0)
    let s := m.2.bistUnrun it
    let s := if cls = 2 then s.memResult inst engines subs else s.bistResult it m.1
    let s := if bad then s.bistRecord it bistFail 0 m.1 sig stored else s.bistRecord it 0 0 0 0 0
    s.bistOver

/-! ### Commands and scheduling (R494-R497) -/

/-- The refusal of START, 0 where the run starts. -/
def State.bistRefusal (s : State) : Nat :=
  let full := s.on R.BIST_SEL.SET
  let life := s.fld R.SEC_LIFECYCLE.STATE
  if s.on R.BIST_STATUS.BUSY then 1
  else if life = 4 ∨ (full = true ∧ life ≠ 0 ∧ life ≠ 3) then 2
  else if !(if full then (List.range 16).all fun c => decide (s.fld R.CTX_STATUS.STATE c = ctxDisabled) else s.allQuiesced) then 3
  else if s.fld R.DEV_PWR.CURRENT ≠ 0 ∨ s.on R.DEV_PWR.BUSY then 4
  else if s.fld R.BIST_LOG_ADDR.ADDR = 0 ∨ s.fld R.BIST_SEL.CLASSES = 0 ∨ s.fld R.BIST_SEL.DIES = 0 then 5
  else 0

/-- START (R494). -/
def State.bistStart (s : State) : State :=
  let r := s.bistRefusal
  let s := s.put R.BIST_STATUS.RESULT 0 r
  if r ≠ 0 then s
  else
    let full := s.on R.BIST_SEL.SET
    let links := bitMap 32 fun k => full || !s.linkEnabled k
    let items := bistItems full (s.fld R.BIST_SEL.CLASSES) (s.fld R.BIST_SEL.DIES) links
    let s := ((s.put R.BIST_STATUS.BUSY 0 1).put R.BIST_STATUS.DONE 0 0).put R.BIST_STATUS.FAILED 0 0
    ({ s with bist := { s.bist with todo := items, running := [], full := full } } : State).bistOver

/-- ABORT (R495): running items end ABORTED in the order of their starts, and the others SKIPPED. -/
def State.bistAbort (s : State) : State :=
  if s.on R.BIST_STATUS.BUSY then
    let waiting := s.bist.todo
    let s := s.bist.running.reverse.foldl (fun (s : State) it => s.bistAbortItem it) s
    let s := waiting.foldl (fun (s : State) it => s.bistRecord it bistSkipped 2 0 0 0) s
    ({ s with bist := { s.bist with todo := [] } } : State).bistOver
  else s

/-- There is power for an item: P + allowance + MARGIN ≤ L (R496). -/
def State.bistPower (s : State) (it : BistItem) : Bool :=
  decide (s.loopPower + wattScaled (bistAllowance it.cls + s.fld R.BIST_CFG.MARGIN) ≤ limScaled s.weir.lim)

/-- Concurrency and die allow an item. -/
def State.bistRoom (s : State) (it : BistItem) : Bool :=
  decide (s.bist.running.length < s.fld R.BIST_CFG.MAX_CONC) &&
    !(decide (it.cls ≤ 4) && s.bist.running.any fun q => q.onDie it.inst)

/-- The head item starts (R496). A link it tests reads LOOPBACK (R500). -/
def State.bistItemStart (s : State) : State :=
  match s.bist.todo with
  | it :: rest =>
    if s.on R.BIST_STATUS.BUSY && s.bistRoom it && s.bistPower it then
      let s := if it.cls = 6 then (s.linkLost it.inst 7).setLink it.inst 6 else s
      let running := it :: s.bist.running
      ({ s with bist := { s.bist with todo := rest, running := running } } : State).put R.BIST_STATUS.RUNNING 0 running.length
    else s
  | [] => s

/-- The head item has waited 1 s for power: it ends SKIPPED (R496). -/
def State.bistPowerSkip (s : State) : State :=
  match s.bist.todo with
  | it :: rest =>
    if s.on R.BIST_STATUS.BUSY && s.bistRoom it && !s.bistPower it then
      (({ s with bist := { s.bist with todo := rest } } : State).bistRecord it bistSkipped 1 0 0 0).bistOver
    else s
  | [] => s

/-- A running item is stopped for the cap: requeued once, and ABORTED the second time (R497). -/
def State.bistYield (s : State) (it : BistItem) : State :=
  if it.requeued then s.bistAbortItem it
  else
    let s := s.bistUnrun it
    { s with bist := { s.bist with todo := s.bist.todo ++ [{ it with requeued := true }] } }

/-- The items that must stop so that a power comes down to a limit, the most recently started first. -/
def bistOver' : Nat → Nat → List BistItem → List BistItem
  | _, _, [] => []
  | l, p, it :: rest => if l < p then it :: bistOver' l (p - wattScaled (bistAllowance it.cls)) rest else []

/-- L has fallen below P while items run (R497). -/
def State.bistCap (s : State) : State :=
  ((bistOver' (limScaled s.weir.lim) s.loopPower s.bist.running).foldl (fun (s : State) it => s.bistYield it) s).bistOver

/-- Items that a reset meets end ABORTED (R495). -/
def State.bistAbortOn (s : State) (on : BistItem → Bool) : State :=
  if s.on R.BIST_STATUS.BUSY then
    ((s.bist.running.reverse.filter on).foldl (fun (s : State) it => s.bistAbortItem it) s).bistOver
  else s

/-- Items on the cores of context c. -/
def State.bistAbortCtx (s : State) (c : Nat) : State :=
  s.bistAbortOn fun it => decide (it.cls = 1) && (List.range 64).any fun i => s.inSet c (64 * it.inst + i)

/-! ### Loop-backs (R500-R504) -/

/-- `LOOP_SEL` as a word. -/
def State.loopWord (l : Nat × Nat × Nat) : Nat := l.1 + 2 ^ 4 * l.2.1 + 2 ^ 9 * l.2.2

/-- The refusal of START. -/
def State.loopRefusal (s : State) (l : Nat × Nat × Nat) : Nat :=
  let life := s.fld R.SEC_LIFECYCLE.STATE
  if s.on R.BIST_STATUS.BUSY || s.on R.LOOP_STATUS.BUSY then 1
  else if l.1 = 0 then (if s.linkEnabled l.2.1 then 2 else 0)
  else if life = 4 ∨ (l.1 = 2 ∧ l.2.2 = 3 ∧ life ≠ 0 ∧ life ≠ 3 ∧ bit s.power.hbmExcluded l.2.1 = false) then 2
  else if !s.allQuiesced then 3
  else if l.1 = 1 ∧ s.bist.follower = true then 4
  else 0

/-- The result of a loop is recorded; an optical link returns to DISABLED, and the host port retrains (R500, R501). -/
def State.loopDone (s : State) (result : Nat) : State :=
  match s.bist.loop with
  | none => s
  | some l =>
    let s := (s.put R.LOOP_STATUS.BUSY 0 0).put R.LOOP_STATUS.RESULT 0 result
    let s : State := { s with bist := { s.bist with loop := none } }
    let s := s.raise (.page .loop 0) none 0x0731 (w4 [State.loopWord l, result])
    if l.1 = 0 ∧ s.linkState l.2.1 = 6 then (s.setLink l.2.1 0).trainLink l.2.1
    else if l.1 = 1 then s.modWharf fun w => { w with training := true }
    else s

/-- Errors that a loop's lanes show: none are counted where it serves a far end or runs a stack's own tests, and a
wavelength without light at a far-end loop counts 0xFFFF (R500). -/
def loopErrors (l : Nat × Nat × Nat) (errs : List Nat) (dark w : Nat) : Nat :=
  if (l.1 = 0 ∧ l.2.2 = 5) ∨ (l.1 = 2 ∧ l.2.2 = 3) then 0
  else if l.1 = 0 ∧ l.2.2 = 4 ∧ bit dark w = true then 0xFFFF
  else min 0xFFFF (errs[w]?.getD 0)

/-- DURATION has passed (R504). -/
def State.loopEnd (s : State) (errs : List Nat) (light dark : Nat) (pass : Bool) : State :=
  match s.bist.loop with
  | none => s
  | some l =>
    let s := (List.range 8).foldl (fun (s : State) w => s.setFld R.LOOP_ERR.ERR 0 w (loopErrors l errs dark w)) s
    let s := s.put R.LOOP_STATUS.LIGHT 0 (if l.1 = 0 then light else 0)
    let good := if l.1 = 2 ∧ l.2.2 = 3 then pass
      else (List.range 8).all fun w => decide (loopErrors l errs dark w ≤ s.fld R.LOOP_CFG.ERR_MAX)
    s.loopDone (if good then 0 else 5)

end Sys2Proof.Machine
end

