-- ==== Sys2Proof/Machine/HostPort.lean ====
section
/-! DEFINITION. Machine/HostPort.lean: the host link's training and loss, and the resets that reach a running self-test:
of an LD, a context or a die (R62-R65, R392, R395, R411, R495, R500, R501). -/
namespace Sys2Proof.Machine

/-- An LD or context reset wakes a sleeping module first (R59); a self-test's items on the context's cores end
ABORTED (R495). -/
def State.ldReset (s : State) (domain n : Nat) : State := (s.bistAbortCtx n).wake.requestReset domain n

/-- A function-level reset of LD n (R62, R64, R411). -/
def execFlr (n : Fin 16) (s : State) : Result := .next (s.ldReset 3 n)

/-- A secondary bus reset of LD n's vPPB is an LD reset (R411). -/
def execSecondaryBusReset (n : Fin 16) (s : State) : Result := .next (s.ldReset 3 n)

/-- The host port drops its link: an LD reset of every LD (R411). -/
def State.hostPortDown (s : State) : State :=
  if s.wharf.up then
    let s := (s.modWharf fun w => { w with up := false }).bump R.WHARF_LINK_DOWNS.COUNT 0
    (List.range 16).foldl (fun (s : State) n => s.ldReset 3 n) s
  else s

/-- A hot reset or a link-down of the host port (R411). -/
def execHostPortLinkDown (s : State) : Result := .next s.hostPortDown

/-- The host port trains with a partner (R392): `offers` bit i is configuration i of the rule's table, and `lopt` and
`uio` say what the partner agrees to. -/
def State.hostTrain (s : State) (offers : Nat) (lopt uio reversed : Bool) : State :=
  let pick := (List.range 4).find? fun i => bit offers i
  let s := s.modWharf fun w => { w with training := false }
  match pick with
  | none =>
    let s := ((s.put R.WHARF_LINK.RATE 0 0).put R.WHARF_LINK.WIDTH 0 0).put R.WHARF_LINK.LOPT 0 0
    (s.put R.WHARF_LINK.UIO 0 0).put R.WHARF_LINK.REVERSED 0 0
  | some i =>
    let s := (s.put R.WHARF_LINK.RATE 0 (if i < 2 then 2 else 1)).put R.WHARF_LINK.WIDTH 0 (if i % 2 = 0 then 8 else 4)
    let s := (s.put R.WHARF_LINK.LOPT 0 (b2n (lopt && s.on R.WHARF_CTRL.LOPT_EN))).put R.WHARF_LINK.UIO 0
      (b2n (uio && s.on R.WHARF_CTRL.UIO_EN))
    (s.put R.WHARF_LINK.REVERSED 0 (b2n reversed)).modWharf fun w => { w with up := true }

/-- The port loops its own transmit to its receive and trains with no partner (R501). -/
def State.nearLoop (s : State) : Bool :=
  match s.bist.loop with
  | some l => decide (l.1 = 1)
  | none => false

/-- The host port trains. One that finds no common configuration is down, which resets every LD (R392, R411). -/
def execHostLinkTrain (offers : BitVec 4) (lopt uio reversed : Bool) (s : State) : Result :=
  .next (if s.power.inReset || s.board.perst || s.nearLoop then s
  else if offers = 0 then s.hostPortDown.hostTrain 0 false false false
  else s.hostTrain offers.toNat lopt uio reversed)

/-- A request for a die reset: refused while the die holds something of a context, joined while one runs (R63, R64). A
self-test's items on the die end ABORTED (R495). -/
def State.rstDie (s : State) (d : Nat) : State :=
  if s.resets.any fun r => decide (r.domain = 1) && decide (r.inst = d) then s
  else if s.dieHeld d then s.errlog .rst 0 4 d 0 0
  else
    let s := s.bistAbortOn fun it => it.onDie d
    let s := { s with resets := s.resets ++ [(⟨1, d, false, false⟩ : ResetRec)] }
    (s.put R.RST_STATUS.DIE 0 (setBit (s.fld R.RST_STATUS.DIE) d)).dieReset d

/-- START of a loop (R500-R504): NEAR_DIGITAL drops the host link. -/
def State.loopStart (s : State) : State :=
  let l := (s.fld R.LOOP_SEL.IF, s.fld R.LOOP_SEL.INST, s.fld R.LOOP_SEL.DEPTH)
  let r := s.loopRefusal l
  if r ≠ 0 then s.put R.LOOP_STATUS.RESULT 0 r
  else
    let s := s.put R.LOOP_STATUS.BUSY 0 1
    let s : State := { s with bist := { s.bist with loop := some l } }
    if l.1 = 0 then s.setLink l.2.1 6
    else if l.1 = 1 then s.hostPortDown
    else s

/-- STOP of a loop (R504). -/
def State.loopStop (s : State) : State := s.loopDone 6

/-- The head item of the run starts. -/
def execBistItemStart (s : State) : Result := .next s.bistItemStart

/-- A running item ends. `fail` is its fail mask; for DIE_MEM bit 0 says that the engines fail and `subs` lists the
failing subpages of the slice. -/
def execBistItemEnd (cls : BitVec 4) (inst : BitVec 5) (fail : BitVec 64) (subs : List (Fin 512)) (sig stored : BitVec 64)
    (s : State) : Result :=
  .next (s.bistItemEnd cls.toNat inst.toNat fail.toNat (subs.map fun i => i.val) sig.toNat stored.toNat)

/-- The head item has waited 1 s for power. -/
def execBistPowerSkip (s : State) : Result := .next s.bistPowerSkip

/-- The loop's DURATION expires: errors per lane, light per wavelength, the wavelengths that stayed dark for the first
10 ms of a far-end loop, and what a stack's own test reports. -/
def execLoopEnd (errs : List (BitVec 16)) (light dark : BitVec 8) (pass : Bool) (s : State) : Result :=
  .next (s.loopEnd (errs.map fun e => e.toNat) light.toNat dark.toNat pass)

/-- The link partner starts a loop-back in which the port follows (R501). -/
def execPcsLoopbackFollower (s : State) : Result :=
  .next (if s.wharf.up && !s.on R.LOOP_CXL.FOLLOW_DIS && !s.bist.follower then
    let s := s.bump R.LOOP_CXL.ENTRIES 0
    ({ s with bist := { s.bist with follower := true } } : State).modWharf fun w => { w with heldLds := true }
  else s)

/-- The link partner exits its loop-back, and the held traffic goes on. -/
def execPcsLoopbackExit (s : State) : Result :=
  .next (({ s with bist := { s.bist with follower := false } } : State).modWharf fun w => { w with heldLds := false })

end Sys2Proof.Machine
end

