-- ==== Sys2Proof/Machine/I3c.lean ====
section
/-! DEFINITION. Machine/I3c.lean: the I3C target of the management domain (R34, R35, R60, R440, R441). -/
namespace Sys2Proof.Machine

/-- The target answers (R35). -/
def State.i3cUp (s : State) : Bool := s.board.standby && s.board.mgmtUp

/-- The target has an address: private writes reach it (R34, R440). In SCRAPPED it answers READ_STATUS only (R468). -/
def State.i3cPrivate (s : State) : Bool := s.i3cUp && s.board.i3cAddr.isSome && decide (s.sec.fuses.life < 4)

/-- An ignored write is counted (R440). -/
def State.i3cIgnored (s : State) : State := s.bump R.PWR_I3C_ERRORS.COUNT 0

/-- The controller assigns the dynamic address (R34). -/
def execI3cEntdaa (addr : BitVec 7) (s : State) : Result :=
  .next (if s.i3cUp then { s with board := { s.board with i3cAddr := some addr } } else s)

/-- A cap within the range of R440. -/
def capInRange (w : BitVec 16) : Bool := decide (700 ≤ w.toNat ∧ w.toNat ≤ 2000)

/-- SET_CAP (R439, R440). -/
def execSetCap (watts : BitVec 16) (s : State) : Result :=
  if !s.i3cPrivate then .next s
  else .next (if capInRange watts then s.heartbeat.setCap watts.toNat 2 else s.i3cIgnored)

/-- SET_ALERT_CAP (R440). -/
def execSetAlertCap (watts : BitVec 16) (s : State) : Result :=
  if !s.i3cPrivate then .next s
  else .next (if capInRange watts then s.heartbeat.put R.PWR_ALERT_CAP.CAP 0 watts.toNat else s.i3cIgnored)

/-- HEARTBEAT (R440, R441). -/
def execHeartbeat (s : State) : Result := .next (if s.i3cPrivate then s.heartbeat else s)

/-- SET_ORPHAN: the orphan cap and its timeout (R440). -/
def execSetOrphan (watts timeout : BitVec 16) (s : State) : Result :=
  if !s.i3cPrivate then .next s
  else if capInRange watts && decide (timeout ≠ 0) then
    .next ((s.heartbeat.put R.PWR_ORPHAN.CAP 0 watts.toNat).put R.PWR_ORPHAN.TIMEOUT 0 timeout.toNat)
  else .next s.i3cIgnored

/-- A temperature in 0.125 °C as a signed byte of whole degrees, rounded down. -/
def degrees (v : Nat) : Nat := twos 8 (sext 12 v / 8)

/-- The 16-byte status block (R440). -/
def State.statusBlock (s : State) : List Byte :=
  leBytes (s.fld R.PWR_MEAS.MEAS) 2 ++ leBytes (s.fld R.PWR_LIMIT.L) 2 ++
  leBytes (s.fld R.PWR_STATUS.REASONS + 32 * s.fld R.PWR_STATUS.ORPHAN + 64 * s.fld R.PWR_STATUS.SAG +
    128 * s.fld R.PWR_STATUS.DIVERGED) 1 ++
  leBytes (degrees (twos 12 (((List.range 8).map fun d => sext 12 (s.fld R.THERM_DIE.HOT 0 d)).foldl max
    (sext 12 (s.fld R.THERM_DIE.HOT 0 0))))) 1 ++
  leBytes (degrees (s.fld R.THERM_COOLANT.INLET)) 1 ++ leBytes (degrees (s.fld R.THERM_COOLANT.OUTLET)) 1 ++
  leBytes (s.fld R.PWR_ENERGY.COUNT / 1000) 4 ++
  leBytes (s.fld R.DEV_PWR.CURRENT + 4 * b2n s.pwrGood + 8 * s.fld R.THERM_STATUS.TRIP + 16 * s.fld R.FAULT_STATUS.FAULT_L) 1 ++
  [0, 0, 0]

/-- READ_STATUS: the private read that follows returns the status block, here given at once (R440). -/
def execReadStatus (s : State) : Result :=
  if s.i3cUp && s.board.i3cAddr.isSome then
    let t := if s.i3cPrivate then s.heartbeat else s
    .next (t.emit (.answer "i3c" t.statusBlock))
  else .next s

/-- WAKE: the module leaves P3 and the main conversion restarts (R60). -/
def execI3cWake (s : State) : Result :=
  if s.i3cPrivate then .next ({ s.heartbeat with board := { s.heartbeat.board with p3 := false } } : State).tryStart
  else .next s

/-- An unknown code, a wrong length or an argument out of range is ignored and counted (R440). -/
def execI3cInvalidWrite (s : State) : Result := .next (if s.i3cPrivate then s.i3cIgnored else s)

end Sys2Proof.Machine
end

