-- ==== Sys2Proof/Machine/FabricOps.lean ====
section
/-! DEFINITION. Machine/FabricOps.lean: flits, the Lock checks, link-local packets, the time exchange and the loading
of a Lock configuration (R345, R347, R349-R365; 13_optical_fabric_and_slices.md). -/
namespace Sys2Proof.Machine

/-! ### Flits (R345, R347) -/

/-- CRC-64 of ECMA-182, most significant bit first, with initial value 0 and no inversion (log entry 50). -/
def crc64Byte (c b : Nat) : Nat :=
  (List.range 8).foldl (fun v _ => if v.testBit 63 then (v * 2 % 2 ^ 64) ^^^ 0x42F0E1EBA9EA3693 else v * 2)
    (c ^^^ (b * 2 ^ 56))

def crc64 (bs : List Byte) : Nat := bs.foldl (fun c b => crc64Byte c b.toNat) 0

/-- Sends a flit without packet data: an acknowledgement, or a NAK, with the credit of an accepted flit (R345, R347;
log entry 51). -/
def State.flitOut (s : State) (k : Nat) (nak : Bool) (crVc crDed : Nat) : State :=
  let l := s.linkLayer k
  (s.setLinkLayer k { l with txNext := (l.txNext + 1) % 4096 }).emit
    (.flit k (l.txNext + 2 ^ 12 * ((l.rxNext + 4095) % 4096) + 2 ^ 24 * b2n nak + 2 ^ 28 + 2 ^ 29 * crVc + 2 ^ 32 * crDed))

/-- The credits and the acknowledgement that an accepted flit carries (R345, R347). -/
def LinkLayer.takeHeader (l : LinkLayer) (hdr : Nat) : LinkLayer :=
  let vc := field hdr 29 3
  let shr := field hdr 40 10
  { l with
    rxNext := (l.rxNext + 1) % 4096
    discarding := false
    acked := field hdr 12 12
    ded := l.ded.set vc (min 16 (l.ded[vc]?.getD 0 + field hdr 32 8))
    shared := min 896 (l.shared + shr)
    pool := l.pool.set vc (l.pool[vc]?.getD 0 - shr) }

/-- A flit arrives (R345): one that fails its CRC or breaks the sequence is discarded, and a NAK is sent once until the
replay arrives; an accepted one gives its credits and its acknowledgement, and a NAK in it makes this end replay. -/
def State.flitIn (s : State) (k hdr : Nat) (data : List Byte) (crc : Nat) : State :=
  let l := s.linkLayer k
  if crc64 (leBytes hdr 8 ++ data) ≠ crc ∨ field hdr 0 12 ≠ l.rxNext then
    if l.discarding then s else (s.setLinkLayer k { l with discarding := true }).flitOut k true 0 0
  else
    let s := s.setLinkLayer k (l.takeHeader hdr)
    let s := if bit hdr 24 then s.bumpAt R.LINK_REPLAYS.COUNT (k / 16) (k % 16) else s
    let s := s.drainPort k
    if bit hdr 28 then s else s.flitOut k false (field hdr 25 3) 1

/-! ### Lock checks (R356, R357) -/

def lockUnit : Raiser := .page .lock 0

/-- A packet fails a Lock check: 1 ingress, 2 destination, 3 forwarding, 4 transit. -/
def State.lockDrop (s : State) (check port : Nat) (p : Packet) : State :=
  let s := if check = 1 then s.bump R.LOCK_DROP_INGRESS.COUNT 0
    else if check = 4 then s.bump R.LOCK_DROP_TRANSIT.COUNT 0 else s.bump R.LOCK_DROP_DEST.COUNT 0
  let s := ((s.put R.LOCK_LAST_DROP.SRC 0 p.src).put R.LOCK_LAST_DROP.SLICE 0 p.slice).put R.LOCK_LAST_DROP.PORT 0 port
  let s := (s.put R.LOCK_LAST_DROP.VC 0 p.vc).put R.LOCK_LAST_DROP.CHECK 0 check
  s.raiseOnce (toldKey 0x2413 0) msTicks lockUnit none 0x2413
    (w4 [p.src + 2 ^ 12 * p.slice + 2 ^ 20 * port + 2 ^ 26 * p.vc + 2 ^ 29 * check])

/-- A packet that has passed an intermediate module already and is for another node (R355). -/
def State.misrouted (s : State) (p : Packet) : State :=
  (s.bump R.ROUTE_MISROUTED.COUNT 0).raiseOnce (toldKey 0x2412 0) msTicks routeUnit none 0x2412 (w4 [p.src, p.dst])

/-- Committed grant g as `LOCK_TRANSIT` holds it. -/
def State.grant (s : State) (g : Nat) : Nat := s.fld R.LOCK_TRANSIT.GRANT 0 g

/-- A grant is in force for a slice and covers a node (R358). -/
def grantCovers (w slice n : Nat) : Bool :=
  bit w 8 && decide (field w 0 8 = slice ∧ field w 16 12 ≤ n ∧ n ≤ field w 32 12)

/-- Some committed grant covers a node for a slice. -/
def State.granted (s : State) (slice n : Nat) : Bool := (List.range 16).any fun g => grantCovers (s.grant g) slice n

/-- The channel of a packet after this module has passed it on (R355). -/
def nextVc : Nat → Nat
  | 0 => 1 | 2 => 3 | 4 => 5 | v => v

/-- A packet for another node: the forwarding or the transit check, then the route (R355, R357). -/
def State.passOn (s : State) (port : Nat) (p : Packet) : State :=
  if p.vc = 7 ∧ (p.slice = s.slice ∨ p.hop = true ∨ s.granted p.slice p.dst = false) then s.lockDrop 4 port p
  else if p.vc ≠ 7 ∧ (p.slice ≠ s.slice ∨ s.slice = 0) then s.lockDrop 3 port p
  else if p.hop then s.misrouted p
  else s.forward { p with hop := true, vc := nextVc p.vc }

/-! ### Time exchange (R363-R365) -/

/-- A port's count of 1/16 `TICK`. -/
def State.stamp (s : State) (sub : Nat) : Nat := s.tick * 16 + sub

/-- A source answers a time request (R351, R364). -/
def State.timeRequest (s : State) (p : Packet) (sub2 sub3 : Nat) : State :=
  if s.on R.LINK_TIME_CFG.MASTER then
    (s.injectOwn {
      dst := p.src, src := 0, slice := 0, vc := 6, hop := false, type := 0xF6,
      head := leBytes (p.h 8 2) 2 ++ List.replicate 6 0 ++ leBytes (p.h 16 8) 8 ++ leBytes (s.stamp sub2) 8,
      payload := leBytes (s.stamp sub3) 8 }).2
  else s

/-- The exchange with the least round trip; the newest of equals. -/
def bestExchange : List (Int × Int) → Int × Int
  | [] => (0, 0)
  | [e] => e
  | e :: t => let b := bestExchange t; if e.2 ≤ b.2 then e else b

/-- The module is no longer aligned: cause 0 by its offset, 1 for want of exchanges (R365). -/
def State.unaligned (s : State) (theta : Nat) (cause : Nat) : State :=
  if s.on R.LINK_TIME_STATUS.ALIGNED then
    (s.put R.LINK_TIME_STATUS.ALIGNED 0 0).raise (.page .link 0) none 0x1401 (w4 [theta, cause])
  else s

/-- A valid exchange: the offset and round trip of the best of the last eight, the rate trim, which the spec bounds and
does not give, and alignment within 100 ns (R364, R365). -/
def State.timeExchange (s : State) (theta delta : Int) : State :=
  let ex := ((theta, delta) :: s.fabric.exchanges).take 8
  let b := bestExchange ex
  let t := twos 32 b.1
  let s := { s with fabric := { s.fabric with timeSent := none, exchanges := ex, silent := 0 } }
  let s := (s.put R.LINK_TIME_OFFSET.THETA 0 t).put R.LINK_TIME_DELAY.DELTA 0 (twos 32 b.2)
  let trim := s.freeNat 64
  let lock := trim.2.freeNat 1
  let s := (lock.2.put R.LINK_TIME_TRIM.TRIM 0 (twos 32 ((trim.1 % 1000001 : Nat) - 500000 : Int))).put
    R.LINK_TIME_STATUS.FREQ_LOCK 0 lock.1
  if b.1.natAbs ≤ 160 then s.put R.LINK_TIME_STATUS.ALIGNED 0 1 else s.unaligned t 0

/-- The answer to the outstanding time request arrives (R364); any other answer is dropped. -/
def State.timeAnswer (s : State) (p : Packet) (sub : Nat) : State :=
  match s.fabric.timeSent with
  | some (seq, t1) =>
    if p.h 8 2 = seq ∧ p.h 16 8 = t1 ∧ p.src = s.fld R.LINK_TIME_CFG.SOURCE then
      let t2 : Int := p.h 24 8
      let t3 : Int := ofLe (p.payload.take 8)
      let t4 : Int := s.stamp sub
      s.timeExchange (((t2 - t1) - (t4 - t3)) / 2) ((t4 - t1) - (t3 - t2))
    else s
  | none => s

/-- The source can be reached, but only through another slice's module (R364). -/
def State.onlyTransit (s : State) : Bool :=
  let e := s.route (s.fld R.LINK_TIME_CFG.SOURCE)
  let direct (mask : Nat) (t : Bool) : Bool := !t && decide (s.usable 0 mask false ≠ 0)
  e.v && !(direct e.pri e.priTransit || direct e.alt e.altTransit) &&
    decide (s.usable 0 e.pri false ≠ 0 ∨ s.usable 0 e.alt false ≠ 0)

/-- A period of the exchange passes: a request is sent (R364), and after 16 periods without a valid exchange the module
reports itself unaligned (R365). -/
def State.timePeriod (s : State) (sub : Nat) : State :=
  if s.on R.LINK_TIME_CFG.EN && !s.on R.LINK_TIME_CFG.MASTER then
    let n := s.fabric.silent + 1
    let s := { s with fabric := { s.fabric with silent := min n 16, timeSent := none } }
    let s := if n = 16 then s.unaligned (s.fld R.LINK_TIME_OFFSET.THETA) 1 else s
    let s := s.put R.LINK_TIME_STATUS.NO_PATH 0 (b2n s.onlyTransit)
    if s.onlyTransit then s
    else
      let seq := s.fabric.timeSeq
      let s := { s with fabric := { s.fabric with timeSeq := (seq + 1) % 65536, timeSent := some (seq, s.stamp sub) } }
      (s.injectOwn {
        dst := s.fld R.LINK_TIME_CFG.SOURCE, src := 0, slice := 0, vc := 6, hop := false, type := 0xF5,
        head := leBytes seq 2 ++ List.replicate 6 0 ++ leBytes (s.stamp sub) 8 ++ List.replicate 8 0,
        payload := [] }).2
  else s

/-! ### Link-local packets (R350, R351, R361) -/

/-- A link carries link management: it is UP or MISCABLED (R337). -/
def State.linkTalks (s : State) (k : Nat) : Bool := decide (s.linkState k = linkUp ∨ s.linkState k = 3)

/-- A peer's IDENT outside training: its identity is recorded (R350, R351). -/
def State.identIn (s : State) (k : Nat) (p : Ident) : State := if s.linkTalks k then s.setPeer k p else s

/-- LINK_MGMT: 0 DOWN_NOTICE, 1 RETRAIN_REQUEST (R351). -/
def State.linkMgmt (s : State) (k op cause : Nat) : State :=
  if op = 0 then s.linkDown k cause
  else if op = 1 ∧ s.linkState k = 4 ∧ s.on R.LINK_CFG.AUTO_RETRAIN (k / 16) = true then s.trainLink k
  else s

/-- The grants that a yes for these ranges rests on. -/
def State.grantsFor (s : State) (slice : Nat) (ranges : List (Nat × Nat)) : List Nat :=
  (List.range 16).filter fun g => ranges.any fun r =>
    (List.range (r.2 + 1 - r.1)).any fun i => grantCovers (s.grant g) slice (r.1 + i)

/-- A transit query is answered from the committed grants, and a yes pins them to the link (R351, R361). -/
def State.transitQuery (s : State) (k qid slice : Nat) (ranges : List (Nat × Nat)) : State :=
  if s.linkTalks k then
    let yes := decide (ranges ≠ [] ∧ ranges.length ≤ 16) && ranges.all fun r =>
      decide (r.1 ≤ r.2) && (List.range (r.2 + 1 - r.1)).all fun i => s.granted slice (r.1 + i)
    let s := if yes then
        { s with fabric := { s.fabric with pins := s.fabric.pins ++ (s.grantsFor slice ranges).map fun g => (k, qid, g) } }
      else s
    s.emit (.ctl k 0xF3 (leBytes qid 2 ++ leBytes (b2n (!yes)) 1 ++ List.replicate 21 0))
  else s

/-- An answer to this module's query: one for a configuration being loaded is recorded, another decides at once
(R361). -/
def State.transitAnswer (s : State) (k qid : Nat) (yes : Bool) : State :=
  match s.fabric.queries.find? fun q => decide (q.link = k ∧ q.qid = qid) with
  | some q =>
    if q.load then
      { s with fabric := { s.fabric with
        queries := s.fabric.queries.map fun x => if x.link = k ∧ x.qid = qid then { x with answer := some yes } else x } }
    else
      { s with fabric := { s.fabric with
        queries := s.fabric.queries.filter fun x => !decide (x.link = k ∧ x.qid = qid)
        granted := if yes then s.fabric.granted ++ [⟨k, qid, q.slice, q.ranges⟩] else s.fabric.granted } }
  | none => s

/-- The pins of an earlier answer are released (R351). -/
def State.pinRelease (s : State) (k qid : Nat) : State :=
  { s with fabric := { s.fabric with pins := s.fabric.pins.filter fun p => !decide (p.1 = k ∧ p.2.1 = qid) } }

/-- Ranges of a transit query's payload. -/
def queryRanges (p : Packet) : List (Nat × Nat) :=
  (List.range (p.h 11 1)).map fun i =>
    let w := ofLe ((p.payload.drop (4 * i)).take 4)
    (field w 0 12, field w 16 12)

/-- The identity in an IDENT packet (R351). -/
def identOf (p : Packet) : Ident :=
  let f := p.h 11 1
  ⟨p.h 8 2 % 4096, p.h 10 1, f % 8, bit f 3, field f 4 2, p.h 12 1 % 32⟩

/-- A link-local packet, consumed by the port that receives it (R350). -/
def State.ctlIn (s : State) (k : Nat) (p : Packet) : State :=
  match p.type with
  | 0xF0 => s.identIn k (identOf p)
  | 0xF1 => s.linkMgmt k (p.h 8 1) (p.h 9 1 % 16)
  | 0xF2 => s.transitQuery k (p.h 8 2) (p.h 10 1) (queryRanges p)
  | 0xF3 => s.transitAnswer k (p.h 8 2) (decide (p.h 10 1 = 0))
  | _ => s.pinRelease k (p.h 8 2)

/-! ### Arrival (R57, R349, R350, R353, R357) -/

/-- A packet for this module: the destination check, then its unit. A sleeping module wakes for it or holds it. -/
def State.acceptHere (s : State) (port : Nat) (p : Packet) (env : Surround) (sub2 sub3 : Nat) : State :=
  if p.slice ≠ s.slice ∨ s.slice = 0 then s.lockDrop 2 port p
  else if p.type = 0xF5 then s.timeRequest p sub2 sub3
  else if p.type = 0xF6 then s.timeAnswer p sub2
  else if s.asleep then
    if s.on R.DEV_PWR.AUTO_WAKE then s.wake.deliver p env
    else { s with power := { s.power with heldPackets := s.power.heldPackets ++ [(port, p)] } }
  else s.deliver p env

/-- Messages held while asleep are delivered as the module wakes (R57). -/
def State.releasePackets (s : State) : State :=
  let q := s.power.heldPackets
  q.foldl (fun s (e : Nat × Packet) => s.acceptHere e.1 e.2 ⟨.ok, .ok, [], []⟩ 0 0)
    { s with power := { s.power with heldPackets := [] } }

/-- A packet arrives on link k. -/
def State.arrive (s : State) (k : Nat) (p : Packet) (env : Surround) (sub2 sub3 : Nat) : State :=
  if !s.linkTalks k then s
  else if 0xF0 ≤ p.type ∧ p.type ≤ 0xF4 then s.ctlIn k p
  else if 0xF7 ≤ p.type ∨ s.linkState k ≠ linkUp then s
  else if 4096 < p.payload.length then s.bump R.ROUTE_MISROUTED.COUNT 0
  else if s.peerPlane k = false ∧ (p.vc ≠ 7 ∧ p.slice ≠ s.peerSlice k ∨ p.vc = 7 ∧ p.slice = s.peerSlice k) then
    s.lockDrop 1 k p
  else if p.dst = s.node then s.acceptHere k p env sub2 sub3
  else s.passOn k p

/-! ### Loading a Lock configuration (R359-R362) -/

/-- Little-endian word of a Lock image. -/
def lockWord (img : List Byte) (off n : Nat) : Nat := ofLe ((img.drop off).take n)

/-- Consecutive 16-byte route entries from node n on; none with the first node whose entry has a reserved bit set
(R352). -/
def parseRoutes : Nat → Nat → List Byte → Except Nat (Table Route)
  | 0, _, _ => .ok []
  | m + 1, n, bs =>
    let pri := ofLe (bs.take 4)
    let alt := ofLe ((bs.drop 4).take 4)
    let f := ofLe ((bs.drop 8).take 4)
    if field f 4 4 ≠ 0 ∨ field f 16 16 ≠ 0 ∨ ofLe ((bs.drop 12).take 4) ≠ 0 then .error n
    else
      match parseRoutes m (n + 1) (bs.drop 16) with
      | .error e => .error e
      | .ok t =>
        let r : Route := ⟨pri, alt, bit f 0, bit f 1, bit f 2, bit f 3, field f 8 8⟩
        .ok (if r = Route.none then t else (n, r) :: t)

/-- The configuration of an image, or the first of checks 1 and 2 that it fails with its index (R360). Grants beyond
those in use hold nothing. -/
def parseLock (img : List Byte) : Except (Nat × Nat) LockImage :=
  let grants := (List.range 16).map fun i => lockWord img (0x10 + 8 * i) 8
  let expects := (List.range 32).map fun i => lockWord img (0x90 + 4 * i) 4
  let self := lockWord img 4 4
  let n := lockWord img 8 4
  if img.length < 0x11000 then .error (1, 0)
  else if lockWord img 0 4 ≠ 0x4C4F434B ∨ field self 12 4 ≠ 0 ∨ field self 24 8 ≠ 0 ∨ 16 < n ∨ lockWord img 12 4 ≠ 0 ∨
      (grants.any fun g => decide (field g 9 7 ≠ 0 ∨ field g 28 4 ≠ 0 ∨ field g 44 20 ≠ 0)) = true ∨
      (expects.any fun e => decide (field e 14 18 ≠ 0)) = true ∨
      (((img.drop 0x110).take 3824).any fun b => decide (b ≠ 0)) = true then .error (2, 0)
  else
    match parseRoutes 4096 0 (img.drop 0x1000) with
    | .error i => .error (2, i)
    | .ok routes => .ok ⟨field self 0 12, field self 16 8, n,
        grants.zipIdx.map fun g => if g.2 < n then g.1 else 0, expects, routes, img.take 0x11000⟩

/-- Ports of an entry that reach it without a transit mark. -/
def Route.direct (r : Route) : Nat := (if r.priTransit then 0 else r.pri) ||| (if r.altTransit then 0 else r.alt)

/-- The first of checks 3 to 8 that a configuration fails, with its index; result 0 where it passes (R360). -/
def State.lockCheck (s : State) (i : LockImage) : Nat × Nat :=
  let busy := (List.range 16).any fun c =>
    decide (s.fld R.CTX_STATUS.STATE c = ctxActive ∨ s.fld R.CTX_STATUS.STATE c = ctxQuiescing)
  let badGrant := (List.range 16).find? fun g =>
    let w := i.grants[g]?.getD 0
    bit w 8 && decide (field w 32 12 < field w 16 12 ∨ (field w 16 12 ≤ i.node ∧ i.node ≤ field w 32 12))
  let badLink := (List.range 32).find? fun k => decide (s.linkState k = linkUp) &&
    expectDiffers (i.expects[k]?.getD 0) (s.peerNode k) (s.peerPlane k)
  let badRoute := i.routes.find? fun e => e.2.v && decide (e.2.slice = i.slice) &&
    (List.range 32).any fun k => bit e.2.direct k && decide (s.linkState k = linkUp ∧ s.peerSlice k ≠ i.slice ∧
      s.peerNode k ≠ e.1) && !s.peerPlane k
  if i.slice = 0 then (3, 0)
  else if (i.node ≠ s.node ∨ i.slice ≠ s.slice) ∧ busy = true then (4, 0)
  else if 256 < (i.routes.filter fun e => e.2.rack).length then (5, 0)
  else match badGrant, badLink, badRoute with
    | some g, _, _ => (6, g)
    | none, some k, _ => (7, k)
    | none, none, some e => (8, e.1)
    | none, none, none => (0, 0)

/-- The load ends with a result (R359, R360). -/
def State.lockRefuse (s : State) (result index : Nat) : State :=
  let s := { s with fabric := { s.fabric with
    image := none
    queries := s.fabric.queries.filter fun q => !q.load
    granted := s.fabric.granted ++ s.fabric.queries.filterMap fun (q : Query) =>
      if q.load = true ∧ q.answer = some true then some (⟨q.link, q.qid, q.slice, q.ranges⟩ : Yes) else none } }
  let s := ((s.put R.LOCK_RESULT.BUSY 0 0).put R.LOCK_RESULT.RESULT 0 result).put R.LOCK_RESULT.INDEX 0 index
  s.raise lockUnit none 0x0412 (w4 [result, index])

/-- `LOCK_CMD` LOAD: the image that host memory gives is read and checked, and transit queries go out on every UP port
that an entry uses through a transit mask (R359-R361). A command while BUSY is recorded and has no effect. -/
def State.lockLoad (s : State) (far : List Byte) : State :=
  if s.on R.LOCK_RESULT.BUSY then s.errlog .lock 0 4 0 0 0
  else
    let s := (s.put R.LOCK_RESULT.BUSY 0 1).emit (.hostRead 0 (s.addr R.LOCK_IMG_ADDR.ADDR) 0x11000)
    match parseLock far with
    | .error e => s.lockRefuse e.1 e.2
    | .ok i =>
      let r := s.lockCheck i
      if r.1 ≠ 0 then s.lockRefuse r.1 r.2
      else
        let s := { s with fabric := { s.fabric with image := some i } }
        (bitsSet s.portsUp 32).foldl (fun (s : State) k => s.queryPort i.routes i.slice k true) s

/-- The new grant that covers an old one, if any: the pinned grant is neither removed nor narrowed (R360). -/
def keptGrant (new : List Nat) (old : Nat) : Option Nat :=
  (List.range 16).find? fun g =>
    let w := new[g]?.getD 0
    bit w 8 && decide (field w 0 8 = field old 0 8 ∧ field w 16 12 ≤ field old 16 12 ∧ field old 32 12 ≤ field w 32 12)

/-- The new configuration needs a yes of the old one no longer (R351). -/
def Yes.unneeded (y : Yes) (i : LockImage) : Bool :=
  decide (y.slice ≠ i.slice) || !(transitNodes i.routes y.link).any fun n => y.ranges.any fun r => decide (r.1 ≤ n ∧ n ≤ r.2)

/-- Sends PIN_RELEASE for a yes. -/
def State.releaseYes (s : State) (y : Yes) : State :=
  s.emit (.ctl y.link 0xF4 (leBytes y.qid 2 ++ List.replicate 22 0))

/-- A configuration takes effect (R359): tables, NODE and SLICE change together. -/
def State.lockSwap (s : State) (i : LockImage) : State :=
  let old := s.fabric.granted
  let news := s.fabric.queries.filterMap fun (q : Query) =>
    if q.load = true ∧ q.answer = some true then some (⟨q.link, q.qid, q.slice, q.ranges⟩ : Yes) else none
  let pins := s.fabric.pins.map fun p => (p.1, p.2.1, (keptGrant i.grants (s.grant p.2.2)).getD 0)
  let s := { s with
    sec := { s.sec with lockImage := i.bytes }
    fabric := { s.fabric with
      image := none, routes := i.routes, expects := i.expects, pins := pins
      queries := s.fabric.queries.filter fun q => !q.load
      granted := (old.filter fun y => !y.unneeded i) ++ news } }
  let s := (List.range 16).foldl (fun (s : State) g => s.setFld R.LOCK_TRANSIT.GRANT 0 g (i.grants[g]?.getD 0)) s
  let s := ((s.put R.LOCK_SELF.NODE 0 i.node).put R.LOCK_SELF.SLICE 0 i.slice).put R.LOCK_SELF.GRANTS 0 i.inUse
  let s := s.bump R.LOCK_SELF.CFGGEN 0
  let s := (bitsSet s.portsUp 32).foldl (fun (s : State) k => s.emit (.ctl k 0xF0 (s.identBytes k))) s
  let s := (old.filter fun y => y.unneeded i).foldl State.releaseYes s
  let s := ((s.put R.LOCK_RESULT.BUSY 0 0).put R.LOCK_RESULT.RESULT 0 0).put R.LOCK_RESULT.INDEX 0 0
  s.raise lockUnit none 0x0411 (w4 [s.fld R.LOCK_SELF.CFGGEN])

/-- The transit answers are in, or 10 ms have passed: checks 9 and 10, then the swap (R359, R360). -/
def State.lockCommit (s : State) : State :=
  match s.fabric.image with
  | none => s
  | some i =>
    let failed := (s.fabric.queries.filter fun q => q.load && decide (q.answer ≠ some true)).map fun q =>
      (q.ranges.head?.map Prod.fst).getD 0
    let lost := (List.range 16).find? fun g =>
      (s.fabric.pins.any fun p => decide (p.2.2 = g)) && (keptGrant i.grants (s.grant g)).isNone
    match failed, lost with
    | n :: t, _ => s.lockRefuse 9 (t.foldl min n)
    | [], some g => s.lockRefuse 10 g
    | [], none => s.lockSwap i

/-- `LOCK_CMD` ISOLATE (R362). -/
def State.isolate (s : State) : State :=
  if s.on R.LOCK_RESULT.BUSY then s.errlog .lock 0 4 0 0 0
  else
    let s := s.fabric.granted.foldl State.releaseYes s
    let s := { s with fabric := { s.fabric with granted := [], pins := [], queries := [] } }
    let s := (List.range 32).foldl (fun (s : State) k =>
      let l := s.linkLayer k
      s.setLinkLayer k { l with waiting := l.waiting.filter fun p => decide (p.vc = 6) }) s
    let s := (List.range 16).foldl (fun (s : State) g => s.setFld R.LOCK_TRANSIT.GRANT 0 g 0) s
    let s := (s.put R.LOCK_SELF.GRANTS 0 0).put R.LOCK_SELF.SLICE 0 0
    (s.put R.LOCK_RESULT.RESULT 0 0).put R.LOCK_RESULT.INDEX 0 0

/-- A write of `LINK_EN` instance `inst` from `old` to `v` (R337, R339, R341): a cleared bit disables its link, a set one
trains it. -/
def State.linkEnWritten (s : State) (inst old v : Nat) : State :=
  (List.range 16).foldl (fun (s : State) i =>
    if bit old i && !bit v i then s.linkDisable (16 * inst + i)
    else if !bit old i && bit v i && decide (s.linkState (16 * inst + i) ≠ 6) then s.trainLink (16 * inst + i) else s) s

end Sys2Proof.Machine
end

