-- ==== Sys2Proof/Machine/Link.lean ====
section
/-! DEFINITION. Machine/Link.lean: what links, packets and the time exchange do
(13_optical_fabric_and_slices.md). Writes of `LINK_EN` and `LOCK_CMD` are in Machine/RegRows.lean. -/
namespace Sys2Proof.Machine

/-- A training ends with the peer's identity (R338). -/
def execLinkTrainingDone (k : Fin 32) (light : BitVec 8) (node : BitVec 12) (slice : BitVec 8) (member : BitVec 3)
    (plane : Bool) (plan : BitVec 2) (peerLink : BitVec 5) (s : State) : Result :=
  .next (if s.linkState k = 1 then
    s.linkTrained k light.toNat ⟨node.toNat, slice.toNat, member.toNat, plane, plan.toNat, peerLink.toNat⟩
  else s)

/-- A training has not ended by 300 ms: the link stays down and keeps retrying (R71, R338, R341). -/
def execLinkTrainingTimeout (k : Fin 32) (light : BitVec 8) (s : State) : Result :=
  .next ((if s.linkState k = 1 then s.setFld R.LINK_STATE.LIGHT (k / 16) (k % 16) light.toNat else s).lateLink k)

/-- The one-second retry of a link that failed training (R341). -/
def execLinkTrainingRetry (k : Fin 32) (s : State) : Result :=
  .next (if s.linkState k = 4 ∧ (s.linkLayer k).trainFailed = true then s.trainLink k else s)

/-- Light or FEC lock is lost for more than 1 µs: cause 1 (R339). -/
def execLossOfLight (k : Fin 32) (light : BitVec 8) (s : State) : Result :=
  .next (if s.linkTalks k then (s.setFld R.LINK_STATE.LIGHT (k / 16) (k % 16) light.toNat).linkLost k 1 else s)

/-- More than `FEC_UE_MAX` uncorrectable codewords within 1 ms: cause 2 (R339). -/
def execFecUeThreshold (k : Fin 32) (s : State) : Result := .next (if s.linkTalks k then s.linkLost k 2 else s)

/-- More than `REPLAY_MAX` flit replays within 1 ms: cause 3 (R339). -/
def execReplayThreshold (k : Fin 32) (s : State) : Result := .next (if s.linkTalks k then s.linkLost k 3 else s)

/-- No acknowledgement progress for 50 µs while flits are outstanding: cause 4 (R339). -/
def execAckProgressTimeout (k : Fin 32) (s : State) : Result :=
  let l := s.linkLayer k
  .next (if s.linkTalks k && decide ((l.acked + 1) % 4096 ≠ l.txNext) then s.linkLost k 4 else s)

/-- `RETRAIN_DELAY` has passed since the link went down (R341); causes 7 and 8 are not retrained so. -/
def execRetrainDelayExpiry (k : Fin 32) (s : State) : Result :=
  let cause := s.fld R.LINK_STATE.DOWN_CAUSE (k / 16) (k % 16)
  .next (if s.linkState k = 4 ∧ (s.linkLayer k).trainFailed = false ∧ s.on R.LINK_CFG.AUTO_RETRAIN (k / 16) = true ∧
      cause < 7 then s.trainLink k else s)

/-- A flit arrives, with the codewords its FEC corrected and could not correct (R345). -/
def execFlitReceive (k : Fin 32) (hdr : Word64) (data : List Byte) (crc : Word64) (ce ue : BitVec 8) (s : State) :
    Result :=
  .next (if s.linkTalks k then
    ((s.bumpAt R.LINK_FEC_CE.COUNT (k / 16) (k % 16) ce.toNat).bumpAt R.LINK_FEC_UE.COUNT (k / 16) (k % 16)
      ue.toNat).flitIn k hdr.toNat data crc.toNat
  else s)

/-- A packet arrives on a link (R349-R358). `sub2` and `sub3` are the sixteenths of a `TICK` of its timestamps. -/
def execPacketArrival (k : Fin 32) (p : Packet) (env : Surround) (sub2 sub3 : BitVec 4) (s : State) : Result :=
  .next (s.arrive k p env sub2.toNat sub3.toNat)

/-- A peer's IDENT (R350, R351). -/
def execIdent (k : Fin 32) (node : BitVec 12) (slice : BitVec 8) (member : BitVec 3) (plane : Bool) (plan : BitVec 2)
    (peerLink : BitVec 5) (s : State) : Result :=
  .next (s.identIn k ⟨node.toNat, slice.toNat, member.toNat, plane, plan.toNat, peerLink.toNat⟩)

/-- LINK_MGMT DOWN_NOTICE: the link goes DOWN with the cause carried (R351). -/
def execDownNotice (k : Fin 32) (cause : BitVec 4) (s : State) : Result :=
  .next (if s.linkTalks k then s.linkMgmt k 0 cause.toNat else s)

/-- LINK_MGMT RETRAIN_REQUEST (R351). -/
def execRetrainRequest (k : Fin 32) (s : State) : Result := .next (s.linkMgmt k 1 0)

/-- A neighbour's transit query (R361). -/
def execTransitQuery (k : Fin 32) (qid : BitVec 16) (slice : BitVec 8) (ranges : List (BitVec 12 × BitVec 12))
    (s : State) : Result :=
  .next (s.transitQuery k qid.toNat slice.toNat (ranges.map fun r => (r.1.toNat, r.2.toNat)))

/-- The answer to a transit query of this module (R361). -/
def execTransitAnswer (k : Fin 32) (qid : BitVec 16) (yes : Bool) (s : State) : Result :=
  .next (s.transitAnswer k qid.toNat yes)

/-- A neighbour releases the pins of an earlier answer (R351). -/
def execPinRelease (k : Fin 32) (qid : BitVec 16) (s : State) : Result := .next (s.pinRelease k qid.toNat)

/-- A time request reaches this module (R364). -/
def execTimeReq (p : Packet) (sub2 sub3 : BitVec 4) (s : State) : Result :=
  .next (if p.slice ≠ s.slice ∨ s.slice = 0 then s.lockDrop 2 32 p else s.timeRequest p sub2.toNat sub3.toNat)

/-- A time answer reaches this module (R364, R365). -/
def execTimeResp (p : Packet) (sub : BitVec 4) (s : State) : Result :=
  .next (if p.slice ≠ s.slice ∨ s.slice = 0 then s.lockDrop 2 32 p else s.timeAnswer p sub.toNat)

/-- `PERIOD` × 100 µs pass (R364, R365). -/
def execTimeExchangePeriod (sub : BitVec 4) (s : State) : Result := .next (s.timePeriod sub.toNat)

/-- The transit answers of a load are in, or its 10 ms are over (R359, R360). -/
def execLockCommit (s : State) : Result := .next s.lockCommit

end Sys2Proof.Machine
end

