-- ==== Sys2Proof/Machine/Matrix.lean ====
section
/-! DEFINITION. Machine/Matrix.lean: the matrix engine executes the command at the head of a core's queue (R113-R135;
04_matrix_engine_and_pan_arithmetic.md). A command of another kind than the head, or an empty queue, leaves the state
as it is. -/
namespace Sys2Proof.Machine

/-- The head of core `n`'s queue, while the module runs. -/
def State.mxHead (s : State) (n : Nat) : Option MOp := if s.halted then none else (s.core n).engine.queue.head?

/-- Takes the head off the queue. -/
def State.mxPop (s : State) (n : Nat) : State := s.modCore n Core.mxNext

/-- Sets the flags a command gave, in order. -/
def State.mxFlags (s : State) (n : Nat) (l : List Nat) : State := l.eraseDups.foldl (fun s i => s.mxFlag n i) s

/-- What a compute command leaves: its engine, its flags and its issued cycles. -/
def State.mxCompute (s : State) (n : Nat) (e : Engine) (flags : List Nat) (cycles : Nat) : State :=
  ((s.modCore n fun k => k.setEngine e).mxFlags n flags).mxIssue n cycles (decide (e.mode = 2))

/-- `MX_CFG` sets mode and `PAN_BP` and clears what it is told to (R116). -/
def execMxCfg (core : Fin 512) (s : State) : Result :=
  .next (match s.mxHead core with
    | some (.cfg clrAcc clrFlags mode bp) =>
      (s.mxPop core).modCore core fun k => k.setEngine (k.engine.cfg clrAcc clrFlags mode.toNat bp.toNat)
    | _ => s)

/-- The activation buffer after a load: rows at their step, everything else 0. -/
def ldaBuffer (k : Core) (src rows row step : Nat) : Table Byte :=
  (List.range rows).foldl (fun t r => tsetAll 0#8 t (16384 * r) (k.scrRead (src + r * step) row)) []

/-- The token scales after a load. -/
def ldaScales (k : Core) (src : Nat) : Table Nat :=
  (List.range 16).foldl (fun t r => tset 0x3F800000 t r (ofLe (k.scrRead (src + 4 * r) 4))) []

/-- `MX_LDA` loads the activation buffer and the token scales (R123). -/
def execMxLda (core : Fin 512) (ecc : Ecc) (s : State) : Result :=
  .next (match s.mxHead core with
    | some (.lda src rowsM1 fmt kuM1 stride scaleSrc scaleEn) =>
      if ecc = .uncorrectable then s.scrEcc core ecc
      else
        let row := (kuM1.toNat + 1) * 32 * fmtBytes fmt.toNat
        let step := if stride = 0#14 then ceil64 row else stride.toNat * 64
        ((s.mxPop core).modCore core fun k => k.setEngine { k.engine with
          afmt := fmt.toNat
          abuf := ldaBuffer k (src.toNat * 64) (rowsM1.toNat + 1) row step
          scales := if scaleEn then ldaScales k (scaleSrc.toNat * 64) else [] }).scrEcc core ecc
    | _ => s)

/-- `MX_MMW` multiplies a weight stream by the buffer; a mode it is not accepted in, or a fault of the stream, ends the
context (R117-R122, R125-R127). -/
def execMxMmw (core : Fin 512) (ecc : Ecc) (s : State) : Result :=
  .next (match s.mxHead core with
    | some (.mmw wsrc len slabsM1 koff) =>
      if (s.core core).engine.mmwOk = false then (s.mxPop core).mxError core 6
      else if ecc = .uncorrectable then s.scrEcc core ecc
      else
        let s := s.mxPop core
        let k := s.core core
        let r := k.engine.mmwSlabs (k.scrRead (wsrc.toNat * 64) (len.toNat * 64)) koff.toNat 0 (slabsM1.toNat + 1)
        let s := (s.mxCompute core r.1 r.2.1 r.2.2.1).scrEcc core ecc
        if r.2.2.2 then s.mxError core 7 else s
    | _ => s)

/-- `MX_MMA` multiplies the buffer by a B operand (R117, R124-R129). -/
def execMxMma (core : Fin 512) (ecc : Ecc) (s : State) : Result :=
  .next (match s.mxHead core with
    | some (.mma bsrc bfmt chM1 koff) =>
      if (s.core core).engine.mmaOk bfmt.toNat = false then (s.mxPop core).mxError core 6
      else if ecc = .uncorrectable then s.scrEcc core ecc
      else
        let s := s.mxPop core
        let k := s.core core
        let n := chM1.toNat + 1
        let r := k.engine.mmaChunks bfmt.toNat (k.scrRead (bsrc.toNat * 64) (n * 256)) koff.toNat
          (fun i => (Config.free s.free i).toNat) 0 n
        (({ s with free := s.free + 1 } : State).mxCompute core r.1 r.2 n).scrEcc core ecc
    | _ => s)

/-- `MX_RD` writes the tile out, and clears it where it is told to (R130). -/
def execMxRd (core : Fin 512) (drop : List Nat) (s : State) : Result :=
  .next (match s.mxHead core with
    | some (.rd dst ofmt tscale clr oshift stride) =>
      let s := s.mxPop core
      let e := (s.core core).engine
      let row := if ofmt = 0#2 then 32 else if ofmt = 1#2 then 64 else 16
      let step := if stride = 0#14 then row else stride.toNat * 64
      let outs := (List.range e.rows).map fun r => (dst.toNat * 64 + r * step, e.rowOut ofmt.toNat r tscale oshift.toInt)
      let writes := if stride = 0#14 then [(dst.toNat * 64, outs.flatMap fun o => o.2.1)] else outs.map fun o => (o.1, o.2.1)
      let lost := writes.any fun o => lostWords o.1 o.2.length drop != []
      let s := writes.foldl (fun (s : State) (o : Nat × List Byte) => s.scrPut core 1 o.1 o.2 drop) s
      let s := s.mxFlags core ((if outs.any fun o => o.2.2 then [4] else []) ++ (if lost then [5] else []))
      if clr then s.modCore core fun k => k.setEngine { k.engine with acc := [], bad := 0 } else s
    | _ => s)

/-- `MX_STF` writes the flags record, and clears the flags where it is told to (R131). -/
def execMxStf (core : Fin 512) (drop : List Nat) (s : State) : Result :=
  .next (match s.mxHead core with
    | some (.stf dst clr) =>
      let s := s.mxPop core
      let a := dst.toNat * 64
      let s := s.scrPut core 1 a (s.core core).engine.record drop
      let s := if lostWords a 64 drop = [] then s else s.mxFlag core 5
      if clr then s.modCore core fun k => k.setEngine { k.engine with flags := 0 } else s
    | _ => s)

end Sys2Proof.Machine
end

