-- ==== Sys2Proof/Machine/Power.lean ====
section
/-! DEFINITION. Machine/Power.lean: the end of a power transition (R57-R61; 02_clocks_reset_and_boot.md). The writes
of `DEV_PWR` are in Machine/RegRows.lean. -/
namespace Sys2Proof.Machine

/-- The module is awake: what it held is delivered (R57). -/
def State.awake (s : State) : State := s.releasePackets.releaseDoorbells

/-- The transition in progress completes; then the newest TARGET written during it acts (R59). -/
def execPowerTransitionDone (s : State) : Result :=
  .next (match s.power.goingTo with
  | some t =>
    if s.on R.DEV_PWR.BUSY then
      let s := s.enterPower t
      (if t = 0 then s.awake else s).heldTarget
    else s
  | none => s)

end Sys2Proof.Machine
end

