-- ==== Sys2Proof/Machine/Rack.lean ====
section
/-! DEFINITION. Machine/Rack.lean: node operations and messages as they reach this module past its router
(R367-R391; 14_rack_memory_semantics.md). Register writes of the MSF and MSG pages are in Machine/RegRows.lean. -/
namespace Sys2Proof.Machine

/-- A packet for this module from the on-package path, of one of the named TYPEs. -/
def State.reaches (s : State) (types : List Nat) (p : Packet) (env : Surround) : State :=
  if types.contains p.type then s.acceptHere 32 p env 0 0 else s

/-- A LOAD, STORE or AMO request reaches its destination (R371, R376). -/
def execNodeRequest (p : Packet) (env : Surround) (s : State) : Result := .next (s.reaches [1, 2, 3] p env)

/-- A home agent takes one slot of a line (R381). -/
def execHomeAgentSlot (line : BitVec 34) (env : Surround) (s : State) : Result := .next (s.homeSlot line.toNat env)

/-- A response reaches the source (R372, R378). -/
def execResp (p : Packet) (env : Surround) (s : State) : Result := .next (s.reaches [4] p env)

/-- A RESYNC reaches the destination (R377). -/
def execResync (p : Packet) (env : Surround) (s : State) : Result := .next (s.reaches [5] p env)

/-- A RESYNC_ACK reaches the source (R377). -/
def execResyncAck (p : Packet) (env : Surround) (s : State) : Result := .next (s.reaches [6] p env)

/-- `MSF_REQ_TIMEOUT` has passed for a pair (R376, R377). -/
def execMsfReqTimeout (node : BitVec 12) (s : State) : Result := .next (s.reqTimeout node.toNat)

/-- A bundle whose X slot is `X_MSG` (R384). -/
def execXMsg (core : Fin 512) (tag : BitVec 6) (desc : BitVec 14) (w : Bundle) (s : State) : Result :=
  .next (s.bundle core (withX w (.msg tag desc)))

/-- A PUT packet reaches the destination (R385, R389). -/
def execPut (p : Packet) (env : Surround) (s : State) : Result := .next (s.reaches [0x10] p env)

/-- A GET reaches the destination (R385). -/
def execGet (p : Packet) (env : Surround) (s : State) : Result := .next (s.reaches [0x11] p env)

/-- A GET_DATA packet reaches the source (R385). -/
def execGetData (p : Packet) (env : Surround) (s : State) : Result := .next (s.reaches [0x12] p env)

/-- A SEND packet reaches the destination (R386). -/
def execSend (p : Packet) (env : Surround) (s : State) : Result := .next (s.reaches [0x13] p env)

/-- A MSG_ACK reaches the source (R385). -/
def execMsgAck (p : Packet) (env : Surround) (s : State) : Result := .next (s.reaches [0x14] p env)

/-- `MSG_TIMEOUT` has passed since a message's last packet (R390). -/
def execMsgTimeout (id : BitVec 12) (s : State) : Result := .next (s.msgTimeout id.toNat)

/-- The destination abandons an unfinished use (R390). -/
def execMsgUseAbandon (node id : BitVec 12) (s : State) : Result := .next (s.abandonUse node.toNat id.toNat)

end Sys2Proof.Machine
end

