-- ==== Sys2Proof/Machine/SecOps.lean ====
section
/-! DEFINITION. Machine/SecOps.lean: authorisation tokens, debug scopes and debug commands (R467-R490;
19_lifecycle_security_debug.md). -/
namespace Sys2Proof.Machine

def secUnit : Raiser := .page .sec 0
def dbgUnit : Raiser := .page .dbg 0

/-! ### Tokens (R480-R483) -/

/-- Little-endian word of a token. -/
def tokWord (t : List Byte) (off n : Nat) : Nat := ofLe ((t.drop off).take n)

/-- Bytes `[lo, hi)` of a token are 0. -/
def tokZero (t : List Byte) (lo hi : Nat) : Bool := ((t.take hi).drop lo).all fun b => decide (b = 0)

def tokOp (t : List Byte) : Nat := tokWord t 0x30 4
def tokScopes (t : List Byte) : Nat := tokWord t 0x34 4
def tokArg (t : List Byte) : Nat := tokWord t 0x38 4
def tokSigner (t : List Byte) : Nat := tokWord t 0x3C 4
def tokSlot (t : List Byte) : Nat := tokArg t % 8

/-- ARG holds no reserved bit or encoding, by operation (R481). -/
def argOk (op a : Nat) : Bool :=
  match op with
  | 0 => decide (a < 2 ^ 16)
  | 1 => decide (a ≤ 4)
  | 2 => decide (1 ≤ a % 8 ∧ a % 8 ≤ 4 ∧ field a 3 5 = 0 ∧ a < 2 ^ 10)
  | 3 => decide (1 ≤ a ∧ a ≤ 4)
  | 4 => decide (a = 0)
  | _ => false

/-- Check 1: magic, version and encodings. -/
def tokForm (t : List Byte) : Bool :=
  decide (tokWord t 0 4 = 0x4B4F5448 ∧ tokWord t 4 4 = 1 ∧ tokScopes t < 128 ∧ tokSigner t ≤ 4) &&
    argOk (tokOp t) (tokArg t) && (decide (tokOp t = 2) || tokZero t 0x40 0x80) && tokZero t 0x18C 0x200

/-- The lifecycle state in force (R467, R469). -/
def State.life (s : State) : Nat := s.fld R.SEC_LIFECYCLE.STATE

def Fuses.owner (f : Fuses) (k : Nat) : OwnerSlot := f.owners[k - 1]?.getD OwnerSlot.empty

/-- Check 4: the signer slot is accepted for the operation in the state: Holyon's outside DEPLOYED, an active owner slot
in DEPLOYED, with DEBUG_SIGN for OPEN (R467, R469, R483, R489). -/
def State.signerOk (s : State) (op k : Nat) : Bool :=
  if s.life = 2 then s.sec.fuses.ownerActive k && (decide (op ≠ 0) || (s.sec.fuses.owner k).debugSign)
  else decide (s.life < 4 ∧ k = 0)

/-- Check 7: the operation, its scopes or its target are allowed in the state (R469, R483, R489). -/
def State.opAllowed (s : State) (t : List Byte) : Bool :=
  match tokOp t with
  | 0 => decide (s.life = 0 ∨ s.life = 3) || !(bit (tokScopes t) 4 || bit (tokScopes t) 6)
  | 1 => decide (tokArg t = 4 ∨ (tokArg t = 3 ∧ s.life = 2))
  | 2 => decide (s.life = 1 ∨ s.life = 2)
  | 3 => decide (s.life = 2)
  | _ => decide (s.life = 0)

/-- Scopes that clear before they open (R484): 0 CORE, 1 MEM and 4 MGMT, unless 5 DATA; 6 SCAN always. -/
def clearsFirst (scopes : Nat) : Bool :=
  bit scopes 6 || (!bit scopes 5 && (bit scopes 0 || bit scopes 1 || bit scopes 4))

/-- Check 8 applies: clearing or a transition is needed. -/
def State.needsDisabled (s : State) (t : List Byte) : Bool :=
  match tokOp t with
  | 0 => clearsFirst (tokScopes t)
  | 2 => decide (s.life = 1)
  | 3 => false
  | _ => true

/-- Check 10: the slot of an ENROLL is free; that of a REVOKE is enrolled and not the last unrevoked one. -/
def State.slotOk (s : State) (t : List Byte) : Bool :=
  let k := tokSlot t
  let f := s.sec.fuses
  match tokOp t with
  | 2 => !(f.owner k).enrolled
  | 3 => (f.owner k).enrolled && ((f.owner k).revoked || ([1, 2, 3, 4].any fun j => decide (j ≠ k) && f.ownerActive j))
  | _ => true

def State.allDisabled (s : State) : Bool :=
  (List.range 16).all fun c => decide (s.fld R.CTX_STATUS.STATE c = ctxDisabled)

/-- The nonce in force, as 32 bytes (R480). -/
def State.nonce (s : State) : List Byte := (List.range 8).flatMap fun i => leBytes (s.fld R.SEC_NONCE.NONCE 0 i) 4

/-- The first check of R482 that a token fails; 0 where it is accepted. -/
def State.tokenResult (s : State) (t : List Byte) : Nat :=
  let key := (t.drop 0x80).take 136
  if t.length < 512 then 9
  else if !tokForm t then 1
  else if tokWord t 8 8 ≠ s.sec.fuses.deviceId then 2
  else if (t.drop 0x10).take 32 ≠ s.nonce then 3
  else if !s.signerOk (tokOp t) (tokSigner t) then 4
  else if Config.sha512 (key.take 133) ≠ s.sec.fuses.slotHash (tokSigner t) then 5
  else if !Config.ecdsaVerify key (t.take 0x108) ((t.drop 0x108).take 132) then 6
  else if !s.opAllowed t then 7
  else if s.needsDisabled t && !s.allDisabled then 8
  else if !s.slotOk t then 10
  else if decide (tokOp t = 4) && s.sec.fuses.secretWritten then 11
  else if tokOp t = 0 ∧ bit (tokScopes t) 6 = true ∧ s.fld R.DEV_PWR.CURRENT ≠ 0 then 12
  else 0

def State.modSec (s : State) (f : Security → Security) : State := { s with sec := f s.sec }
def State.modFuses (s : State) (f : Fuses → Fuses) : State := s.modSec fun x => { x with fuses := f x.fuses }

/-- `SEC_CMD` SUBMIT: the token that host memory gives is checked; one accepted is acted on by the command of its
operation (R480, R482). -/
def State.submit (s : State) (far : List Byte) : State :=
  if s.on R.SEC_RESULT.BUSY then s.errlog .sec 0 4 0 0 0
  else
    let s := s.emit (.hostRead 0 (s.addr R.SEC_TOKEN_ADDR.ADDR) 512)
    let t := far.take 512
    let r := s.tokenResult t
    let s := s.newNonce.put R.SEC_RESULT.OP 0 (tokOp t)
    if r = 0 then (s.put R.SEC_RESULT.BUSY 0 1).modSec fun x => { x with token := t }
    else
      ((s.put R.SEC_RESULT.RESULT 0 r).bump R.SEC_TOKENS_REFUSED.COUNT 0).raise secUnit none 0x0702 (w4 [r, tokOp t])

/-- The accepted token has been acted on. -/
def State.tokenDone (s : State) : State :=
  ((s.put R.SEC_RESULT.BUSY 0 0).put R.SEC_RESULT.RESULT 0 0).modSec fun x => { x with token := [] }

/-- An accepted token of an operation waits to be acted on. -/
def State.tokenWaits (s : State) (op : Nat) : Bool :=
  s.on R.SEC_RESULT.BUSY && decide (s.sec.token ≠ [] ∧ tokOp s.sec.token = op) && s.sec.opening.isNone

/-! ### Scopes (R484-R486) -/

def State.scope (s : State) (b : Nat) : Bool := bit (s.fld R.DBG_SCOPE.SCOPES) b

/-- Every scope closes: HALTED cores run again (R486); closing SCAN resets the module (R484). -/
def State.closeScopes (s : State) : State :=
  if s.fld R.DBG_SCOPE.SCOPES = 0 then s
  else if s.scope 6 then s.moduleReset.maybeStartSequence
  else
    let s := (s.put R.DBG_SCOPE.SCOPES 0 0).put R.DBG_SCOPE.MASK 0 0
    let s := (s.modSec fun x => { x with stepping := [] }).put R.DBG_STATUS.BUSY 0 0
    let s := (List.range 512).foldl (fun (s : State) n =>
      if s.coreState n = coreHalted then s.setCoreState n coreRunning else s) s
    s.raise dbgUnit none 0x0712 []

/-- Scopes open, and are reported (R486). -/
def State.openScopes (s : State) (scopes mask : Nat) : State :=
  let s := (s.put R.DBG_SCOPE.SCOPES 0 (s.fld R.DBG_SCOPE.SCOPES ||| scopes)).put R.DBG_SCOPE.MASK 0
    (s.fld R.DBG_SCOPE.MASK ||| mask)
  let s := s.put R.DBG_HISTORY.SCOPES 0 (s.fld R.DBG_HISTORY.SCOPES ||| scopes)
  let s := s.raise dbgUnit none 0x0711 (w4 [scopes, mask])
  let s := if bit scopes 5 then
      (List.range 15).foldl (fun (s : State) i =>
        if bit mask (i + 1) && s.on R.LD_CTRL.RINGS_EN (i + 1) then
          s.evqPush (i + 1) (eventRecord 0x0711 none dbgUnit s.tick (w4 [scopes, mask])) false
        else s) s
    else s
  s.tokenDone

/-- Clears every memory that a scope or a transition names (R469, R484): scratchpads, Basin and HBM, and the SRAM of the
serving controllers. -/
def State.clearMemories (s : State) (scr mem sram : Bool) : State :=
  let s := if scr then s.clearAllScr else s
  let s := if mem then { s with hbm := [], basin := [] } else s
  if sram then (List.range 16).foldl (fun (s : State) c => s.modCtx c fun x => { x with entries := [] }) s else s

/-- An accepted OPEN is acted on (R484, R490): at once where nothing is cleared; otherwise the clearing begins, and a
module in P1 or P2 wakes first. -/
def State.openToken (s : State) : State :=
  let scopes := tokScopes s.sec.token % 128
  let mask := tokArg s.sec.token % 65536
  if clearsFirst scopes then s.wake.modSec fun x => { x with opening := some (scopes, mask) }
  else s.openScopes scopes mask

/-- The clearing of an OPEN completes (R484). -/
def State.clearedOpen (s : State) : State :=
  match s.sec.opening with
  | none => s
  | some (scopes, mask) =>
    let scan := bit scopes 6
    let mem := scan || bit scopes 1
    ((s.clearMemories (scan || bit scopes 0) mem (mem || bit scopes 4)).modSec fun x => { x with opening := none }).openScopes
      scopes mask

/-- Lifecycle fuses are blown up to a state; open scopes close (R469). -/
def State.blowLife (s : State) (target : Nat) : State :=
  let s := s.modFuses fun f => { f with life := max f.life target }
  (s.tokenDone.closeScopes).raise secUnit none 0x0701 (w4 [target])

def State.setOwner (s : State) (k : Nat) (o : OwnerSlot) : State :=
  (s.modFuses fun f => { f with owners := f.owners.set (k - 1) o }).showSlots

/-- An accepted ENROLL is acted on: a slot's fuses, and the step to DEPLOYED from PROVISIONED (R469, R483). -/
def State.enrollToken (s : State) : State :=
  let t := s.sec.token
  let k := tokSlot t
  let first := decide (s.life = 1)
  let s := s.setOwner k ⟨(t.drop 0x40).take 64, true, bit (tokArg t) 8, bit (tokArg t) 9, false⟩
  if first then s.blowLife 2 else s.tokenDone.raise secUnit none 0x0703 (w4 [k])

/-- An accepted REVOKE is acted on (R483). -/
def State.revokeToken (s : State) : State :=
  let k := tokSlot s.sec.token
  (s.setOwner k { s.sec.fuses.owner k with revoked := true }).tokenDone.raise secUnit none 0x0704 (w4 [k])

/-- An accepted PROVISION is acted on: 256 bits of the TRNG become the device secret (R469). -/
def State.provisionToken (s : State) : State :=
  let secret := freeBytes s.free 32
  let s := { s with free := s.free + 1 }
  (s.modFuses fun f => { f with secret := secret, secretWritten := true }).blowLife 1

/-! ### `SEC_CMD` 2 and 3 (R476, R491) -/

/-- PUBKEY: the identity public key goes to host memory; refused where no identity exists. -/
def State.pubkey (s : State) : State :=
  if s.on R.SEC_RESULT.BUSY then s.errlog .sec 0 4 0 0 0
  else if s.sec.identityPub = [] then s.put R.SEC_RESULT.RESULT 0 7
  else
    (s.emit (.hostWrite ⟨0, s.addr R.SEC_TOKEN_ADDR.ADDR,
      (s.sec.identityPub ++ List.replicate 136 0).take 136⟩)).put R.SEC_RESULT.RESULT 0 0

/-- CERT_WRITE: the certificate chain that host memory gives is stored once. -/
def State.certWrite (s : State) (far : List Byte) : State :=
  let n := s.fld R.SEC_CERT_LEN.LEN
  if s.on R.SEC_RESULT.BUSY then s.errlog .sec 0 4 0 0 0
  else
    let s := s.emit (.hostRead 0 (s.addr R.SEC_TOKEN_ADDR.ADDR) n)
    let chain := far.take n
    if far.length < n then s.put R.SEC_RESULT.RESULT 0 9
    else if s.life = 1 ∧ s.sec.certs = [] ∧ 1 ≤ n ∧ n ≤ 16384 ∧ Config.certKey chain = s.sec.identityPub then
      (s.modSec fun x => { x with certs := chain }).put R.SEC_RESULT.RESULT 0 0
    else s.put R.SEC_RESULT.RESULT 0 7

/-! ### Debug commands (R485, R488, R490) -/

def State.dbgResult (s : State) (r : Nat) : State := s.put R.DBG_STATUS.RESULT 0 r

def State.dbgCore (s : State) : Nat := s.fld R.DBG_CORE_SEL.CORE

/-- CORE reaches a core: an IDLE or FENCED one, or one of a context in the mask (R485). -/
def State.coreReach (s : State) (n : Nat) : Bool :=
  decide (s.coreState n = coreIdle ∨ s.coreState n = coreFenced) ||
    match s.ownerOf n with
    | some c => bit (s.fld R.DBG_SCOPE.MASK) c
    | none => false

/-- What stops a command on the selected core: its result, 0 where nothing does. -/
def State.coreStop (s : State) : Nat :=
  if !s.scope 0 then 1
  else if !s.coreReach s.dbgCore then 2
  else if 2 ≤ s.fld R.DEV_PWR.CURRENT then 3
  else 0

/-- `DBG_CORE_CMD`: 1 HALT, 2 RESUME, 3 STEP (R488). An access under CORE wakes a module in P1 (R490). -/
def State.dbgCoreCmd (s : State) (cmd : Nat) : State :=
  let n := s.dbgCore
  let st := s.coreState n
  if s.on R.DBG_STATUS.BUSY then s.errlog .dbg 0 4 0 0 0
  else if s.coreStop ≠ 0 then s.dbgResult s.coreStop
  else if st ≠ coreRunning ∧ st ≠ coreHalted then s.wake.dbgResult 4
  else
    let s := s.wake.dbgResult 0
    if cmd = 1 then (if st = coreRunning then s.stopCore n coreHalted else s)
    else if cmd = 2 then s.setCoreState n coreRunning
    else
      let s := if st = coreRunning then s.stopCore n coreHalted else s
      (s.modSec fun x => { x with stepping := x.stepping ++ [n] }).put R.DBG_STATUS.BUSY 0 1

/-- 64-bit words of a register of each file: 0 s, 1 v, 2 m, 3 lc (R76). -/
def regWords : Nat → Nat
  | 0 => 1 | 1 => 32 | 2 => 4 | _ => 2

/-- Registers of each file. -/
def regCount : Nat → Nat
  | 0 => 32 | 1 => 32 | 2 => 8 | _ => 4

/-- A loop register as a number: count, start and end from bit 0 on (log entry 60). -/
def LoopReg.bits (l : LoopReg) : Nat := l.count.toNat + 2 ^ 32 * l.start.toNat + 2 ^ 80 * l.stop.toNat
def LoopReg.ofBits (v : Nat) : LoopReg := ⟨BitVec.ofNat 32 v, BitVec.ofNat 48 (v / 2 ^ 32), BitVec.ofNat 48 (v / 2 ^ 80)⟩

/-- A register as a number. -/
def Core.regBits (k : Core) (file i : Nat) : Nat :=
  match file with
  | 0 => (tget 0#64 k.sregs i).toNat
  | 1 => (tget 0#2048 k.vregs i).toNat
  | 2 => if i = 0 then 2 ^ 256 - 1 else (tget 0#256 k.mregs i).toNat
  | _ => (tget LoopReg.zero k.loops i).bits

/-- Sets a register; s0 and m0 ignore writes (R76). -/
def Core.setRegBits (k : Core) (file i v : Nat) : Core :=
  match file with
  | 0 => if i = 0 then k else { k with sregs := tset 0#64 k.sregs i (BitVec.ofNat 64 v) }
  | 1 => { k with vregs := tset 0#2048 k.vregs i (BitVec.ofNat 2048 v) }
  | 2 => if i = 0 then k else { k with mregs := tset 0#256 k.mregs i (BitVec.ofNat 256 v) }
  | _ => { k with loops := tset LoopReg.zero k.loops i (LoopReg.ofBits v) }

/-- Replaces 64-bit word `w` of a number. -/
def setWord (v w x : Nat) : Nat := v - field v (64 * w) 64 * 2 ^ (64 * w) + x * 2 ^ (64 * w)

/-- What stops an access to the selected register: its result. -/
def State.regStop (s : State) : Nat :=
  if s.coreStop ≠ 0 then s.coreStop else if s.coreState s.dbgCore ≠ coreHalted then 4 else 0

/-- The word that `DBG_REG_SEL` names, where the register and the core's state give one. -/
def State.regWord (s : State) : Option (Nat × Nat × Nat) :=
  let f := s.fld R.DBG_REG_SEL.FILE
  let i := s.fld R.DBG_REG_SEL.INDEX
  let w := s.fld R.DBG_REG_SEL.WORD
  if s.regStop = 0 ∧ i < regCount f ∧ w < regWords f then some (f, i, w) else none

/-- A read of `DBG_REG_DATA`: the selected word comes into the register. -/
def State.regFetch (s : State) : State :=
  let s := s.dbgResult s.regStop
  match s.regWord with
  | some (f, i, w) => s.put R.DBG_REG_DATA.DATA 0 (field ((s.core s.dbgCore).regBits f i) (64 * w) 64)
  | none => s

/-- A write of `DBG_REG_DATA` sets the selected word. -/
def State.regStore (s : State) (v : Nat) : State :=
  let s := s.dbgResult s.regStop
  match s.regWord with
  | some (f, i, w) => s.modCore s.dbgCore fun k => k.setRegBits f i (setWord (k.regBits f i) w (v % 2 ^ 64))
  | none => s

/-- What stops a memory command: its result (R485, R488, R490). Space 0 is the selected core's scratchpad, 1 HBM, 2 the
Basin; MEM under DATA reaches free subpages and those of contexts in the mask. -/
def State.memStop (s : State) (space a : Nat) : Nat :=
  let p := s.fld R.DEV_PWR.CURRENT
  if space = 0 then
    if !s.scope 0 then 1
    else if s.coreState s.dbgCore = coreFenced then 5
    else s.coreStop
  else
    let u := tget Use.none (if space = 1 then s.hbmUse else s.basinUse) (a / 65536)
    if !s.scope 1 then 1
    else if s.scope 5 && decide (u.kind ≠ 0) && !bit (s.fld R.DBG_SCOPE.MASK) u.ctx then 2
    else if 3 ≤ p ∨ (space = 1 ∧ 2 ≤ p) then 3
    else 0

/-- A module in P1 wakes for an access; one in P2 only serves the Basin as it is (R490). -/
def State.dbgWake (s : State) : State := if s.fld R.DEV_PWR.CURRENT = 1 then s.wake else s

/-- The address that a memory command names, in its space. -/
def State.dbgAddr (s : State) (space : Nat) : Nat :=
  let a := s.fld R.DBG_MEM_ADDR.ADDR / 8 * 8
  if space = 2 then a % 2 ^ 28 else a

/-- The memory of a space holds an address. -/
def dbgInside (space a : Nat) : Bool :=
  match space with
  | 0 => decide (a < scrSize) | 1 => decide (a < hbmSize) | _ => true

/-- `DBG_MEM_CMD` READ: one aligned 8-byte read. An address outside the memory reads freely drawn bytes. -/
def State.dbgRead (s : State) (ecc : Ecc) : State :=
  let space := s.fld R.DBG_MEM_ADDR.SPACE
  let a := s.dbgAddr space
  if s.on R.DBG_STATUS.BUSY then s.errlog .dbg 0 4 0 0 0
  else if s.memStop space a ≠ 0 then s.dbgResult (s.memStop space a)
  else if !dbgInside space a then
    let r := s.dbgWake.freeNat 64
    (r.2.put R.DBG_MEM_DATA.DATA 0 r.1).dbgResult 0
  else
    let n := s.dbgCore
    let s := s.dbgWake
    let bs := if space = 0 then (s.core n).scrRead a 8 else s.physRead (2 - space) (a / 65536) (a % 65536) 8
    let s := if space = 0 then s.scrEcc n ecc else s.lineEcc (2 - space) (a / 65536) (a % 65536) ecc
    match ecc with
    | .uncorrectable => s.dbgResult 6
    | _ => (s.put R.DBG_MEM_DATA.DATA 0 (ofLe bs)).dbgResult 0

/-- `DBG_MEM_CMD` WRITE: one aligned 8-byte write. Outside the memory nothing is written. -/
def State.dbgWrite (s : State) : State :=
  let space := s.fld R.DBG_MEM_ADDR.SPACE
  let a := s.dbgAddr space
  if s.on R.DBG_STATUS.BUSY then s.errlog .dbg 0 4 0 0 0
  else if s.memStop space a ≠ 0 then s.dbgResult (s.memStop space a)
  else
    let bs := leBytes (s.fld R.DBG_MEM_DATA.DATA) 8
    let s := s.dbgWake.dbgResult 0
    if !dbgInside space a then s
    else if space = 0 then s.modCore s.dbgCore fun k => k.scrWrite a bs
    else (s.physWrite (2 - space) (a / 65536) (a % 65536) bs).noteLoc (2 - space) (a / 65536)

end Sys2Proof.Machine
end

