-- ==== Sys2Proof/Machine/BusView.lean ====
section
/-! DEFINITION. Machine/BusView.lean: where a register lies, and what a register reads whose value follows from other
state (R3, R7, R519-R533; 22_register_pages.md). -/
namespace Sys2Proof.Machine

/-! ### Addresses (R528-R530) -/

def devPages : List Page :=
  [.dev, .clk, .rst, .boot, .wharf, .fault, .sec, .dbg, .weir, .pwr, .therm, .bist, .loop, .route, .lock]

/-- Pages of a context, in order. -/
def ctxWindow : List Page :=
  [.ctx, .ld, .duty, .mani, .step, .toll, .xtal, .assay, .sluice, .xlat, .attn, .rake, .barge, .msf, .msg]

/-- The page of page number `n` of LD0's BAR0, with its instance. -/
def pageNumber (n : Nat) : Option (Page × Nat) :=
  if n < 15 then devPages[n]?.map fun p => (p, 0)
  else if n < 16 then none
  else if n < 18 then some (.link, n - 16)
  else if n < 32 then none
  else if n < 40 then some (.mx, n - 32)
  else if n < 48 then some (.scr, n - 40)
  else if n < 56 then some (.basin, n - 48)
  else if n < 64 then some (.gauge, n - 56)
  else if n = 64 then some (.gaugeM, 0)
  else if n < 0x100 then none
  else if n < 0x300 then some (.core, n - 0x100)
  else if n < 0x400 then none
  else if n < 0x500 then ctxWindow[n % 16]?.map fun p => (p, (n - 0x400) / 16)
  else none

def pageAt (a : Nat) : Option (Page × Nat) := pageNumber (a / 0x1000)

/-- A register of a page instance: the row of its field map, the entry of its array, and which half of a 64-bit register
an offset names. -/
structure RegRef where
  reg : RegDef
  j : Nat
  high : Bool
  deriving DecidableEq, Repr

/-- Distance between the entries of a register. -/
def RegDef.step (r : RegDef) : Nat := if r.stride = 0 then (if r.b64 then 8 else 4) else r.stride

/-- The register of a field map at an offset. -/
def RegDef.at? (r : RegDef) (off : Nat) : Option RegRef :=
  if off < r.off then none
  else
    let rel := off - r.off
    if rel / r.step < r.count ∧ rel % r.step < (if r.b64 then 8 else 4) then
      some ⟨r, rel / r.step, decide (4 ≤ rel % r.step)⟩
    else none

/-- Registers that exist in instance 0 of the LINK page only (R366). -/
def linkOnce (off : Nat) : Bool := decide (off = 0x100 ∨ 0x400 ≤ off)

/-- The register at an offset of a page instance, above the header. -/
def regAt (p : Page) (i off : Nat) : Option RegRef :=
  if p = .link ∧ i = 1 ∧ linkOnce off = true then none else (pageRegs p).findSome? fun r => r.at? off

/-- Offset of a reference's entry in its page. -/
def RegRef.off (r : RegRef) : Nat := r.reg.off + r.j * r.reg.stride

def FieldDef.fd (f : FieldDef) (p : Page) (r : RegDef) : Fd := ⟨p, r.off, r.stride, f.lo, f.width, f.rst⟩

/-! ### Reset domains (R62, R526, R532) -/

/-- Die of a page instance. -/
def pageDie : Page → Nat → Nat
  | .core, n => n / 64
  | _, i => i

/-- A reset domain is in reset. -/
def State.domainInReset (s : State) (dom : Nat) (p : Page) (i : Nat) : Bool :=
  match dom with
  | 0 => false
  | 1 => s.power.inReset
  | 2 => s.power.inReset || s.resets.any fun r => decide (r.domain = 1 ∧ r.inst = pageDie p i)
  | 3 => s.power.inReset || s.ldInReset i
  | _ => s.power.inReset || s.ctxInReset i

/-- A register whose context commands and reset status are served while its own context or LD is in reset
(R411, R418). -/
def servedInReset (p : Page) (off : Nat) : Bool :=
  decide (p = .ctx ∧ 0x100 ≤ off) || decide (p = .ld ∧ off = 0x104)

/-- The register at an offset is in reset. -/
def State.regInReset (s : State) (p : Page) (i off : Nat) : Bool :=
  let dom := match regAt p i off with
    | some r => r.reg.dom.getD (pageDomain p)
    | none => pageDomain p
  if servedInReset p off then s.domainInReset 1 p i else s.domainInReset dom p i

/-! ### The header (R519-R521) -/

/-- Duty of a page (R423): its KIND, 0 for none. -/
def pageDuty : Page → Nat
  | .step => 1 | .xtal => 2 | .xlat => 3 | .barge => 4 | .sluice => 5 | .weir => 6 | .assay => 7
  | _ => 0

/-- Duties that run at the helm only. -/
def helmDuty (p : Page) : Bool := decide (p = .step ∨ p = .xtal ∨ p = .assay)

/-- `DUTY_MODE` is implemented on a page instance (R521). -/
def State.hasDuty (s : State) (p : Page) (i : Nat) : Bool :=
  decide (pageDuty p ≠ 0) && (!helmDuty p || s.helm i)

def isCtxPage (p : Page) : Bool := decide (pageDomain p = 3 ∨ pageDomain p = 4)

/-- `ID`. -/
def idWord (p : Page) (i : Nat) : Nat :=
  let ids := (Raiser.page p i).ids
  0x01 + 2 ^ 8 * ids.2 + 2 ^ 16 * ids.1

/-- `CAPS`. -/
def capsWord (p : Page) : Nat :=
  b2n (isCtxPage p) + 2 * b2n (decide (pageDuty p ≠ 0)) + 4 * b2n (decide (p ≠ .sec ∧ p ≠ .dbg ∧ p ≠ .fault)) +
    8 * b2n (!isCtxPage p) + 16 * pageDomain p

/-- `CTRL.ENABLE` (R520). -/
def State.pageEnabled (s : State) (p : Page) (i : Nat) : Bool :=
  !s.domainInReset (pageDomain p) p i && (!isCtxPage p || decide (s.fld R.CTX_STATUS.STATE i ≠ ctxDisabled))

/-- A header register's value, `ERRLOG_INFO` without its latch. -/
def State.headerWord (s : State) (p : Page) (i off : Nat) : Nat :=
  match off with
  | 0x000 => idWord p i
  | 0x004 => capsWord p
  | 0x008 => b2n (s.pageEnabled p i) + (if s.hasDuty p i then 2 * s.fld (hdrDutyMode p) i else 0) +
      4 * s.fld (hdrCfgLock p) i
  | 0x00C => (if p = .dev then s.fld (hdrReady p) i else 0) + 2 ^ 16 * s.fld (hdrErrValid p) i
  | 0x010 => s.fld (hdrEvent p) i
  | 0x014 => s.fld (hdrEventEn p) i + 0x38
  | 0x01C => s.fld (hdrErrAddr p) i
  | 0x020 => s.fld (hdrErrKind p) i + 2 ^ 4 * s.fld (hdrErrOvf p) i + 2 ^ 8 * s.fld (hdrErrBit p) i +
      2 ^ 16 * s.fld (hdrErrDetail p) i
  | _ => 0

/-- A header register's value while its domain is in reset. -/
def headerReset (p : Page) (i off : Nat) : Nat :=
  match off with
  | 0x000 => idWord p i
  | 0x004 => capsWord p
  | 0x014 => 0x3F
  | _ => 0

/-! ### Values that follow from other state -/

/-- Cores of a die, by local number. -/
def State.anyCore (s : State) (d : Nat) (f : Nat → Core → Bool) : Bool :=
  (List.range 64).any fun c => f c (s.core (64 * d + c))

def State.mxView (s : State) (d off j stored : Nat) : Nat :=
  if off = 0x104 then
    let any (f : Fd) : Bool := (List.range 64).any fun c => s.on f d c
    b2n (any R.MX_FLAGS.PAN_LOSS) + 2 * b2n (any R.MX_FLAGS.PAN_OVF) + 4 * b2n (any R.MX_FLAGS.PAN_NAN) +
      8 * b2n (any R.MX_FLAGS.MODE_ERR || any R.MX_FLAGS.BAD_BLOCK)
  else if off = 0x300 then
    let e := (s.core (64 * d + j)).engine
    e.mode + 2 ^ 2 * e.bp + 2 ^ 10 * e.afmt + 2 ^ 12 * e.queue.length + 2 ^ 17 * b2n (!e.queue.isEmpty)
  else stored

def State.scrView (s : State) (d off stored : Nat) : Nat :=
  if off = 0x104 then
    let any (f : Fd) : Bool := (List.range 64).any fun c => s.on f d c
    b2n (any R.SCR_WCOLL.P0 || any R.SCR_WCOLL.P1 || any R.SCR_WCOLL.P2) +
      2 * b2n (any R.SCR_CE.COUNT || any R.SCR_CE.LAST_BANK || any R.SCR_CE.LAST_ROW) +
      4 * b2n (s.anyCore d fun _ k => k.clearing)
  else stored

/-- The core that `GAUGE_CORE_SEL` shows. -/
def State.gaugeCore (s : State) (d : Nat) : Nat := 64 * d + s.fld R.GAUGE_CORE_SEL.CORE d

def State.gaugeView (s : State) (d off j stored : Nat) : Nat :=
  let k := s.core (s.gaugeCore d)
  match off with
  | 0x104 => b2n (s.frozen d)
  | 0x110 => bitMap 64 fun c => decide ((s.core (64 * d + c)).gaugeOvf ≠ 0)
  | 0x140 => tget 0 k.gaugeSel j
  | 0x180 => k.gaugeOvf
  | 0x200 => tget 0 k.gauge j
  | 0x280 => tget 0 k.snapGauge j
  | _ => stored

def State.routeView (s : State) (off stored : Nat) : Nat :=
  let e := s.route (s.fld R.ROUTE_IDX.NODE)
  match off with
  | 0x104 => e.pri
  | 0x108 => e.alt
  | 0x10C => b2n e.v + 2 * b2n e.priTransit + 4 * b2n e.altTransit + 8 * b2n e.rack + 2 ^ 8 * e.slice
  | 0x110 => s.portsUp
  | _ => stored

/-- A Toll bucket as its LEVEL reads (R295, R298): all ones while it is unlimited. -/
def Bucket.shown (b : Bucket) : Nat := if b.free then 0xFFFFFFFF else twos 32 b.whole

/-- A bucket is empty (R297). -/
def Bucket.empty (b : Bucket) : Bool := !b.free && decide (b.whole ≤ 0)

def State.tollView (s : State) (c off j stored : Nat) : Nat :=
  let x := s.ctx c
  let t := s.fld R.TOLL_SEL.TENANT c
  let p := x.bucket (2 * t)
  let d := x.bucket (2 * t + 1)
  match off with
  | 0x104 => p.rate
  | 0x108 => p.depth
  | 0x10C => p.shown
  | 0x110 => d.rate
  | 0x114 => d.depth
  | 0x118 => d.shown
  | 0x120 => p.tokens
  | 0x128 => d.tokens
  | 0x130 => tget 0 x.skips t
  | 0x140 => bitMap 32 fun i => (x.bucket (2 * (32 * j + i))).empty
  | 0x160 => bitMap 32 fun i => (x.bucket (2 * (32 * j + i) + 1)).empty
  | _ => stored

/-- Entries of a context's Manifest in some states. -/
def Ctx.entriesIn (x : Ctx) (f : Nat → Bool) : Nat := (x.entries.filter fun e => f e.2.state).length

/-- `HELM` in bit 31 of a status register. -/
def State.helmBit (s : State) (c : Nat) : Nat := 2 ^ 31 * b2n (s.helm c)

/-- Copies and moves whose transfer has not ended. -/
def Ctx.transfers (x : Ctx) : Nat :=
  (x.copies.filter fun e => x.inFlight e.1).length + (x.moves.filter fun e => decide (e.2.state = 0)).length

/-- Walks of a context in progress. -/
def State.walksOf (s : State) (c : Nat) : Nat :=
  ((s.coresOf c).map fun n => ((s.core n).xops.filter fun x => decide (x.kind = 0x48) && x.granted).length).foldl (· + ·) 0

def State.sluiceView (s : State) (c stored : Nat) : Nat :=
  let x := s.ctx c
  stored + 2 * b2n (x.copies.any fun e => decide (e.2.state = 3)) + 4 * b2n (x.copies.any fun e => e.2.stuck) +
    2 ^ 16 * min 65535 x.transfers

def State.rakeView (s : State) (c stored : Nat) : Nat :=
  let x := s.ctx c
  stored + b2n (s.stepOpen c) + 2 * b2n (x.member.committed && !x.member.scattered) +
    2 ^ 8 * ((stageBytes x.posts + 65535) / 65536)

def State.bargeView (s : State) (c : Nat) : Nat :=
  let open_ := ((s.ctx c).barges.filter fun e => !e.2.draining).length
  let drain := ((s.ctx c).barges.filter fun e => e.2.draining).length
  open_ + 2 ^ 16 * drain + s.helmBit c

/-- Context pages. -/
def State.ctxView (s : State) (p : Page) (c off j stored : Nat) : Nat :=
  let x := s.ctx c
  match p with
  | .ld => if off = 0x104 then stored + b2n (s.ldEnabled c) else stored
  | .toll => s.tollView c off j stored
  | .mani => if off = 0x104 then x.entriesIn (fun n => decide (n = 1 ∨ n = 2)) +
      2 ^ 16 * x.entriesIn (fun n => decide (n = 3)) + s.helmBit c else stored
  | .xtal => if off = 0x104 then s.xsampQueued c + s.helmBit c else stored
  | .assay => if off = 0x104 then stored + s.helmBit c else stored
  | .attn => if off = 0x124 then s.walksOf c + 2 ^ 16 * b2n x.pairMap.isSome else stored
  | .rake => if off = 0x120 then s.rakeView c stored else stored
  | .barge => if off = 0x13C then s.bargeView c else stored
  | .sluice => if off = 0x104 then s.sluiceView c stored else stored
  | .xlat => if off = 0x104 then stored + 2 * b2n (decide (3072 ≤ x.hostEdits)) + 2 ^ 16 * x.queue.length else stored
  | .msf => if off = 0x104 then stored + 2 ^ 8 * s.outstanding c else stored
  | .msg => if off = 0x104 then s.inflight c else stored
  | _ => stored

/-- What a register reads: its fields as stored, and what follows from other state. -/
def State.viewWord (s : State) (p : Page) (i off j stored : Nat) : Nat :=
  match p with
  | .clk => if off = 0x108 then s.tick else stored
  | .mx => s.mxView i off j stored
  | .scr => s.scrView i off stored
  | .gauge => s.gaugeView i off j stored
  | .gaugeM => if off = 0x104 then b2n s.mfrozen else stored
  | .route => s.routeView off stored
  | .link => if off = 0x10C then bitMap 16 fun k => decide (s.linkState (16 * i + k) = linkUp) else stored
  | .lock => if off = 0x200 then stored + 2 ^ 9 * b2n (s.fabric.pins.any fun q => decide (q.2.2 = j)) else stored
  | _ => if isCtxPage p then s.ctxView p i off j stored else stored

/-- A register's fields as stored; a WO field reads 0 (R3). -/
def State.storedWord (s : State) (p : Page) (i : Nat) (r : RegRef) : Nat :=
  r.reg.flds.foldl (fun v f => if f.acc = .wo then v else v + s.fld (f.fd p r.reg) i r.j * 2 ^ f.lo) 0

/-- A register's value, 64 bits for a 64-bit register. -/
def State.regWordOf (s : State) (p : Page) (i : Nat) (r : RegRef) : Nat :=
  s.viewWord p i r.reg.off r.j (s.storedWord p i r)

/-- A register's value while its domain is in reset: reset values, FW fields 0 (R7, R532). -/
def RegRef.resetWord (r : RegRef) : Nat :=
  r.reg.flds.foldl (fun v f => if f.acc = .wo then v else v + f.rst * 2 ^ f.lo) 0

/-- The half of a value that a reference names. -/
def RegRef.half (r : RegRef) (v : Nat) : Nat := if r.high then v / 2 ^ 32 % 2 ^ 32 else v % 2 ^ 32

end Sys2Proof.Machine
end

