-- ==== Sys2Proof/Machine/Serving.lean ====
section
/-! DEFINITION. Machine/Serving.lean: the serving step's messages and timers, and the Crystalliser's commands
(R292-R332; 11_manifest_and_step_building.md, 12_crystalliser.md). -/
namespace Sys2Proof.Machine

/-- A step message of a kind is taken by the context it is for; one that is refused changes nothing (R301). -/
def State.stepTake (s : State) (kind : Nat) (m : StepMsg) (f : State → Nat → State) : State :=
  match s.stepTarget kind m with
  | some c => f s c
  | none => s

/-- BCAST (R300). -/
def execBcast (m : StepMsg) (s : State) : Result :=
  .next (s.stepTake 1 m fun s c => s.bcast c m)

/-- The member launches its step (R300). -/
def execStepLaunch (ctx : Fin 16) (s : State) : Result :=
  .next (s.stepLaunch ctx)

/-- The member's cores have returned (R244, R300). -/
def execMemberReady (ctx : Fin 16) (s : State) : Result :=
  .next (s.memberReady ctx)

/-- READY (R244, R300). -/
def execReady (m : StepMsg) (s : State) : Result :=
  .next (s.stepTake 2 m fun s c => s.takeReady c m)

/-- The helm commits (R303). -/
def execHelmCommit (ctx : Fin 16) (far : List Byte) (s : State) : Result :=
  .next (s.helmCommit ctx far)

/-- COMMIT (R244, R303). -/
def execCommit (m : StepMsg) (s : State) : Result :=
  .next (s.stepTake 3 m fun s c => s.takeCommit c m)

/-- SCATTERED (R188, R293): `resident` are the layers whose FALLBACK ranges are readable on the member, and `failed`
those whose staging failed there. -/
def execScattered (m : StepMsg) (resident failed : List Nat) (s : State) : Result :=
  .next (s.stepTake 4 m fun s c => s.takeScattered c m resident failed)

/-- REPLAY (R305). -/
def execReplay (m : StepMsg) (s : State) : Result :=
  .next (s.stepTake 5 m fun s c => s.takeReplay c m)

/-- CONVOY_END (R508). -/
def execConvoyEnd (m : StepMsg) (s : State) : Result :=
  .next (s.stepTake 6 m fun s c => s.takeConvoyEnd c m)

/-- A builder that the Tolls hold runs again (R294). -/
def execBuildRetry (ctx : Fin 16) (s : State) : Result :=
  .next (s.retryBuild ctx)

/-- The last READY is late (R306). -/
def execReadyTimeout (ctx : Fin 16) (s : State) : Result :=
  .next (s.stall ctx)

/-- `X_XSAMP` (R319). -/
def execXXsamp (core : Fin 512) (tag : BitVec 6) (desc dst : BitVec 14) (w : Bundle) (s : State) : Result :=
  .next (s.bundle core (withX w (.xsamp tag desc dst)))

/-- A die's arbiter grants a sample request (R320). -/
def execXsampGrant (die : Fin 8) (s : State) : Result :=
  .next (s.xsampGrant die)

/-- A lane finishes a draw (R317-R330). -/
def execXsampDrawDone (core : Fin 512) (tag : BitVec 6) (faults : Nat) (far : List Byte) (drop : List Nat) (s : State) :
    Result :=
  .next (s.xsampDrawn core tag.toNat faults far drop)

/-- A write of `MANI_CMD` (R309, R313): its result, and, for a cancellation, the empty step it may want (R292). A
reserved OP has result 3. -/
def State.maniCommand (s : State) (c op : Nat) : State :=
  let slot := s.fld R.MANI_CMD_ARG.SLOT c
  let gen := s.fld R.MANI_CMD_ARG.GEN c
  let r := match op with
    | 1 => s.cancel c slot gen
    | 2 => s.draftSet c slot gen (s.fld R.MANI_CMD_ARG.VALUE c)
    | _ => (3, s)
  (r.2.put R.MANI_CMD_RESULT.RESULT c r.1).emptyStep c

/-- A write of a Toll's LEVEL (R298): the integer part is set, the fraction is 0, and a held builder runs again. -/
def State.levelWrite (s : State) (c k : Nat) (v : BitVec 32) : State :=
  (s.modCtx c fun x => x.setBucket k { x.bucket k with level := v.toInt * 100000000 }).retryBuild c

end Sys2Proof.Machine
end

