-- ==== Sys2Proof/Machine/Bus.lean ====
section
/-! DEFINITION. Machine/Bus.lean: reads and writes of the register pages (R3-R8, R397, R519-R533;
22_register_pages.md), and what the write of each register sets off. Requesters are numbered in the order of R397:
0-15 the LDs, 16 firmware, 17 JTAG. -/
namespace Sys2Proof.Machine

/-! ### Records of refused writes (R525) -/

/-- DETAIL of records of KIND 1 and 2: the writer's LD and its source. -/
def reqDetail (req : Nat) : Nat := if req < 16 then req else 16 * (req - 15)

/-- A write of a reserved encoding (R5). -/
def State.kind1 (s : State) (p : Page) (i off lo req : Nat) : State := s.errlog p i 1 off lo (reqDetail req)

/-- A write without effect. -/
def State.kind2 (s : State) (p : Page) (i off req : Nat) : State := s.errlog p i 2 off 0 (reqDetail req)

/-- An encoding is legal. -/
def encodingOk (ok : List (Nat × Nat)) (v : Nat) : Bool := ok.isEmpty || ok.any fun r => decide (r.1 ≤ v ∧ v ≤ r.2)

/-! ### Gauges (R457-R462) -/

/-- Event codes of a core Gauge. -/
def coreEventOk (e : Nat) : Bool :=
  decide (e = 0 ∨ (0x10 ≤ e ∧ e ≤ 0x13) ∨ (0x20 ≤ e ∧ e ≤ 0x2B) ∨ (0x30 ≤ e ∧ e ≤ 0x32) ∨ (0x40 ≤ e ∧ e ≤ 0x4D))

/-- Instances of a module event: how many, or none where the event takes no instance. -/
def moduleEventInsts : Nat → Option Nat
  | 0x01 => some 32 | 0x02 => some 8 | 0x03 => some 8 | 0x04 => some 32 | 0x05 => some 32 | 0x06 => some 32
  | 0x07 => some 32 | 0x08 => some 2 | 0x09 => some 2 | 0x0C => some 8 | 0x0E => some 16 | 0x0F => some 8
  | 0x10 => some 8
  | _ => none

def instOk (event inst : Nat) : Bool :=
  match moduleEventInsts event with
  | some n => decide (inst < n)
  | none => true

/-- A write of `GAUGE_MSEL[k]`. -/
def State.mselWrite (s : State) (k w req : Nat) : State :=
  let off := 0x200 + 4 * k
  let e := field w 0 8
  let s := if e ≤ 0x11 then s.setFld R.GAUGE_MSEL.EVENT 0 k e else s.kind1 .gaugeM 0 off 0 req
  let s := if instOk (s.fld R.GAUGE_MSEL.EVENT 0 k) (field w 8 6) then s.setFld R.GAUGE_MSEL.INST 0 k (field w 8 6)
    else s.kind1 .gaugeM 0 off 8 req
  (s.setFld R.GAUGE_MSEL.CTX 0 k (field w 16 4)).setFld R.GAUGE_MSEL.CTX_EN 0 k (field w 20 1)

/-- Sets a core Gauge's selection. -/
def State.gaugeSelect (s : State) (n idx e : Nat) : State := s.modCore n fun k => { k with gaugeSel := tset 0 k.gaugeSel idx e }

/-- A write of a register of a die's GAUGE page that acts on cores, or none. -/
def State.gaugeWrite (s : State) (d off j w req : Nat) : Option State :=
  let n := s.gaugeCore d
  match off with
  | 0x10C => some (if coreEventOk (field w 0 8) then
      (List.range 64).foldl (fun (s : State) c => s.gaugeSelect (64 * d + c) (field w 8 3) (field w 0 8)) s
    else s.kind1 .gauge d 0x10C 0 req)
  | 0x140 => some (if coreEventOk (field w 0 8) then s.gaugeSelect n j (field w 0 8) else s.kind1 .gauge d (0x140 + 4 * j) 0 req)
  | 0x180 => some (s.modCore n fun k => { k with gaugeOvf := bitMap 16 fun g => bit k.gaugeOvf g && !bit w g })
  | 0x184 => some (
      let bits := w % 2 ^ 16
      if bit w 16 then (List.range 64).foldl (fun (s : State) c => s.modCore (64 * d + c) fun k => k.clearGauges bits) s
      else s.modCore n fun k => k.clearGauges bits)
  | _ => none

/-- A write of a half of `GAUGE_MCLR`: its bits stand at their places in `bits`. -/
def State.mclr (s : State) (bits : Nat) : State :=
  (bitsSet bits 64).foldl (fun (s : State) k =>
    (s.setFld R.GAUGE_MVAL.COUNT 0 k 0).put R.GAUGE_MOVF.OVF 0 (clrBit (s.fld R.GAUGE_MOVF.OVF) k)) s

/-! ### Registers with a write of their own -/

/-- A write of `DEV_PWR` (R56-R60): TARGET acts, is held while a transition or a self-test runs, or has no effect. -/
def State.devPwrWrite (s : State) (w req : Nat) : State :=
  let t := field w 0 2
  let s := s.put R.DEV_PWR.AUTO_WAKE 0 (field w 8 1)
  if s.on R.BIST_STATUS.BUSY then
    { s.put R.DEV_PWR.TARGET 0 t with power := { s.power with heldTarget := some t } }
  else if s.on R.DEV_PWR.BUSY || decide (t < 2 ∨ t = s.fld R.DEV_PWR.CURRENT) || s.allQuiesced then
    (s.put R.DEV_PWR.TARGET 0 t).powerTarget t (reqDetail req)
  else s.devRefused (reqDetail req)

/-- A write of `WHARF_LD_EN` (R395). -/
def State.ldEnWrite (s : State) (w req : Nat) : State :=
  if s.ldEnRefused (s.fld R.WHARF_LD_EN.EN) (field w 1 15) then s.kind2 .wharf 0 0x108 req
  else s.put R.WHARF_LD_EN.EN 0 (field w 1 15)

/-- A write of `LINK_PLAN.MEMBER` (R344, R350, R366): a change is told to every peer. -/
def State.memberWrite (s : State) (w req : Nat) : State :=
  let m := field w 4 3
  if s.fld R.LINK_PLAN.PLAN = 3 ∧ 4 ≤ m then s.kind1 .link 0 0x100 4 req
  else if m = s.fld R.LINK_PLAN.MEMBER then s
  else
    let s := s.put R.LINK_PLAN.MEMBER 0 m
    (bitsSet s.portsUp 32).foldl (fun (s : State) k => s.emit (.ctl k 0xF0 (s.identBytes k))) s

/-- `LOOP_SEL` holds a reserved depth or instance (R500, R501, R503). -/
def loopSelBad (if' inst depth : Nat) : Option Nat :=
  if if' = 1 ∧ inst ≠ 0 then some 4
  else if depth = 0 ∨ (if' = 0 ∧ 6 < depth) ∨ (if' = 1 ∧ depth ≠ 1) ∨ (if' = 2 ∧ 3 < depth) then some 9
  else none

/-- A write of `LOOP_SEL`. DEPTH and INST are judged against the interface that the write leaves. -/
def State.loopSelWrite (s : State) (w req : Nat) : State :=
  let f := field w 0 2
  let s := if f = 3 then s.kind1 .loop 0 0x100 0 req else s.put R.LOOP_SEL.IF 0 f
  let f := s.fld R.LOOP_SEL.IF
  let s := if f = 1 ∧ field w 4 5 ≠ 0 then s.kind1 .loop 0 0x100 4 req else s.put R.LOOP_SEL.INST 0 (field w 4 5)
  if loopSelBad f 0 (field w 9 3) = some 9 then s.kind1 .loop 0 0x100 9 req else s.put R.LOOP_SEL.DEPTH 0 (field w 9 3)

/-- A write of `DBG_REG_SEL`: a WORD beyond the register's size is reserved. -/
def State.regSelWrite (s : State) (w req : Nat) : State :=
  let s := (s.put R.DBG_REG_SEL.FILE 0 (field w 0 2)).put R.DBG_REG_SEL.INDEX 0 (field w 2 5)
  if regWords (field w 0 2) ≤ field w 7 5 then s.kind1 .dbg 0 0x118 7 req else s.put R.DBG_REG_SEL.WORD 0 (field w 7 5)

/-- A write of `PWR_CAP` (R439). -/
def State.capWrite (s : State) (w req : Nat) : State :=
  if 700 ≤ field w 0 12 ∧ field w 0 12 ≤ 2000 then s.setCap (field w 0 12) 1 else s.kind1 .pwr 0 0x100 0 req

/-- A write of `XLAT_VA_LO` or `XLAT_VA_HI` (R230). -/
def State.vaWrite (s : State) (c off w req : Nat) : State :=
  if off = 0x118 then
    if field w 21 27 < s.fld R.XLAT_VA_HI.ADDR c then s.put R.XLAT_VA_LO.ADDR c (field w 21 27) else s.kind1 .xlat c off 21 req
  else if s.fld R.XLAT_VA_LO.ADDR c < field w 21 28 then s.put R.XLAT_VA_HI.ADDR c (field w 21 28)
  else s.kind1 .xlat c off 21 req

/-- A write of a Toll register of the selected tenant (R295, R298): a bucket that is written runs a held builder
(R294). -/
def State.tollWrite (s : State) (c off w : Nat) : State :=
  let k := 2 * s.fld R.TOLL_SEL.TENANT c + (if off < 0x110 then 0 else 1)
  let b := (s.ctx c).bucket k
  match off with
  | 0x104 | 0x110 => (s.modCtx c fun x => x.setBucket k { b with rate := w % 2 ^ 24 }).retryBuild c
  | 0x108 | 0x114 => (s.modCtx c fun x => x.setBucket k { b with depth := w }).retryBuild c
  | _ => s.levelWrite c k (BitVec.ofNat 32 w)

/-- Registers of an LD page that are locked while its rings run (R413). -/
def ringConfig (off : Nat) : Bool := decide (0x108 ≤ off ∧ off ≤ 0x130)

/-- A write that the register's own rules carry out, or none where its fields are simply set. `w` is the whole
register's new value. -/
def State.ownWrite (s : State) (p : Page) (i : Nat) (r : RegRef) (w req : Nat) (far : List Byte) : Option State :=
  match p with
  | .dev => if r.reg.off = 0x100 then some (s.devPwrWrite w req) else none
  | .wharf => if r.reg.off = 0x108 then some (s.ldEnWrite w req) else none
  | .link => if r.reg.off = 0x100 then some (s.memberWrite w req) else none
  | .loop => if r.reg.off = 0x100 then some (s.loopSelWrite w req) else none
  | .dbg =>
    if r.reg.off = 0x118 then some (s.regSelWrite w req)
    else if r.reg.off = 0x120 then some (s.regStore w) else none
  | .pwr => if r.reg.off = 0x100 then some (s.capWrite w req) else none
  | .gauge => s.gaugeWrite i r.reg.off r.j w req
  | .gaugeM => if r.reg.off = 0x200 then some (s.mselWrite r.j w req) else none
  | .ld => if ringConfig r.reg.off && s.on R.LD_CTRL.RINGS_EN i then some (s.kind2 .ld i r.off req) else none
  | .duty => if r.reg.off = 0x124 then some (s.ansTail i w far) else none
  | .toll => if 0x104 ≤ r.reg.off ∧ r.reg.off ≤ 0x118 then some (s.tollWrite i r.reg.off w) else none
  | .xlat => if r.reg.off = 0x118 ∨ r.reg.off = 0x120 then some (s.vaWrite i r.reg.off w req) else none
  | _ => none

/-! ### What a write sets off -/

/-- `RST_*` (R62-R65). -/
def State.onRst (s : State) (off w : Nat) : State :=
  match off with
  | 0x100 => (bitsSet w 16).foldl (fun (s : State) n => s.ldReset 3 n) s
  | 0x104 => (bitsSet w 16).foldl (fun (s : State) n => s.ldReset 4 n) s
  | 0x108 => (bitsSet w 8).foldl (fun (s : State) d => s.rstDie d) s
  | 0x10C => (bitsSet w 32).foldl (fun (s : State) k => s.rstLink k) s
  | _ => s.rstModule w

/-- `FAULT_CTRL.CLEAR` (R512). -/
def State.faultClear (s : State) (req : Nat) : State :=
  if s.on R.FAULT_STATUS.HALTED then s.kind2 .fault 0 0x100 req
  else ((s.put R.FAULT_STATUS.FAULT_L 0 0).put R.FAULT_STATUS.FATAL_VALID 0 0).put R.FAULT_STATUS.FATAL_COUNT 0 0

/-- `SEC_CMD` (R476, R482, R491). -/
def State.onSec (s : State) (w : Nat) (far : List Byte) : State :=
  match field w 0 2 with
  | 1 => s.submit far
  | 2 => s.pubkey
  | _ => s.certWrite far

/-- A write of 1 to `DBG_CLOSE`; while a command runs it has no effect and is recorded (R486, R491). -/
def State.dbgClose (s : State) : State :=
  if s.on R.DBG_STATUS.BUSY then s.errlog .dbg 0 4 0 0 0 else s.closeScopes

/-- Commands of the DBG page (R486, R488). -/
def State.onDbg (s : State) (off w : Nat) (ecc : Ecc) : State :=
  match off with
  | 0x108 => if bit w 0 then s.dbgClose else s
  | 0x110 => s.dbgCoreCmd (field w 0 2)
  | 0x138 => if field w 0 2 = 1 then s.dbgRead ecc else s.dbgWrite
  | _ => s

/-- `CORE_FENCE` (R108, R110). -/
def State.onFence (s : State) (n w req : Nat) : State :=
  let s := if bit w 0 then s.fenceCore n 4 else s
  if bit w 1 then s.unfence n (reqDetail req) else s

/-- `GAUGE_MCTRL` (R461). -/
def State.onMctrl (s : State) (w : Nat) : State :=
  let s := if bit w 1 then s.snapModule else s
  if bit w 3 then s.snapEvery else s

/-- What follows the write of a device or core register. `old` is the state before its fields were set. -/
def State.deviceAfter (s old : State) (p : Page) (i off w req : Nat) (far : List Byte) (ecc : Ecc) : State :=
  match p with
  | .clk => if off = 0x100 then (if s.on R.CLK_CTRL.FIXED_FREQ then s.revokeBoost else s.checkBoost) else s
  | .rst => s.onRst off w
  | .boot => if off = 0x114 then s.bootCommand (field w 0 4) else if off = 0x104 ∧ bit w 1 = true then s.svnCommit else s
  | .wharf => if off = 0x100 ∧ bit w 2 = true then s.retrain else s
  | .fault => if off = 0x100 ∧ bit w 0 = true then s.faultClear req else s
  | .sec => if off = 0x138 then s.onSec w far else s
  | .dbg => s.onDbg off w ecc
  | .bist => if off = 0x100 then (if field w 0 2 = 1 then s.bistStart else s.bistAbort) else s
  | .loop => if off = 0x104 then (if field w 0 2 = 1 then s.loopStart else s.loopStop) else s
  | .lock => if off = 0x108 then (if field w 0 2 = 1 then s.lockLoad far else s.isolate) else s
  | .link => if off = 0x108 then s.linkEnWritten i (old.fld R.LINK_EN.EN i) (s.fld R.LINK_EN.EN i) else s
  | .gauge => if off = 0x100 ∧ bit w 1 = true then s.snapDie i else s
  | .gaugeM => if off = 0x100 then s.onMctrl w else if off = 0x118 then s.mclr w else s
  | .core => if off = 0x108 then s.onFence i w req else s
  | _ => s

/-- `LD_CTRL` and `LD_RESET` (R411, R413). -/
def State.onLd (s old : State) (c off w : Nat) : State :=
  if off = 0x100 then (if s.on R.LD_CTRL.RINGS_EN c && !old.on R.LD_CTRL.RINGS_EN c then s.ringsZero c else s)
  else if off = 0x140 then
    let s := if bit w 0 then s.ldReset 3 c else s
    if bit w 1 then s.ldReset 4 c else s
  else s

/-- Combinations of `SLUICE_CMD` that are legal (R204): the lowest bit of the first field that is not, or none. -/
def sluiceCmdBad (op tier : Nat) : Option Nat :=
  if op = 1 then (if tier ≤ 1 then none else some 4)
  else if op = 3 then (if 1 ≤ tier then none else some 4)
  else if tier = 0 then none else some 4

/-- `SLUICE_CMD` and `SLUICE_CTRL.LST_RELOAD` (R191, R204). -/
def State.onSluice (s : State) (c off w req : Nat) (far : List Byte) : State :=
  if off = 0x100 then (if bit w 2 then s.lstReload c far else s)
  else if off = 0x14C then
    match sluiceCmdBad (field w 0 3) (field w 4 2) with
    | some lo => s.kind1 .sluice c 0x14C lo req
    | none => s.sluiceCommand c (field w 0 3) (field w 4 2) (bit w 6)
  else s

/-- The field of `XLAT_UQ_OP` that holds a reserved encoding by itself (R221): its lowest bit. -/
def uqOpBad (op tier : Nat) : Option Nat :=
  if op = 0 ∨ 7 < op then some 0
  else if (op = 1 ∧ tier ≠ 1 ∧ tier ≠ 3) ∨ (op = 2 ∧ tier ≠ 2) ∨ (2 < op ∧ tier ≠ 0) then some 4
  else none

/-- `XLAT_CTRL.ADVANCE` and `XLAT_UQ_OP` (R220, R221, R226); a reserved encoding is recorded and refused as BAD (R5). -/
def State.onXlat (s : State) (c off w req : Nat) : State :=
  if off = 0x100 then (if bit w 0 then s.advance c (reqDetail req) else s)
  else if off = 0x140 then
    let s := match uqOpBad (field w 0 4) (field w 4 2) with
      | some lo => s.kind1 .xlat c 0x140 lo req
      | none => s
    s.submitEdit c (field w 0 4) (field w 4 2) (field w 8 24)
  else s

/-- A write of `CTX_CMD` or `CTX_ACCT_CTRL`. A reserved OP of `CTX_CMD` is recorded, and so is an operation of LD0's
that an LD asks for, beside the refusal in `CTX_CMD_RESULT` (R5, R418, R531). -/
def State.onCtx (s : State) (c off w req : Nat) : State :=
  if off = 0x100 then
    let op := field w 0 3
    let s := if op = 0 ∨ 5 < op then s.kind1 .ctx c 0x100 0 req
      else if !asLd0 req && decide (op ≠ 2 ∧ op ≠ 3) then s.kind2 .ctx c 0x100 req
      else s
    s.ctxCmd req c op
  else if off = 0x118 ∧ bit w 0 = true then s.ctxSnap c
  else s

/-- A change of `STEP_CTRL` that lets the helm build fixes its next list (R292, R293). -/
def State.onStepCtrl (s old : State) (c : Nat) : State := if s.stepsRun c && !old.stepsRun c then s.nextStep c else s

/-- What follows the write of a context register. -/
def State.contextAfter (s old : State) (p : Page) (c off j w req : Nat) (far : List Byte) : State :=
  match p with
  | .ctx => s.onCtx c off w req
  | .ld => s.onLd old c off w
  | .mani => if off = 0x118 then s.maniCommand c (field w 0 2) else s
  | .step => if off = 0x100 then s.onStepCtrl old c else s
  | .assay => if off = 0xC00 then s.layerCmd c j (bit w 3) (bit w 4) (reqDetail req) else s
  | .sluice => s.onSluice c off w req far
  | .xlat => s.onXlat c off w req
  | .attn => if off = 0x100 ∧ bit w 0 = true then s.mapReload c far else s
  | .rake => if off = 0x118 then s.forkCommand c else s
  | .barge =>
    if off = 0x180 then s.downClear c (w % 2 ^ 16) (reqDetail req)
    else if off = 0x100 ∧ bit w 4 = true then s.modCtx c fun x => { x with reloadTabs := true } else s
  | .msf =>
    if off = 0x134 then (if field w 0 2 = 1 then s.exportSet c else s.exportClear c)
    else if off = 0x100 ∧ bit w 1 = true then s.importReload c far else s
  | _ => s

/-! ### Writes -/

/-- Sets one field as its access type says (R3, R5). -/
def State.fieldWrite (s : State) (p : Page) (i : Nat) (r : RegRef) (req w : Nat) (f : FieldDef) : State :=
  let v := field w f.lo f.width
  let fd := f.fd p r.reg
  match f.acc with
  | .rw => if encodingOk f.ok v then s.setFld fd i r.j v else s.kind1 p i r.off f.lo req
  | .w1c => s.setFld fd i r.j (bitMap f.width fun b => bit (s.fld fd i r.j) b && !bit v b)
  | .w1s => s.setFld fd i r.j (s.fld fd i r.j ||| v)
  | .wo => if encodingOk f.ok v then s else s.kind1 p i r.off f.lo req
  | _ => s

/-- The WO fields of a write hold legal encodings, so that it sets off what it names. -/
def commandOk (r : RegRef) (w : Nat) : Bool :=
  r.reg.flds.all fun f => decide (f.acc ≠ .wo) || encodingOk f.ok (field w f.lo f.width)

/-- A reserved encoding for which the chapter gives a result code too, which the command then writes (R5). -/
def resultsAnyway (p : Page) (off : Nat) : Bool := decide ((p = .mani ∧ off = 0x118) ∨ (p = .xlat ∧ off = 0x140))

/-- A whole value takes effect in a register. -/
def State.regSet (s : State) (p : Page) (i : Nat) (r : RegRef) (req w : Nat) (far : List Byte) (ecc : Ecc) : State :=
  match s.ownWrite p i r w req far with
  | some s => s
  | none =>
    let t := r.reg.flds.foldl (fun (s : State) f => s.fieldWrite p i r req w f) s
    if commandOk r w || resultsAnyway p r.reg.off then
      if isCtxPage p then t.contextAfter s p i r.reg.off r.j w req far
      else t.deviceAfter s p i r.reg.off w req far ecc
    else t

/-- A register with RW fields: a 64-bit one takes effect whole (R533). -/
def RegDef.holds (r : RegDef) : Bool := r.b64 && r.flds.any fun f => decide (f.acc = .rw)

/-- A write is refused: by the lock, for a writer without the right, or away from the helm (R112, R316, R522, R531). -/
def State.writeBarred (s : State) (p : Page) (i : Nat) (r : RegDef) (req : Nat) : Bool :=
  (r.locked && s.on (hdrCfgLock p) i) || (r.ld0Only && !asLd0 req) || (r.helmOnly && !s.helm i)

/-- A 32-bit write of a register above the header at address `a` (R533). -/
def State.regWrite (s : State) (p : Page) (i : Nat) (r : RegRef) (req a v : Nat) (far : List Byte) (ecc : Ecc) : State :=
  if s.writeBarred p i r.reg req then s.kind2 p i r.off req
  else if !r.reg.b64 then s.regSet p i r req v far ecc
  else if !r.reg.holds then s.regSet p i r req (if r.high then v * 2 ^ 32 else v) far ecc
  else if !r.high then { s with held := tset (0, 0) s.held req (a, v) }
  else
    let h := tget (0, 0) s.held req
    let mine := decide (h.1 = a - 4)
    let low := if mine then h.2 else s.regWordOf p i r % 2 ^ 32
    let s := if mine then { s with held := tset (0, 0) s.held req (0, 0) } else s
    s.regSet p i r req (v * 2 ^ 32 + low) far ecc

/-- A write of `CTRL` (R521, R522): a change of DUTY_MODE withdraws what was asked in the earlier mode (R423). -/
def State.ctrlWrite (s : State) (p : Page) (i v : Nat) : State :=
  let s := if bit v 2 then s.put (hdrCfgLock p) i 1 else s
  if s.hasDuty p i && decide (s.fld (hdrDutyMode p) i ≠ field v 1 1) then
    (s.put (hdrDutyMode p) i (field v 1 1)).dutyModeChanged (pageDuty p) i
  else s

/-- A write of a header register (R519-R524). -/
def State.headerWrite (s : State) (p : Page) (i off v : Nat) : State :=
  match off with
  | 0x008 => s.ctrlWrite p i v
  | 0x010 => s.put (hdrEvent p) i (bitMap 6 fun b => bit (s.fld (hdrEvent p) i) b && !bit v b)
  | 0x014 => s.put (hdrEventEn p) i (v % 8)
  | 0x018 => s.put (hdrEvent p) i (s.fld (hdrEvent p) i ||| v % 64)
  | _ => s

/-- A write of 32 bits, of which `be` bytes are enabled, to address `a` of the page map: a page in reset takes none and
records none (R532), and a partial write is only recorded (R397). -/
def State.busWrite (s : State) (req a v be : Nat) (far : List Byte) (ecc : Ecc) : State :=
  match pageAt a with
  | none => s
  | some (p, i) =>
    let off := a % 0x1000 / 4 * 4
    if s.regInReset p i off then s
    else if off < 0x100 then
      if 0x24 ≤ off then s else if be ≠ 15 then s.kind2 p i off req else s.headerWrite p i off v
    else
      match regAt p i off with
      | none => s
      | some r => if be ≠ 15 then s.kind2 p i r.off req else s.regWrite p i r req (a / 4 * 4) v far ecc

/-! ### Reads -/

/-- The error log of a page is empty (R525). -/
def State.clearLog (s : State) (p : Page) (i : Nat) : State :=
  [hdrErrValid p, hdrErrAddr p, hdrErrKind p, hdrErrOvf p, hdrErrBit p, hdrErrDetail p].foldl
    (fun (s : State) f => s.put f i 0) s

/-- `ERRLOG_ADDR` is read: the held record is latched for the requester. -/
def State.errAddrRead (s : State) (p : Page) (i req : Nat) : Nat × State :=
  let n := if s.on (hdrErrValid p) i then tget 0 s.errSeq (pageBase p i) else 0
  let info := s.headerWord p i 0x020 - 2 ^ 4 * s.fld (hdrErrOvf p) i
  (s.headerWord p i 0x01C, { s with errLatch := tset (0, 0) s.errLatch (2 ^ 24 * req + pageBase p i) (info, n + 1) })

/-- `ERRLOG_INFO` is read: the latched record with the current OVF, and the log is cleared where that record is still the
one held. Without a latch the read shows the record held, and clears nothing. -/
def State.errInfoRead (s : State) (p : Page) (i req : Nat) : Nat × State :=
  let l := tget (0, 0) s.errLatch (2 ^ 24 * req + pageBase p i)
  if l.2 = 0 then (s.headerWord p i 0x020, s)
  else
    let v := l.1 + 2 ^ 4 * s.fld (hdrErrOvf p) i
    let s := { s with errLatch := tset (0, 0) s.errLatch (2 ^ 24 * req + pageBase p i) (0, 0) }
    (v, if s.on (hdrErrValid p) i && decide (1 < l.2 ∧ l.2 = tget 0 s.errSeq (pageBase p i) + 1) then s.clearLog p i else s)

/-- RC fields return to 0 as they are read (R3). -/
def State.clearRc (s : State) (p : Page) (i : Nat) (r : RegRef) : State :=
  r.reg.flds.foldl (fun (s : State) f => if f.acc = .rc then s.setFld (f.fd p r.reg) i r.j 0 else s) s

/-- A read of a register above the header (R8, R533). -/
def State.regRead (s : State) (p : Page) (i : Nat) (r : RegRef) (req a : Nat) : Nat × State :=
  let l := tget (0, 0) s.latch req
  if r.high && decide (l.1 = a - 4) then (l.2, s)
  else
    let s := if p = .dbg ∧ r.reg.off = 0x120 then s.regFetch else s
    let v := s.regWordOf p i r
    let s := if r.reg.b64 && !r.high then { s with latch := tset (0, 0) s.latch req (a, v / 2 ^ 32) } else s
    (r.half v, s.clearRc p i r)

/-- A read of 32 bits at address `a` of the page map: reserved registers and pages read 0 (R4), a page in reset its reset
values (R532). -/
def State.busRead (s : State) (req a : Nat) : Nat × State :=
  match pageAt a with
  | none => (0, s)
  | some (p, i) =>
    let off := a % 0x1000 / 4 * 4
    if off < 0x100 then
      if s.regInReset p i off then (headerReset p i off, s)
      else if off = 0x01C then s.errAddrRead p i req
      else if off = 0x020 then s.errInfoRead p i req
      else (s.headerWord p i off, s)
    else
      match regAt p i off with
      | none => (0, s)
      | some r => if s.regInReset p i off then (r.half r.resetWord, s) else s.regRead p i r req (a / 4 * 4)

/-! ### Requesters (R395, R396, R531) -/

/-- Address in the page map of an address of a requester's window. -/
def windowAddr (req a : Nat) : Option Nat :=
  if 1 ≤ req ∧ req < 16 then (if a < 0x10000 then some (0x400000 + req * 0x10000 + a) else none)
  else if a < 0x2000000 then some a else none

/-- JTAG reaches a page under the scopes open (R485, R487): the result code of an access it may not make, or 0. -/
def State.jtagBar (s : State) (a : Nat) : Nat :=
  match pageAt a with
  | some (.dbg, _) => 0
  | some (p, i) =>
    if !s.scope 2 then (if s.scope 3 && decide (p = .gauge ∨ p = .gaugeM) then 0 else 1)
    else if isCtxPage p && !bit (s.fld R.DBG_SCOPE.MASK) i then 2
    else 0
  | none => if s.scope 2 then 0 else 1

/-- An LD reaches an address of the page map (R73, R531). -/
def State.ldReaches (s : State) (n a : Nat) : Bool :=
  if n = 0 then !s.power.recovery || decide (a / 0x1000 = 3) else decide (a / 0x10000 = 0x40 + n)

/-- What becomes of an access: 0 it is not taken, 1 it completes with Unsupported Request, 2 it reads 0 and writes
nothing, 3 it is made. -/
def State.accessKind (s : State) (req a : Nat) : Nat :=
  if !s.board.mgmtUp then 0
  else if req < 16 then
    if s.trafficHeld || !s.wharf.up then 0
    else if !s.ldServes req then 1
    else if s.ldReaches req a then 3 else 2
  else 3

/-- A write by a requester at an address of the page map. -/
def State.writeBy (s : State) (req a v be : Nat) (far : List Byte) (ecc : Ecc) : State :=
  match s.accessKind req a with
  | 1 => s.emit (.unsupported req)
  | 3 => s.busWrite req a v be far ecc
  | _ => s

/-- A read by a requester; its data go out. -/
def State.readBy (s : State) (req a : Nat) : State :=
  match s.accessKind req a with
  | 1 => s.emit (.unsupported req)
  | 2 => s.emit (.regData req a 0)
  | 3 =>
    let r := s.busRead req a
    r.2.emit (.regData req a (BitVec.ofNat 32 r.1))
  | _ => s

/-- `DBG_ACCESS` (R487): one access with JTAG's rights; one that the scopes do not allow changes nothing but
`DBG_STATUS.RESULT`. -/
def State.dbgAccess (s : State) (data a : Nat) (write : Bool) : State :=
  let bar := s.jtagBar a
  if bar ≠ 0 then (s.dbgResult bar).emit (.regData 17 a 0)
  else if write then s.writeBy 17 a data 15 [] .ok
  else s.readBy 17 a

end Sys2Proof.Machine
end

