-- ==== Sys2Proof/Machine/Security.lean ====
section
/-! DEFINITION. Machine/Security.lean: attestation, the memory-device and fabric-manager commands, accepted tokens and
the test access port (R36, R393, R396, R468-R490; 15_host_port_and_logical_devices.md,
19_lifecycle_security_debug.md). The register writes that submit tokens and debug commands are in
Machine/RegRows.lean. -/
namespace Sys2Proof.Machine

/-! ### SPDM on LD0 (R477-R479). What an answer says is modelled, not its SPDM framing (log entry 61). -/

/-- LD0's SPDM object answers: firmware runs, and the port serves LD0. -/
def State.spdmServes (s : State) : Bool := s.power.running && s.ldServes 0

def State.spdm (s : State) (answer : String) (bytes : List Byte) : State := s.emit (.answer ("SPDM " ++ answer) bytes)

/-- ERROR UnsupportedRequest. -/
def State.spdmUnsupported (s : State) : State := s.spdm "ERROR UnsupportedRequest" []

/-- GET_VERSION: 1.2. -/
def execGetVersion (s : State) : Result := .next (if s.spdmServes then s.spdm "VERSION" [0x12] else s)

/-- GET_CAPABILITIES: the four of R477, as CERT_CAP, CHAL_CAP, MEAS_CAP with signature and MEAS_FRESH_CAP. -/
def execGetCapabilities (s : State) : Result :=
  .next (if s.spdmServes then s.spdm "CAPABILITIES CERT CHAL MEAS_SIG MEAS_FRESH" [] else s)

/-- NEGOTIATE_ALGORITHMS: ECDSA on P-521 and SHA-512 for both hashes. -/
def execNegotiateAlgorithms (s : State) : Result :=
  .next (if s.spdmServes then s.spdm "ALGORITHMS ECDSA_P521 SHA_512 SHA_512" [] else s)

/-- The chain of certificate slot 0: the stored chain, then the certificate built at boot. -/
def State.certChain (s : State) : List Byte := s.sec.certs ++ s.sec.aliasCert

/-- GET_DIGESTS: the digest of slot 0's chain. -/
def execGetDigests (s : State) : Result :=
  .next (if s.spdmServes then s.spdm "DIGESTS" (Config.sha512 s.certChain) else s)

/-- GET_CERTIFICATE of a slot: a portion of slot 0's chain; other slots are absent. -/
def execGetCertificate (slot : BitVec 3) (offset length : BitVec 16) (s : State) : Result :=
  .next (if !s.spdmServes then s
  else if slot ≠ 0 then s.spdmUnsupported
  else s.spdm "CERTIFICATE" ((s.certChain.drop offset.toNat).take length.toNat))

/-- An identity exists: PROVISIONED or DEPLOYED (R479). -/
def State.hasIdentity (s : State) : Bool := decide (s.life = 1 ∨ s.life = 2)

/-- CHALLENGE: a fresh nonce, the chain's digest, and the signature by the key that it certifies over what SPDM has it sign, which begins
with the transcript so far (R479). -/
def execChallenge (transcript : List Byte) (s : State) : Result :=
  .next (if !s.spdmServes then s
  else if !s.hasIdentity then s.spdmUnsupported
  else
    let body := freeBytes s.free 32 ++ Config.sha512 s.certChain
    let s := { s with free := s.free + 1 }
    s.spdm "CHALLENGE_AUTH" (body ++ Config.ecdsaSign s.sec.aliasKey (transcript ++ body)))

/-- `SEC_LIFECYCLE` as it reads. -/
def State.lifecycleWord (s : State) : Nat :=
  s.life + 2 ^ 8 * s.fld R.SEC_LIFECYCLE.ENROLLED + 2 ^ 12 * s.fld R.SEC_LIFECYCLE.REVOKED +
    2 ^ 16 * s.fld R.SEC_LIFECYCLE.FW_SIGN + 2 ^ 20 * s.fld R.SEC_LIFECYCLE.DEBUG_SIGN +
    2 ^ 24 * s.fld R.SEC_LIFECYCLE.SECRET_VALID

/-- What measurement `i` digests (R478); fields of registers as 4-byte words, in the order named (log entry 61). -/
def State.measured (s : State) : Nat → List Byte
  | 1 => Config.bootRom
  | 2 => imgSigned s.power.image
  | 3 => w4 [s.fld R.BOOT_STATUS.SVN_IMAGE, s.fld R.BOOT_STATUS.SVN_FUSED]
  | 4 => w4 [s.lifecycleWord] ++ s.sec.fuses.holyonHash ++ s.sec.fuses.owners.flatMap fun o => o.hash
  | 5 => w4 [s.power.startPlan, s.node + 2 ^ 12 * s.slice + 2 ^ 20 * s.fld R.LOCK_SELF.GRANTS +
      2 ^ 25 * s.fld R.LOCK_SELF.CFGGEN] ++ s.sec.lockImage
  | 6 => w4 [s.fld R.DBG_SCOPE.SCOPES + 2 ^ 16 * s.fld R.DBG_SCOPE.MASK, s.fld R.DBG_HISTORY.SCOPES]
  | _ => s.sec.fuses.trims ++ s.sec.fuses.coefficients

/-- GET_MEASUREMENTS: index 0 asks how many there are, 0xFF for all, 1-7 for one; signed only where an identity exists
(R478, R479). -/
def execGetMeasurements (index : BitVec 8) (signed : Bool) (transcript : List Byte) (s : State) : Result :=
  .next (if !s.spdmServes then s
  else if signed && !s.hasIdentity then s.spdmUnsupported
  else
    let which := if index = 0 then [] else if index = 0xFF then [1, 2, 3, 4, 5, 6, 7] else [index.toNat]
    if 7 < index.toNat ∧ index ≠ 0xFF then s.spdm "ERROR InvalidRequest" []
    else
      let body := (if index = 0 then [7#8] else []) ++ which.flatMap fun i => leBytes i 1 ++ Config.sha512 (s.measured i)
      let nonce := freeBytes s.free 32
      let s := { s with free := s.free + 1 }
      s.spdm "MEASUREMENTS" (if signed then body ++ nonce ++ Config.ecdsaSign s.sec.aliasKey (transcript ++ body ++ nonce)
        else body))

/-! ### The CXL mailbox and the fabric manager (R393, R396) -/

def State.mailbox (s : State) (ld : Nat) (answer : String) (bytes : List Byte) : State :=
  if s.ldServes ld then s.emit (.answer ("CXL " ++ answer) bytes) else s.emit (.unsupported ld)

/-- Identify Memory Device: 768 GiB, all volatile. -/
def execIdentifyMemoryDevice (ld : Fin 16) (s : State) : Result :=
  .next (s.mailbox ld "Identify Memory Device" (leBytes hbmSize 8 ++ leBytes hbmSize 8))

/-- Get Partition Info: the volatile capacity, and none that is persistent. -/
def execGetPartitionInfo (ld : Fin 16) (s : State) : Result :=
  .next (s.mailbox ld "Get Partition Info" (leBytes hbmSize 8 ++ leBytes 0 8))

/-- Get Supported Logs: the Command Effects Log, the one log that R396 names. -/
def execGetSupportedLogs (ld : Fin 16) (s : State) : Result :=
  .next (s.mailbox ld "Get Supported Logs: Command Effects Log" [])

/-- Get Log, for the Command Effects Log: the four commands of the mailbox, none of which changes the device. Any other
log is unsupported. -/
def execGetLog (ld : Fin 16) (commandEffects : Bool) (s : State) : Result :=
  .next (if commandEffects then
    s.mailbox ld "Command Effects Log: Identify Memory Device, Get Partition Info, Get Supported Logs, Get Log" []
  else s.mailbox ld "Unsupported" [])

/-- Get LD Info, from the fabric manager: 768 GiB and 16 LDs. -/
def execGetLdInfo (s : State) : Result :=
  .next (if s.wharf.up then s.emit (.answer "FM Get LD Info" (leBytes hbmSize 8 ++ leBytes 16 2)) else s)

/-- Get LD Allocations, from the fabric manager: 16 LDs, with allocations that the spec does not give. -/
def execGetLdAllocations (s : State) : Result :=
  .next (if s.wharf.up then
    ({ s with free := s.free + 1 } : State).emit (.answer "FM Get LD Allocations" (leBytes 16 2 ++ freeBytes s.free 256))
  else s)

/-! ### Accepted tokens (R469, R483, R484) -/

/-- An accepted OPEN token. -/
def execTokenOpen (s : State) : Result := .next (if s.tokenWaits 0 then s.openToken else s)

/-- An accepted TRANSITION token: to RETURN, or to SCRAPPED; both clear every memory. -/
def execTokenTransition (s : State) : Result :=
  .next (if s.tokenWaits 1 then (s.clearMemories true true true).blowLife (tokArg s.sec.token) else s)

/-- An accepted ENROLL token. -/
def execTokenEnroll (s : State) : Result := .next (if s.tokenWaits 2 then s.enrollToken else s)

/-- An accepted REVOKE token. -/
def execTokenRevoke (s : State) : Result := .next (if s.tokenWaits 3 then s.revokeToken else s)

/-- An accepted PROVISION token. -/
def execTokenProvision (s : State) : Result := .next (if s.tokenWaits 4 then s.provisionToken else s)

/-- The clearing before an OPEN completes. -/
def execScopeClearDone (s : State) : Result := .next s.clearedOpen

/-! ### The test access port (R36, R487) -/

/-- A bit as a byte of an answer. -/
def bitByte (b : Bool) : Byte := BitVec.ofNat 8 (b2n b)

/-- The port passes bits through its one-bit bypass register, which captures 0 (R36). -/
def State.bypass (s : State) (bits : List Bool) : State :=
  s.emit (.answer "TDO" ((false :: bits).take bits.length |>.map bitByte))

/-- IDCODE (R487). -/
def execJtagIdcode (s : State) : Result :=
  .next (s.emit (.answer "TDO" (leBytes (1 + 2 * (s.sec.fuses.jtagId % 2048) + 2 ^ 12 * 0x9600 + 2 ^ 28) 4)))

/-- A boundary-scan instruction: the cells shifted out are those of the sideband and host-port contacts, whose order the
spec does not give (R36). -/
def execJtagBoundaryScan (n : BitVec 16) (s : State) : Result :=
  .next (({ s with free := s.free + 1 } : State).emit (.answer "TDO" (freeBytes s.free n.toNat)))

/-- BYPASS, and every instruction that the port does not offer (R36). -/
def execJtagBypass (bits : List Bool) (s : State) : Result := .next (s.bypass bits)

/-- SCAN_n shifts a scan chain under SCAN, and is BYPASS without it (R484, R487). What a chain holds is not given. -/
def execScanN (_chain : BitVec 8) (bits : List Bool) (s : State) : Result :=
  .next (if s.scope 6 then
    ({ s with free := s.free + 1 } : State).emit (.answer "TDO" (freeBytes s.free bits.length))
  else s.bypass bits)

end Sys2Proof.Machine
end

