-- ==== Sys2Proof/Machine/RegRows.lean ====
section
/-! DEFINITION. Machine/RegRows.lean: the commands that are one access of a register page (22_register_pages.md and
the field map of each chapter). A requester is numbered as R397 orders them: 0-15 the LDs, 16 firmware, 17 JTAG. -/
namespace Sys2Proof.Machine

/-- One of the scopes that `DBG_ACCESS` needs is open (R487). -/
def State.jtagOpen (s : State) : Bool := s.scope 0 || s.scope 1 || s.scope 2 || s.scope 3

/-- A write of a whole register at an address of the page map, by any requester; JTAG writes as its scopes allow. -/
def State.access (s : State) (req : Fin 18) (a v : Nat) (far : List Byte) (ecc : Ecc) : State :=
  if req.val = 17 then
    if !s.jtagOpen then s
    else if s.jtagBar a ≠ 0 then s.dbgResult (s.jtagBar a)
    else s.writeBy 17 a v 15 far ecc
  else s.writeBy req a v 15 far ecc

/-- A write of the register at an offset of a page. -/
def State.command (s : State) (req : Fin 18) (p : Page) (i off v : Nat) (far : List Byte := []) (ecc : Ecc := .ok) :
    State :=
  s.access req (pageBase p i + off) v far ecc

/-- A read at an address of the page map. -/
def State.inquire (s : State) (req : Fin 18) (a : Nat) : State :=
  if req.val = 17 then (if s.jtagOpen then s.dbgAccess 0 a false else s) else s.readBy req a

/-- A read at an address of the requester's window. -/
def State.readWindow (s : State) (req : Fin 18) (a : Nat) : State :=
  match windowAddr req a with
  | some a => s.inquire req a
  | none => s

/-- A read of the low half of the 64-bit register that holds the address. -/
def State.inquireLocal (s : State) (req : Fin 18) (a : Nat) : State := s.readWindow req (a / 8 * 8)

/-- A write at an address of the requester's window, with its byte enables. -/
def State.writeWindow (s : State) (req : Fin 18) (a v be : Nat) (far : List Byte) (ecc : Ecc) : State :=
  match windowAddr req a with
  | some a =>
    if be = 15 then s.access req a v far ecc
    else if req.val = 17 then s
    else s.writeBy req a v be far ecc
  | none => s

/-- The RW bits of a register as they stand, so that a write of one of its other bits leaves them. -/
def State.kept (s : State) (p : Page) (i off : Nat) : Nat :=
  match regAt p i off with
  | some r => (r.reg.flds.map fun f => if f.acc = .rw then s.fld (f.fd p r.reg) i r.j * 2 ^ f.lo else 0).sum
  | none => 0

/-- A word with one bit set to `b`. -/
def withBit (w k : Nat) (b : Bool) : Nat := if b then setBit w k else clrBit w k

/-- Address of a page of the map by its number. -/
def pageAddr (page : BitVec 13) : Nat := 0x1000 * page.toNat

/-- The bits of a page's `CTRL` as they stand. -/
def State.pageCtrl (s : State) (page : BitVec 13) : Nat :=
  match pageAt (pageAddr page) with
  | some (p, i) => s.headerWord p i 0x008
  | none => 0

/-- A write of `CLK_CTRL` (R53, R55). -/
def execClkCtrlWrite (req : Fin 18) (value : Word32) (s : State) : Result :=
  .next (s.command req .clk 0 0x100 value.toNat)

/-- `DEV_PWR.TARGET` = 0: a wake to P0 (R59). -/
def execDevPwrTargetP0 (req : Fin 18) (autoWake : Bool) (s : State) : Result :=
  .next (s.command req .dev 0 0x100 (0 + 2 ^ 8 * b2n autoWake))

/-- `DEV_PWR.TARGET` = 1: P1 (R56). -/
def execDevPwrTargetP1 (req : Fin 18) (autoWake : Bool) (s : State) : Result :=
  .next (s.command req .dev 0 0x100 (1 + 2 ^ 8 * b2n autoWake))

/-- `DEV_PWR.TARGET` = 2: P2 (R58). -/
def execDevPwrTargetP2 (req : Fin 18) (autoWake : Bool) (s : State) : Result :=
  .next (s.command req .dev 0 0x100 (2 + 2 ^ 8 * b2n autoWake))

/-- `DEV_PWR.TARGET` = 3: P3 (R60). -/
def execDevPwrTargetP3 (req : Fin 18) (autoWake : Bool) (s : State) : Result :=
  .next (s.command req .dev 0 0x100 (3 + 2 ^ 8 * b2n autoWake))

/-- A write of `RST_MODULE`; only the key resets (R63). -/
def execRstModuleWrite (req : Fin 18) (key : Word32) (s : State) : Result :=
  .next (s.command req .rst 0 0x110 key.toNat)

/-- A write of `RST_DIE` (R63, R64). -/
def execRstDieWrite (req : Fin 18) (dies : BitVec 8) (s : State) : Result :=
  .next (s.command req .rst 0 0x108 dies.toNat)

/-- A write of `RST_LINK` (R62). -/
def execRstLinkWrite (req : Fin 18) (links : Word32) (s : State) : Result :=
  .next (s.command req .rst 0 0x10C links.toNat)

/-- A write of `RST_LD` (R65). -/
def execRstLdWrite (req : Fin 18) (lds : BitVec 16) (s : State) : Result :=
  .next (s.command req .rst 0 0x100 lds.toNat)

/-- A write of `RST_CTX` (R65). -/
def execRstCtxWrite (req : Fin 18) (ctxs : BitVec 16) (s : State) : Result :=
  .next (s.command req .rst 0 0x104 ctxs.toNat)

/-- `LD_RESET.LD` (R411). -/
def execLdResetLd (req : Fin 18) (ld : Fin 16) (s : State) : Result := .next (s.command req .ld ld 0x140 1)

/-- `LD_RESET.CTX` (R411). -/
def execLdResetCtx (req : Fin 18) (ld : Fin 16) (s : State) : Result := .next (s.command req .ld ld 0x140 2)

/-- `BOOT_MBOX_CMD` LOAD (R73, R74); the DMA's outcome arrives with the boot rows. -/
def execLoad (req : Fin 18) (s : State) : Result := .next (s.command req .boot 0 0x114 1)

/-- `BOOT_MBOX_CMD` FLASH_WRITE (R74). -/
def execFlashWrite (req : Fin 18) (s : State) : Result := .next (s.command req .boot 0 0x114 2)

/-- `BOOT_CTRL.SVN_COMMIT` (R69). -/
def execSvnCommit (req : Fin 18) (s : State) : Result :=
  .next (s.command req .boot 0 0x104 (s.kept .boot 0 0x104 + 2))

/-- `CORE_FENCE.FENCE` (R108). -/
def execFence (req : Fin 18) (core : Fin 512) (s : State) : Result := .next (s.command req .core core 0x108 1)

/-- `CORE_FENCE.UNFENCE` (R110). -/
def execUnfence (req : Fin 18) (core : Fin 512) (s : State) : Result := .next (s.command req .core core 0x108 2)

/-- `ASSAY_LSTATE.CLEAR` (R152). -/
def execClear (req : Fin 18) (ctx : Fin 16) (layer : Fin 256) (s : State) : Result :=
  .next (s.command req .assay ctx (0xC00 + 4 * layer) 8)

/-- `ASSAY_LSTATE.FORCE_WIDEN` (R150). -/
def execForceWiden (req : Fin 18) (ctx : Fin 16) (layer : Fin 256) (s : State) : Result :=
  .next (s.command req .assay ctx (0xC00 + 4 * layer) 16)

/-- `SLUICE_CTRL.LST_RELOAD`; `far` is what host memory answers for a table there (R191). -/
def execLstReload (req : Fin 18) (ctx : Fin 16) (far : List Byte) (s : State) : Result :=
  .next (s.command req .sluice ctx 0x100 (s.kept .sluice ctx 0x100 + 4) far)

/-- `SLUICE_CMD` STAGE on the subpages of the command registers (R204). -/
def execStage (req : Fin 18) (ctx : Fin 16) (tier : BitVec 2) (pin : Bool) (s : State) : Result :=
  .next (s.command req .sluice ctx 0x14C (1 + 2 ^ 4 * tier.toNat + 2 ^ 6 * b2n pin))

/-- `SLUICE_CMD` EVICT on the subpages of the command registers (R204). -/
def execEvict (req : Fin 18) (ctx : Fin 16) (tier : BitVec 2) (pin : Bool) (s : State) : Result :=
  .next (s.command req .sluice ctx 0x14C (2 + 2 ^ 4 * tier.toNat + 2 ^ 6 * b2n pin))

/-- `SLUICE_CMD` MOVE on the subpages of the command registers (R204). -/
def execMove (req : Fin 18) (ctx : Fin 16) (tier : BitVec 2) (pin : Bool) (s : State) : Result :=
  .next (s.command req .sluice ctx 0x14C (3 + 2 ^ 4 * tier.toNat + 2 ^ 6 * b2n pin))

/-- `SLUICE_CMD` WRITEBACK on the subpages of the command registers (R204). -/
def execWriteback (req : Fin 18) (ctx : Fin 16) (tier : BitVec 2) (pin : Bool) (s : State) : Result :=
  .next (s.command req .sluice ctx 0x14C (4 + 2 ^ 4 * tier.toNat + 2 ^ 6 * b2n pin))

/-- `XLAT_UQ_OP` ALLOC on the page queue's operand registers (R221). -/
def execAlloc (req : Fin 18) (ctx : Fin 16) (tier : BitVec 2) (count : BitVec 24) (s : State) : Result :=
  .next (s.command req .xlat ctx 0x140 (1 + 2 ^ 4 * tier.toNat + 2 ^ 8 * count.toNat))

/-- `XLAT_UQ_OP` MAP_POOLED on the page queue's operand registers (R221). -/
def execMapPooled (req : Fin 18) (ctx : Fin 16) (tier : BitVec 2) (count : BitVec 24) (s : State) : Result :=
  .next (s.command req .xlat ctx 0x140 (2 + 2 ^ 4 * tier.toNat + 2 ^ 8 * count.toNat))

/-- `XLAT_UQ_OP` FREE on the page queue's operand registers (R221). -/
def execFree (req : Fin 18) (ctx : Fin 16) (tier : BitVec 2) (count : BitVec 24) (s : State) : Result :=
  .next (s.command req .xlat ctx 0x140 (3 + 2 ^ 4 * tier.toNat + 2 ^ 8 * count.toNat))

/-- `XLAT_UQ_OP` PERM on the page queue's operand registers (R221). -/
def execPerm (req : Fin 18) (ctx : Fin 16) (tier : BitVec 2) (count : BitVec 24) (s : State) : Result :=
  .next (s.command req .xlat ctx 0x140 (4 + 2 ^ 4 * tier.toNat + 2 ^ 8 * count.toNat))

/-- `XLAT_UQ_OP` SEQ_SET on the page queue's operand registers (R221). -/
def execSeqSet (req : Fin 18) (ctx : Fin 16) (tier : BitVec 2) (count : BitVec 24) (s : State) : Result :=
  .next (s.command req .xlat ctx 0x140 (5 + 2 ^ 4 * tier.toNat + 2 ^ 8 * count.toNat))

/-- `XLAT_UQ_OP` SEQ_CLEAR on the page queue's operand registers (R221). -/
def execSeqClear (req : Fin 18) (ctx : Fin 16) (tier : BitVec 2) (count : BitVec 24) (s : State) : Result :=
  .next (s.command req .xlat ctx 0x140 (6 + 2 ^ 4 * tier.toNat + 2 ^ 8 * count.toNat))

/-- `XLAT_UQ_OP` INV_NOW on the page queue's operand registers (R221, R227). -/
def execInvNow (req : Fin 18) (ctx : Fin 16) (tier : BitVec 2) (count : BitVec 24) (s : State) : Result :=
  .next (s.command req .xlat ctx 0x140 (7 + 2 ^ 4 * tier.toNat + 2 ^ 8 * count.toNat))

/-- `XLAT_CTRL.ADVANCE` (R226). -/
def execAdvance (req : Fin 18) (ctx : Fin 16) (s : State) : Result := .next (s.command req .xlat ctx 0x100 1)

/-- `ATTN_CTRL.MAP_RELOAD` (R233). -/
def execMapReload (req : Fin 18) (ctx : Fin 16) (far : List Byte) (s : State) : Result :=
  .next (s.command req .attn ctx 0x100 (s.kept .attn ctx 0x100 + 1) far)

/-- `RAKE_CMD` FORK (R253). -/
def execFork (req : Fin 18) (ctx : Fin 16) (s : State) : Result := .next (s.command req .rake ctx 0x118 1)

/-- `BARGE_CTRL.TAB_RELOAD` (R260). -/
def execTabReload (req : Fin 18) (ctx : Fin 16) (s : State) : Result :=
  .next (s.command req .barge ctx 0x100 (s.kept .barge ctx 0x100 + 16))

/-- A write of `BARGE_DOWN_CLR` (R278). -/
def execBargeDownClr (req : Fin 18) (ctx : Fin 16) (bits : BitVec 16) (s : State) : Result :=
  .next (s.command req .barge ctx 0x180 bits.toNat)

/-- `MANI_CMD` CANCEL (R309). -/
def execManiCancel (req : Fin 18) (ctx : Fin 16) (s : State) : Result := .next (s.command req .mani ctx 0x118 1)

/-- `MANI_CMD` DRAFT_SET (R313). -/
def execDraftSet (req : Fin 18) (ctx : Fin 16) (s : State) : Result := .next (s.command req .mani ctx 0x118 2)

/-- A write of `TOLL_P_LEVEL` or `TOLL_D_LEVEL` of the selected tenant (R298). -/
def execTollLevelWrite (req : Fin 18) (ctx : Fin 16) (decode : Bool) (level : Word32) (s : State) : Result :=
  .next (s.command req .toll ctx (if decode then 0x118 else 0x10C) level.toNat)

/-- A write of `LINK_EN` (R341). -/
def execLinkEnWrite (req : Fin 18) (inst : Fin 2) (value : BitVec 16) (s : State) : Result :=
  .next (s.command req .link inst 0x108 value.toNat)

/-- `LOCK_CMD` LOAD; `far` is the image that the DMA reads (R359). -/
def execLockLoad (req : Fin 18) (far : List Byte) (s : State) : Result := .next (s.command req .lock 0 0x108 1 far)

/-- `LOCK_CMD` ISOLATE (R362). -/
def execIsolate (req : Fin 18) (s : State) : Result := .next (s.command req .lock 0 0x108 2)

/-- `MSF_CTRL.IMP_RELOAD` (R370). -/
def execImpReload (req : Fin 18) (ctx : Fin 16) (far : List Byte) (s : State) : Result :=
  .next (s.command req .msf ctx 0x100 (s.kept .msf ctx 0x100 + 2) far)

/-- `MSF_EXP_CMD` SET (R369). -/
def execMsfExpSet (req : Fin 18) (ctx : Fin 16) (s : State) : Result := .next (s.command req .msf ctx 0x134 1)

/-- `MSF_EXP_CMD` CLEAR (R369). -/
def execMsfExpClear (req : Fin 18) (ctx : Fin 16) (s : State) : Result := .next (s.command req .msf ctx 0x134 2)

/-- `WHARF_CTRL.RETRAIN` (R400). -/
def execRetrain (req : Fin 18) (s : State) : Result :=
  .next (s.command req .wharf 0 0x100 (s.kept .wharf 0 0x100 + 4))

/-- A write of `WHARF_LD_EN` (R395). -/
def execWharfLdEnWrite (req : Fin 18) (en : BitVec 16) (s : State) : Result :=
  .next (s.command req .wharf 0 0x108 en.toNat)

/-- A write of `LD_CTRL.RINGS_EN` (R413). -/
def execRingsEnWrite (req : Fin 18) (ld : Fin 16) (enabled : Bool) (s : State) : Result :=
  .next (s.command req .ld ld 0x100 (b2n enabled))

/-- `CTX_CMD` ENABLE (R417). -/
def execEnable (req : Fin 18) (ctx : Fin 16) (s : State) : Result := .next (s.command req .ctx ctx 0x100 1)

/-- `CTX_CMD` QUIESCE (R416). -/
def execQuiesce (req : Fin 18) (ctx : Fin 16) (s : State) : Result := .next (s.command req .ctx ctx 0x100 2)

/-- `CTX_CMD` RESUME (R417). -/
def execCtxResume (req : Fin 18) (ctx : Fin 16) (s : State) : Result := .next (s.command req .ctx ctx 0x100 3)

/-- `CTX_CMD` DISABLE (R417). -/
def execDisable (req : Fin 18) (ctx : Fin 16) (s : State) : Result := .next (s.command req .ctx ctx 0x100 4)

/-- `CTX_CMD` SET_CORES (R417). -/
def execSetCores (req : Fin 18) (ctx : Fin 16) (s : State) : Result := .next (s.command req .ctx ctx 0x100 5)

/-- `CTX_ACCT_CTRL.SNAP` (R422). -/
def execSnap (req : Fin 18) (ctx : Fin 16) (s : State) : Result := .next (s.command req .ctx ctx 0x118 1)

/-- A write of `DUTY_ANS_TAIL`; `far` holds the answers in the ring (R427). -/
def execDutyAnsTailWrite (req : Fin 18) (ctx : Fin 16) (tail : Word32) (far : List Byte) (s : State) : Result :=
  .next (s.command req .duty ctx 0x124 tail.toNat far)

/-- A write of `CTRL.DUTY_MODE` on the page of a duty (R423, R521). -/
def execDutyModeWrite (req : Fin 18) (duty : Fin 7) (inst : Fin 16) (assisted : Bool) (s : State) : Result :=
  .next (s.command req (dutyPage (duty.val + 1)) (if duty.val = 5 then 0 else inst) 0x008 (2 * b2n assisted))

/-- A write of `PWR_CAP` (R439). -/
def execPwrCapWrite (req : Fin 18) (cap : BitVec 12) (s : State) : Result :=
  .next (s.command req .pwr 0 0x100 cap.toNat)

/-- `GAUGE_CTRL.FREEZE` (R460). -/
def execGaugeFreeze (req : Fin 18) (die : Fin 8) (frozen : Bool) (s : State) : Result :=
  .next (s.command req .gauge die 0x100 (withBit (s.kept .gauge die 0x100) 0 frozen))

/-- `GAUGE_CTRL.SNAP` (R461). -/
def execGaugeSnap (req : Fin 18) (die : Fin 8) (s : State) : Result :=
  .next (s.command req .gauge die 0x100 (withBit (s.kept .gauge die 0x100) 1 true))

/-- `GAUGE_MCTRL.FREEZE` (R460). -/
def execGaugeMfreeze (req : Fin 18) (frozen : Bool) (s : State) : Result :=
  .next (s.command req .gaugeM 0 0x100 (withBit (s.kept .gaugeM 0 0x100) 0 frozen))

/-- `GAUGE_MCTRL.SNAP` (R461). -/
def execGaugeMsnap (req : Fin 18) (s : State) : Result :=
  .next (s.command req .gaugeM 0 0x100 (withBit (s.kept .gaugeM 0 0x100) 1 true))

/-- `GAUGE_MCTRL.FREEZE_ALL` (R460). -/
def execFreezeAll (req : Fin 18) (frozen : Bool) (s : State) : Result :=
  .next (s.command req .gaugeM 0 0x100 (withBit (s.kept .gaugeM 0 0x100) 2 frozen))

/-- `GAUGE_MCTRL.SNAP_ALL` (R461). -/
def execSnapAll (req : Fin 18) (s : State) : Result :=
  .next (s.command req .gaugeM 0 0x100 (withBit (s.kept .gaugeM 0 0x100) 3 true))

/-- A write of `GAUGE_CLR` (R462). -/
def execGaugeClr (req : Fin 18) (die : Fin 8) (bits : BitVec 16) (all : Bool) (s : State) : Result :=
  .next (s.command req .gauge die 0x184 (bits.toNat + 2 ^ 16 * b2n all))

/-- A write of `GAUGE_MCLR`, whose halves act alone (R462). -/
def execGaugeMclr (req : Fin 18) (bits : BitVec 64) (s : State) : Result :=
  .next ((s.command req .gaugeM 0 0x118 (bits.toNat % 2 ^ 32)).command req .gaugeM 0 0x11C (bits.toNat / 2 ^ 32))

/-- A write of `GAUGE_SEL_ALL` (R457). -/
def execGaugeSelAll (req : Fin 18) (die : Fin 8) (event : BitVec 8) (index : Fin 8) (s : State) : Result :=
  .next (s.command req .gauge die 0x10C (event.toNat + 2 ^ 8 * index.val))

/-- `SEC_CMD` SUBMIT; `far` is the token that the DMA reads (R482). -/
def execSubmit (req : Fin 18) (far : List Byte) (s : State) : Result := .next (s.command req .sec 0 0x138 1 far)

/-- `SEC_CMD` PUBKEY (R491). -/
def execPubkey (req : Fin 18) (s : State) : Result := .next (s.command req .sec 0 0x138 2)

/-- `SEC_CMD` CERT_WRITE; `far` is the chain that the DMA reads (R476). -/
def execCertWrite (req : Fin 18) (far : List Byte) (s : State) : Result := .next (s.command req .sec 0 0x138 3 far)

/-- A write of `DBG_CLOSE` (R486). -/
def execDbgClose (req : Fin 18) (s : State) : Result := .next (s.command req .dbg 0 0x108 1)

/-- `DBG_CORE_CMD` HALT on the selected core (R488). -/
def execDbgHalt (req : Fin 18) (s : State) : Result := .next (s.command req .dbg 0 0x110 1)

/-- `DBG_CORE_CMD` RESUME on the selected core (R488). -/
def execDbgResume (req : Fin 18) (s : State) : Result := .next (s.command req .dbg 0 0x110 2)

/-- `DBG_CORE_CMD` STEP on the selected core (R488). -/
def execDbgStep (req : Fin 18) (s : State) : Result := .next (s.command req .dbg 0 0x110 3)

/-- Both halves of `DBG_REG_DATA`, low first (R488, R533). -/
def execDbgRegDataAccess (req : Fin 18) (write : Bool) (data : BitVec 64) (s : State) : Result :=
  .next (if write then
    (s.command req .dbg 0 0x120 (data.toNat % 2 ^ 32)).command req .dbg 0 0x124 (data.toNat / 2 ^ 32)
  else (s.inquire req (pageBase .dbg 0 + 0x120)).inquire req (pageBase .dbg 0 + 0x124))

/-- `DBG_MEM_CMD` READ (R485). -/
def execDbgMemRead (req : Fin 18) (ecc : Ecc) (s : State) : Result := .next (s.command req .dbg 0 0x138 1 [] ecc)

/-- `DBG_MEM_CMD` WRITE (R485). -/
def execDbgMemWrite (req : Fin 18) (ecc : Ecc) (s : State) : Result := .next (s.command req .dbg 0 0x138 2 [] ecc)

/-- `BIST_CMD` START (R494). -/
def execBistStart (req : Fin 18) (s : State) : Result := .next (s.command req .bist 0 0x100 1)

/-- `BIST_CMD` ABORT (R495). -/
def execBistAbort (req : Fin 18) (s : State) : Result := .next (s.command req .bist 0 0x100 2)

/-- `LOOP_CMD` START (R500). -/
def execLoopStart (req : Fin 18) (s : State) : Result := .next (s.command req .loop 0 0x104 1)

/-- `LOOP_CMD` STOP (R504). -/
def execLoopStop (req : Fin 18) (s : State) : Result := .next (s.command req .loop 0 0x104 2)

/-- `FAULT_CTRL.CLEAR` (R512). -/
def execFaultCtrlClear (req : Fin 18) (s : State) : Result := .next (s.command req .fault 0 0x100 1)

/-- `CTRL.CFG_LOCK` of the page numbered in the map (R522); its DUTY_MODE stays. -/
def execCfgLockSet (req : Fin 18) (page : BitVec 13) (s : State) : Result :=
  .next (s.access req (pageAddr page + 0x008) (withBit (s.pageCtrl page) 2 true) [] .ok)

/-- A write of `EVENT_FORCE` (R524). -/
def execEventForce (req : Fin 18) (page : BitVec 13) (bits : BitVec 6) (s : State) : Result :=
  .next (s.access req (pageAddr page + 0x018) bits.toNat [] .ok)

/-- A read of `ERRLOG_ADDR` (R525). -/
def execErrlogAddrRead (req : Fin 18) (page : BitVec 13) (s : State) : Result :=
  .next (s.inquire req (pageAddr page + 0x01C))

/-- A read of `ERRLOG_INFO` (R525). -/
def execErrlogInfoRead (req : Fin 18) (page : BitVec 13) (s : State) : Result :=
  .next (s.inquire req (pageAddr page + 0x020))

/-- A read at an address of the requester's window; of a 64-bit register's low half it latches the high half (R8,
R533). -/
def execReg64LowHalfRead (req : Fin 18) (addr : BitVec 25) (s : State) : Result :=
  .next (s.inquireLocal req addr.toNat)

/-- A read at an address of the requester's window; RC fields return to 0 (R3). -/
def execRcRegisterRead (req : Fin 18) (addr : BitVec 25) (s : State) : Result := .next (s.readWindow req addr.toNat)

/-- A write of 32 bits at an address of the requester's window (R3-R6, R397). -/
def execRegisterWrite (req : Fin 18) (addr : BitVec 25) (value : Word32) (be : BitVec 4) (far : List Byte)
    (ecc : Ecc) (s : State) : Result := .next (s.writeWindow req addr.toNat value.toNat be.toNat far ecc)

/-- `DBG_ACCESS` (R487): [31:0] data, [63:32] address in the page map, [64] write. With none of its scopes open the
port passes the bits as BYPASS does. -/
def execDbgAccess (word : BitVec 72) (s : State) : Result :=
  .next (if s.jtagOpen then s.dbgAccess (word.toNat % 2 ^ 32) (field word.toNat 32 32) (bit word.toNat 64)
  else s.bypass ((List.range 72).map fun k => bit word.toNat k))

end Sys2Proof.Machine
end

