-- ==== Sys2Proof/Machine/SSlot.lean ====
section
/-! DEFINITION. Machine/SSlot.lean: the S-slot operations (R83-R85, R98, R374, R464; 03_suina_core.md): each takes the
bundle that holds it. -/
namespace Sys2Proof.Machine

/-- `ADD` (R85). -/
def execAdd (core : Fin 512) (rd rs1 rs2 rs3 : BitVec 5) (w : Bundle) (s : State) : Result :=
  .next (s.bundle core (withS w (.r .add rd rs1 rs2 rs3)))

/-- `SUB` (R85). -/
def execSub (core : Fin 512) (rd rs1 rs2 rs3 : BitVec 5) (w : Bundle) (s : State) : Result :=
  .next (s.bundle core (withS w (.r .sub rd rs1 rs2 rs3)))

/-- `MUL` (R85). -/
def execMul (core : Fin 512) (rd rs1 rs2 rs3 : BitVec 5) (w : Bundle) (s : State) : Result :=
  .next (s.bundle core (withS w (.r .mul rd rs1 rs2 rs3)))

/-- `MULH` (R85). -/
def execMulh (core : Fin 512) (rd rs1 rs2 rs3 : BitVec 5) (w : Bundle) (s : State) : Result :=
  .next (s.bundle core (withS w (.r .mulh rd rs1 rs2 rs3)))

/-- `MULHU` (R85). -/
def execMulhu (core : Fin 512) (rd rs1 rs2 rs3 : BitVec 5) (w : Bundle) (s : State) : Result :=
  .next (s.bundle core (withS w (.r .mulhu rd rs1 rs2 rs3)))

/-- `DIV` (R83). -/
def execDiv (core : Fin 512) (rd rs1 rs2 rs3 : BitVec 5) (w : Bundle) (s : State) : Result :=
  .next (s.bundle core (withS w (.r .div rd rs1 rs2 rs3)))

/-- `DIVU` (R83). -/
def execDivu (core : Fin 512) (rd rs1 rs2 rs3 : BitVec 5) (w : Bundle) (s : State) : Result :=
  .next (s.bundle core (withS w (.r .divu rd rs1 rs2 rs3)))

/-- `REM` (R85). -/
def execRem (core : Fin 512) (rd rs1 rs2 rs3 : BitVec 5) (w : Bundle) (s : State) : Result :=
  .next (s.bundle core (withS w (.r .rem rd rs1 rs2 rs3)))

/-- `REMU` (R85). -/
def execRemu (core : Fin 512) (rd rs1 rs2 rs3 : BitVec 5) (w : Bundle) (s : State) : Result :=
  .next (s.bundle core (withS w (.r .remu rd rs1 rs2 rs3)))

/-- `AND_OR_XOR` (R85). -/
def execAndOrXor (core : Fin 512) (k : Fin 3) (rd rs1 rs2 rs3 : BitVec 5) (w : Bundle) (s : State) : Result :=
  .next (s.bundle core (withS w (.r (match k with | 0 => .and | 1 => .or | 2 => .xor) rd rs1 rs2 rs3)))

/-- `SLL_SRL_SRA` (R85). -/
def execSllSrlSra (core : Fin 512) (k : Fin 3) (rd rs1 rs2 rs3 : BitVec 5) (w : Bundle) (s : State) : Result :=
  .next (s.bundle core (withS w (.r (match k with | 0 => .sll | 1 => .srl | 2 => .sra) rd rs1 rs2 rs3)))

/-- `SLT_SLTU` (R85). -/
def execSltSltu (core : Fin 512) (k : Fin 2) (rd rs1 rs2 rs3 : BitVec 5) (w : Bundle) (s : State) : Result :=
  .next (s.bundle core (withS w (.r (match k with | 0 => .slt | 1 => .sltu) rd rs1 rs2 rs3)))

/-- `MIN_MAX_MINU_MAXU` (R85). -/
def execMinMaxMinuMaxu (core : Fin 512) (k : Fin 4) (rd rs1 rs2 rs3 : BitVec 5) (w : Bundle) (s : State) : Result :=
  .next (s.bundle core (withS w (.r (match k with | 0 => .min | 1 => .max | 2 => .minu | 3 => .maxu) rd rs1 rs2 rs3)))

/-- `SEL` (R85). -/
def execSel (core : Fin 512) (rd rs1 rs2 rs3 : BitVec 5) (w : Bundle) (s : State) : Result :=
  .next (s.bundle core (withS w (.r .sel rd rs1 rs2 rs3)))

/-- `ADDI` (R85). -/
def execAddi (core : Fin 512) (rd rs1 : BitVec 5) (imm : BitVec 32) (w : Bundle) (s : State) : Result :=
  .next (s.bundle core (withS w (.i .addi rd rs1 imm)))

/-- `ANDI_ORI_XORI` (R85). -/
def execAndiOriXori (core : Fin 512) (k : Fin 3) (rd rs1 : BitVec 5) (imm : BitVec 32)
    (w : Bundle) (s : State) : Result :=
  .next (s.bundle core (withS w (.i (match k with | 0 => .andi | 1 => .ori | 2 => .xori) rd rs1 imm)))

/-- `SLLI_SRLI_SRAI` (R85). -/
def execSlliSrliSrai (core : Fin 512) (k : Fin 3) (rd rs1 : BitVec 5) (imm : BitVec 32)
    (w : Bundle) (s : State) : Result :=
  .next (s.bundle core (withS w (.i (match k with | 0 => .slli | 1 => .srli | 2 => .srai) rd rs1 imm)))

/-- `SLTI` (R85). -/
def execSlti (core : Fin 512) (rd rs1 : BitVec 5) (imm : BitVec 32) (w : Bundle) (s : State) : Result :=
  .next (s.bundle core (withS w (.i .slti rd rs1 imm)))

/-- `LI` (R85). -/
def execLi (core : Fin 512) (rd : BitVec 5) (imm : BitVec 48) (w : Bundle) (s : State) : Result :=
  .next (s.bundle core (withS w (.li rd imm)))

/-- `LIH` (R85). -/
def execLih (core : Fin 512) (rd : BitVec 5) (imm : BitVec 48) (w : Bundle) (s : State) : Result :=
  .next (s.bundle core (withS w (.lih rd imm)))

/-- `FADD_FSUB_FMUL_FDIV` (R85). -/
def execFaddFsubFmulFdiv (core : Fin 512) (k : Fin 4) (rd rs1 rs2 rs3 : BitVec 5) (w : Bundle) (s : State) : Result :=
  .next (s.bundle core (withS w (.r (match k with | 0 => .fadd | 1 => .fsub | 2 => .fmul | 3 => .fdiv) rd rs1 rs2 rs3)))

/-- `FSQRT` (R85). -/
def execFsqrt (core : Fin 512) (rd rs1 rs2 rs3 : BitVec 5) (w : Bundle) (s : State) : Result :=
  .next (s.bundle core (withS w (.r .fsqrt rd rs1 rs2 rs3)))

/-- `FMIN_FMAX` (R85). -/
def execFminFmax (core : Fin 512) (k : Fin 2) (rd rs1 rs2 rs3 : BitVec 5) (w : Bundle) (s : State) : Result :=
  .next (s.bundle core (withS w (.r (match k with | 0 => .fmin | 1 => .fmax) rd rs1 rs2 rs3)))

/-- `FMA` (R85). -/
def execFma (core : Fin 512) (rd rs1 rs2 rs3 : BitVec 5) (w : Bundle) (s : State) : Result :=
  .next (s.bundle core (withS w (.r .fma rd rs1 rs2 rs3)))

/-- `FCVT_IF` (R85). -/
def execFcvtIf (core : Fin 512) (rd rs1 rs2 rs3 : BitVec 5) (w : Bundle) (s : State) : Result :=
  .next (s.bundle core (withS w (.r .fcvtIF rd rs1 rs2 rs3)))

/-- `FCVT_FI` (R85). -/
def execFcvtFi (core : Fin 512) (rd rs1 rs2 rs3 : BitVec 5) (w : Bundle) (s : State) : Result :=
  .next (s.bundle core (withS w (.r .fcvtFI rd rs1 rs2 rs3)))

/-- `FEQ_FLT_FLE` (R85). -/
def execFeqFltFle (core : Fin 512) (k : Fin 3) (rd rs1 rs2 rs3 : BitVec 5) (w : Bundle) (s : State) : Result :=
  .next (s.bundle core (withS w (.r (match k with | 0 => .feq | 1 => .flt | 2 => .fle) rd rs1 rs2 rs3)))

/-- `LDS` (R84). -/
def execLds (core : Fin 512) (rd rs1 : BitVec 5) (size : BitVec 2) (sx : Bool) (off : BitVec 32)
    (w : Bundle) (s : State) : Result :=
  .next (s.bundle core (withS w (.lds rd rs1 size sx off)))

/-- `STS` (R84). -/
def execSts (core : Fin 512) (rs2 rs1 : BitVec 5) (size : BitVec 2) (off : BitVec 32)
    (w : Bundle) (s : State) : Result :=
  .next (s.bundle core (withS w (.sts rs2 rs1 size false off)))

/-- `LDU` (R98). -/
def execLdu (core : Fin 512) (rd rs1 : BitVec 5) (size : BitVec 2) (sx : Bool) (off : BitVec 32)
    (w : Bundle) (s : State) : Result :=
  .next (s.bundle core (withS w (.ldu rd rs1 size sx off)))

/-- `STU` (R98). -/
def execStu (core : Fin 512) (rs2 rs1 : BitVec 5) (size : BitVec 2) (off : BitVec 32)
    (w : Bundle) (s : State) : Result :=
  .next (s.bundle core (withS w (.stu rs2 rs1 size false off)))

/-- `RDGAUGE` (R464). -/
def execRdgauge (core : Fin 512) (rd : BitVec 5) (index : BitVec 8) (w : Bundle) (s : State) : Result :=
  .next (s.bundle core (withS w (.rdgauge rd index)))

/-- `RDTICK` (R85). -/
def execRdtick (core : Fin 512) (rd : BitVec 5) (w : Bundle) (s : State) : Result :=
  .next (s.bundle core (withS w (.rdtick rd 0#5 0#5 0#5)))

/-- `LDN` (R374). -/
def execLdn (core : Fin 512) (rd rs1 : BitVec 5) (size : BitVec 2) (sx : Bool) (off : BitVec 32)
    (w : Bundle) (s : State) : Result :=
  .next (s.bundle core (withS w (.ldn rd rs1 size sx off)))

/-- `STN` (R374). -/
def execStn (core : Fin 512) (rs2 rs1 : BitVec 5) (size : BitVec 2) (off : BitVec 32)
    (w : Bundle) (s : State) : Result :=
  .next (s.bundle core (withS w (.stn rs2 rs1 size false off)))

/-- `AMO` (R374). -/
def execAmo (core : Fin 512) (rd rs1 rs2 rs3 : BitVec 5) (aop : AOp) (ret : Bool) (w : Bundle) (s : State) : Result :=
  .next (s.bundle core (withS w (.amo rd rs1 rs2 rs3 aop ret)))

/-- `IFLUSH` (R85). -/
def execIflush (core : Fin 512) (w : Bundle) (s : State) : Result :=
  .next (s.bundle core (withS w (.iflush 0#5 0#5 0#5 0#5)))

/-- `DINV` (R98). -/
def execDinv (core : Fin 512) (rs1 rs2 : BitVec 5) (w : Bundle) (s : State) : Result :=
  .next (s.bundle core (withS w (.dinv 0#5 rs1 rs2)))

/-- `RDTAG` (R90). -/
def execRdtag (core : Fin 512) (rd : BitVec 5) (imm : BitVec 32) (w : Bundle) (s : State) : Result :=
  .next (s.bundle core (withS w (.rdtag rd 0#5 imm)))

end Sys2Proof.Machine
end

