-- ==== Sys2Proof/Machine/VSlot.lean ====
section
/-! DEFINITION. Machine/VSlot.lean: the V-slot operations (R87, R88; 03_suina_core.md), in V0 or V1. -/
namespace Sys2Proof.Machine

/-- `VADD_VSUB_VMUL` (R88). -/
def execVaddVsubVmul (core : Fin 512) (slot : Fin 2) (k : Fin 3) (f : VFields) (w : Bundle) (s : State) : Result :=
  .next (s.bundle core (withV w slot (match k with | 0 => .vadd | 1 => .vsub | 2 => .vmul) f))

/-- `VFMA` (R88). -/
def execVfma (core : Fin 512) (slot : Fin 2) (f : VFields) (w : Bundle) (s : State) : Result :=
  .next (s.bundle core (withV w slot .vfma f))

/-- `VMIN_VMAX` (R88). -/
def execVminVmax (core : Fin 512) (slot : Fin 2) (k : Fin 2) (f : VFields) (w : Bundle) (s : State) : Result :=
  .next (s.bundle core (withV w slot (match k with | 0 => .vmin | 1 => .vmax) f))

/-- `VABS_VNEG` (R88). -/
def execVabsVneg (core : Fin 512) (slot : Fin 2) (k : Fin 2) (f : VFields) (w : Bundle) (s : State) : Result :=
  .next (s.bundle core (withV w slot (match k with | 0 => .vabs | 1 => .vneg) f))

/-- `VAND_VOR_VXOR` (R88). -/
def execVandVorVxor (core : Fin 512) (slot : Fin 2) (k : Fin 3) (f : VFields) (w : Bundle) (s : State) : Result :=
  .next (s.bundle core (withV w slot (match k with | 0 => .vand | 1 => .vor | 2 => .vxor) f))

/-- `VSHL_VSRA_VSRL` (R88). -/
def execVshlVsraVsrl (core : Fin 512) (slot : Fin 2) (k : Fin 3) (f : VFields) (w : Bundle) (s : State) : Result :=
  .next (s.bundle core (withV w slot (match k with | 0 => .vshl | 1 => .vsra | 2 => .vsrl) f))

/-- `VEXP` (R88). -/
def execVexp (core : Fin 512) (slot : Fin 2) (f : VFields) (w : Bundle) (s : State) : Result :=
  .next (s.bundle core (withV w slot .vexp f))

/-- `VRCP` (R88). -/
def execVrcp (core : Fin 512) (slot : Fin 2) (f : VFields) (w : Bundle) (s : State) : Result :=
  .next (s.bundle core (withV w slot .vrcp f))

/-- `VRSQRT` (R88). -/
def execVrsqrt (core : Fin 512) (slot : Fin 2) (f : VFields) (w : Bundle) (s : State) : Result :=
  .next (s.bundle core (withV w slot .vrsqrt f))

/-- `VCVT` (R88). -/
def execVcvt (core : Fin 512) (slot : Fin 2) (f : VFields) (w : Bundle) (s : State) : Result :=
  .next (s.bundle core (withV w slot .vcvt f))

/-- `VCEQ_VCLT_VCLE` (R88). -/
def execVceqVcltVcle (core : Fin 512) (slot : Fin 2) (k : Fin 3) (f : VFields) (w : Bundle) (s : State) : Result :=
  .next (s.bundle core (withV w slot (match k with | 0 => .vceq | 1 => .vclt | 2 => .vcle) f))

/-- `VPERM` (R88). -/
def execVperm (core : Fin 512) (slot : Fin 2) (f : VFields) (w : Bundle) (s : State) : Result :=
  .next (s.bundle core (withV w slot .vperm f))

/-- `VBCAST` (R88). -/
def execVbcast (core : Fin 512) (slot : Fin 2) (f : VFields) (w : Bundle) (s : State) : Result :=
  .next (s.bundle core (withV w slot .vbcast f))

/-- `VSEL` (R88). -/
def execVsel (core : Fin 512) (slot : Fin 2) (f : VFields) (w : Bundle) (s : State) : Result :=
  .next (s.bundle core (withV w slot .vsel f))

/-- `VMOV` (R88). -/
def execVmov (core : Fin 512) (slot : Fin 2) (f : VFields) (w : Bundle) (s : State) : Result :=
  .next (s.bundle core (withV w slot .vmov f))

/-- `VRSUM_VRMAX_VRMIN` (R88). -/
def execVrsumVrmaxVrmin (core : Fin 512) (slot : Fin 2) (k : Fin 3) (f : VFields) (w : Bundle) (s : State) : Result :=
  .next (s.bundle core (withV w slot (match k with | 0 => .vrsum | 1 => .vrmax | 2 => .vrmin) f))

/-- `VLD` (R88). -/
def execVld (core : Fin 512) (slot : Fin 2) (f : VFields) (w : Bundle) (s : State) : Result :=
  .next (s.bundle core (withV w slot .vld f))

/-- `VST` (R88). -/
def execVst (core : Fin 512) (slot : Fin 2) (f : VFields) (w : Bundle) (s : State) : Result :=
  .next (s.bundle core (withV w slot .vst f))

/-- `MAND_MOR_MXOR_MNOT` (R88). -/
def execMandMorMxorMnot (core : Fin 512) (slot : Fin 2) (k : Fin 4) (f : VFields) (w : Bundle) (s : State) : Result :=
  .next (s.bundle core (withV w slot (match k with | 0 => .mand | 1 => .mor | 2 => .mxor | 3 => .mnot) f))

end Sys2Proof.Machine
end

