-- ==== Sys2Proof/Machine/Weir.lean ====
section
/-! DEFINITION. Machine/Weir.lean: the control tick, the power samples, the thermal samples and the limits
(R431-R451; 17_weir_power_and_thermal.md). -/
namespace Sys2Proof.Machine

/-- The cut of R436 to a limit `l`, in 0.1 W: N of a die with `i` cycles issued per window, in 1/65536. `p` and `m`
are G × Pest and its matrix part, in mW/16384. -/
def weirCut (p m l i : Nat) : Nat :=
  let d := p - l * (100 * 16384)
  if m ≤ d then 1 else max 1 (i * (m - d) / (65536 * m))

/-- Nc[d] (R436). -/
def State.ceilingOf (s : State) (d : Nat) : Nat :=
  let g := if s.on R.WEIR_STATUS.CURRENT_HOLD then tget 64 s.weir.ceiling d else 64
  let h := if s.hostAssisted .weir 0 then s.fld R.WEIR_DIE.NH 0 d else 64
  min (s.fld R.WEIR_DIE.NT 0 d) (min g h)

/-- N of a die before its ceiling, and the boost that the tick takes away (R436). -/
def State.tickN (s : State) (p m l i d : Nat) (boost : Bool) : Nat :=
  let lim := l * (100 * 16384)
  if lim < p then (if boost then s.weirN d else weirCut p m l i)
  else if p + s.fld R.WEIR_CTRL.HYST * (1000 * 16384) < lim then s.weirN d + 1
  else s.weirN d

/-- The throttle reasons active in a tick (R450): `cuts` says that D > 0 or some N is below its ceiling. -/
def State.reasonsNow (s : State) (governs : Nat) (cuts : Bool) : Nat :=
  bitMap 5 fun r =>
    match r with
    | 0 => bit governs 0 && cuts
    | 1 => bit governs 1 && cuts
    | 2 => ((List.range 8).any fun d => decide (s.fld R.WEIR_DIE.NT 0 d < 64)) || (bit governs 2 && cuts)
    | 3 => s.on R.WEIR_STATUS.CURRENT_HOLD
    | _ => s.on R.PWR_STATUS.DIVERGED

/-- Counts FLOOR: `PWR_CAP_UNMET` for each 100 ms, and its event at most once per 100 ms (R437). -/
def State.countFloor (s : State) (on : Bool) (l p : Nat) : State :=
  let s := (s.put R.WEIR_STATUS.FLOOR 0 (b2n on)).put R.PWR_STATUS.FLOOR 0 (b2n on)
  if !on then s
  else
    let s := s.raiseOnce (toldKey 0x1601 0) (100 * msTicks) pwrUnit none 0x1601 (w4 [l, p])
    let n := s.weir.floorTicks + 1
    let s := { s with weir := { s.weir with floorTicks := n % 10000 } }
    if n = 10000 then s.bump R.PWR_CAP_UNMET.COUNT 0 else s

/-- N, I and Nalert of a die for a tick (R436, R442). -/
def State.tickDie (s : State) (p m l alertL i d : Nat) (boost : Bool) : State :=
  let n := max 1 (min (s.tickN p m l i d boost) (s.ceilingOf d))
  let a := if limScaled alertL < p then weirCut p m alertL i else 64
  let s := (s.setFld R.WEIR_DIE.N 0 d n).setFld R.WEIR_DIE.I 0 d (min 64 (i / 65536))
  { s with weir := { s.weir with alert := tset 0 s.weir.alert d (a + 1) } }

/-- The estimate, the limit and the reasons of a tick, and FLOOR (R437, R450). -/
def State.tickReport (s : State) (pe p l governs : Nat) : State :=
  let above := decide (limScaled l < p)
  let cuts := above || (List.range 8).any fun d => decide (s.weirN d < s.ceilingOf d)
  let floor := above && (List.range 8).all fun d => decide (s.weirN d = 1)
  let s := (s.put R.PWR_LIMIT.L 0 (l / 10)).put R.PWR_STATUS.REASONS 0 (s.reasonsNow governs cuts)
  let s := s.put R.PWR_MEAS.EST 0 (min 65535 (pe / (16384 * 1000)))
  s.countFloor floor (l / 10) (p / (16384 * 1000))

/-- Adds the tick to `PWR_THR_TIME` of each active reason while a die runs slower than it might (R450). -/
def State.tickTimes (s : State) : State :=
  let boost := s.on R.CLK_CTRL.BOOST_EN && !s.on R.CLK_CTRL.FIXED_FREQ
  let slow := (List.range 8).any fun d => decide (s.weirN d < 64) || (boost && !bit (s.fld R.CLK_STATUS.BOOST_ACTIVE) d)
  if slow then (bitsSet (s.fld R.PWR_STATUS.REASONS) 5).foldl (fun s r => s.bumpAt R.PWR_THR_TIME.COUNT 0 r) s else s

/-- Records what a tick brings. -/
def Weir.tick (w : Weir) (l governs pest matrix : Nat) : Weir :=
  { w with lim := l, governs := governs, pest := pest, matrix := matrix, gainRaw := w.gainRaw + pest }

/-- One control tick (R435, R436, R450). -/
def State.weirTick (s : State) (pest matrix : Nat) (issued : List Nat) : State :=
  let g := s.fld R.PWR_GAIN.G
  let lim := s.nextLimit
  let p := s.tickPower (g * pest)
  let boost := s.on R.CLK_STATUS.BOOST_ACTIVE
  let alertL := min lim.1 (10 * s.fld R.PWR_ALERT_CAP.CAP)
  let s := { s with weir := s.weir.tick lim.1 lim.2 pest matrix }
  let s := if limScaled lim.1 < p then s.revokeBoost else s
  let s := (List.range 8).foldl (fun s d => s.tickDie p (g * matrix) lim.1 alertL (issued[d]?.getD 0) d boost) s
  let s := (s.tickReport (g * pest) p lim.1 lim.2).checkBoost
  (s.put R.CLK_STATUS.FIXED_ACTIVE 0 (s.fld R.CLK_CTRL.FIXED_FREQ)).tickTimes

/-- The 10 µs control tick (R436, R497). `pest` and `matrix` are the raw estimate and its matrix part in mW, `issued` the
cycles issued per window on each die in units of 1/65536. While a halt or a trip holds every N at 1 the loop stands. -/
def execControlTick (pest matrix : Nat) (issued : List Nat) (s : State) : Result :=
  .next (if s.mainRuns && !s.haltBegun then (s.weirTick pest matrix issued).bistCap else s)

/-- Enters and leaves DIVERGED by the runs of samples (R434). `est` and `meas` are in mW. -/
def State.judgeSample (s : State) (est meas : Nat) : State :=
  let diff := est - meas + (meas - est)
  let outside := decide (3000000 < meas)
  let bad := outside || decide (meas < 4 * diff)
  let good := !outside && decide (5 * diff ≤ meas)
  let s := { s with weir := { s.weir with
    bad := if bad then s.weir.bad + 1 else 0
    good := if good then s.weir.good + 1 else 0 } }
  if !s.on R.PWR_STATUS.DIVERGED && decide (100 < s.weir.bad) then
    let s := (s.put R.PWR_STATUS.DIVERGED 0 1).bump R.PWR_DIVERGES.COUNT 0
    s.raise pwrUnit none 0x2601 (w4 [est / 1000, meas / 1000])
  else if s.on R.PWR_STATUS.DIVERGED && decide (100 ≤ s.weir.good) then
    (s.put R.PWR_STATUS.DIVERGED 0 0).raise pwrUnit none 0x0601 (w4 [s.fld R.PWR_GAIN.G])
  else s

/-- Gives a context its energy, in µJ (R421, R449). -/
def State.ctxEnergy (s : State) (c uj : Nat) : State :=
  let u := unitsOf (s.ctx c).remEnergy uj 1000
  (s.modCtx c fun x => { x with remEnergy := u.2 }).bump R.CTX_ACCT_ENERGY.COUNT c u.1

/-- Attributes a sample's energy (R449): `shares` is the energy that steps 1-3 give each context and `other` what they
give to no context; the remainder follows in the same proportion. What the division leaves goes to unattributed. -/
def State.attribute (s : State) (uj : Nat) (shares : List (Nat × Nat)) (other : Nat) : State :=
  let total := shares.foldl (fun n e => n + e.2) other
  let given := shares.map fun e => (e.1 % 16, if total = 0 then 0 else uj * e.2 / total)
  let s := given.foldl (fun s e => s.ctxEnergy e.1 e.2) s
  let rest := uj - given.foldl (fun n e => n + e.2) 0
  let a := unitsOf s.weir.remEnergy uj 1000
  let b := unitsOf s.weir.remUnattr rest 1000
  let s := (s.bump R.PWR_ENERGY.COUNT 0 a.1).bump R.PWR_ENERGY_UNATTR.COUNT 0 b.1
  { s with weir := { s.weir with remEnergy := a.2, remUnattr := b.2 } }

/-- The 1 ms power sample (R433, R434, R437, R449): input voltage in mV and current in 10 mA, each averaged, and the
activity energies of steps 1-3 of R449. -/
def execPowerSample (mv ma10 : Nat) (shares : List (Nat × Nat)) (other : Nat) (s : State) : Result :=
  if s.mainRuns then
    let meas := mv * ma10 / 100
    let est := s.fld R.PWR_GAIN.G * s.weir.pest / 16384
    let s := (s.put R.PWR_VIN.VIN 0 (min 65535 mv)).put R.PWR_VIN.IIN 0 (min 65535 ma10)
    let s := s.put R.PWR_MEAS.MEAS 0 (min 65535 (meas / 1000))
    let s := s.judgeSample est meas
    let s := if s.weir.lim * 100 < meas then s.bump R.PWR_OVER_CAP.COUNT 0 else s
    let s := { s with weir := { s.weir with gainMeas := s.weir.gainMeas + 100 * meas } }
    .next (s.attribute (if s.on R.PWR_STATUS.DIVERGED then max est meas else meas) shares other)
  else .next s

/-- Every 100 ms: G becomes the ratio of measured to raw estimated energy, moved by at most a tenth and kept within
0.5 and 2.0; it stays while DIVERGED (R433, R434). The quotient is rounded down (log entry 13). -/
def execGainUpdate (s : State) : Result :=
  if s.mainRuns then
    let g := s.fld R.PWR_GAIN.G
    let raw := s.weir.gainRaw
    let want := 16384 * s.weir.gainMeas / raw
    let near := max (g - g / 10) (min (g + g / 10) want)
    let s' := { s with weir := { s.weir with gainRaw := 0, gainMeas := 0 } }
    .next (if raw = 0 ∨ s.on R.PWR_STATUS.DIVERGED = true then s' else s'.put R.PWR_GAIN.G 0 (max 8192 (min 32768 near)))
  else .next s

/-- The current guard acts on a 10 µs average above 2,400 W (R438). -/
def execCurrentGuardTrip (avg : Nat) (s : State) : Result :=
  if s.mainRuns && decide (2400 < avg) then
    let s := (List.range 8).foldl (fun s d =>
      let n := max 1 (s.weirN d / 2)
      let s := s.setFld R.WEIR_DIE.N 0 d n
      { s with weir := { s.weir with ceiling := tset 64 s.weir.ceiling d n } }) s
    let s := (s.revokeBoost.put R.WEIR_STATUS.CURRENT_HOLD 0 1).bump R.PWR_CURRENT_EVENTS.COUNT 0
    .next (s.raiseOnce (toldKey 0x1602 0) msTicks pwrUnit none 0x1602 (w4 [avg]))
  else .next s

/-- 100 µs after the guard's last action the ceiling no longer applies (R438). -/
def execCurrentHoldEnd (s : State) : Result :=
  .next (({ s with weir := { s.weir with ceiling := [] } } : State).put R.WEIR_STATUS.CURRENT_HOLD 0 0)

/-- No heartbeat for the orphan timeout: an armed module enters ORPHAN (R441). -/
def execOrphanTimeout (s : State) : Result :=
  if s.weir.armed && s.on R.PWR_ORPHAN.EN && !s.on R.PWR_STATUS.ORPHAN && s.board.mgmtUp then
    .next ((s.put R.PWR_STATUS.ORPHAN 0 1).raise pwrUnit none 0x1603 (w4 [s.fld R.PWR_ORPHAN.CAP]))
  else .next s

/-! ### Temperature -/

/-- What a group asks of NT: `fall` at or above its throttle point, a rise below `cool`, neither between (R443).
Readings are in 0.125 °C; the answer is the fall, and whether the group is in its rise region. -/
def groupAsks (hot throttle cool : Int) (fall : Nat) : Nat × Bool :=
  if throttle ≤ hot then (fall, false) else (0, decide (hot < cool))

/-- The hottest of some readings. -/
def hottest (l : List Int) : Int :=
  match l with
  | [] => 0
  | t :: ts => ts.foldl max t

/-- NT of a die after a sample (R443). -/
def State.nextNT (s : State) (die : Int) (hbms iods : List Int) (d : Nat) : Nat :=
  let th : Int := 8 * (s.fld R.THERM_CFG.THROTTLE : Int)
  let asks := [groupAsks die th (th - 16) 4, groupAsks (hottest hbms) 760 744 4, groupAsks (hottest iods) th (th - 16) 1]
  let fall := asks.foldl (fun m a => max m a.1) 0
  let nt := s.fld R.WEIR_DIE.NT 0 d
  if 0 < fall then max 1 (nt - fall) else if asks.all fun a => a.2 then min 64 (nt + 1) else nt

/-- First index whose reading reaches a trip temperature. -/
def tripAt (l : List Int) (limit : Int) : Option Nat := l.findIdx? fun t => decide (limit ≤ t)

/-- The sensor that trips: TRIP_SRC, TRIP_INST and its reading (R443, R445). -/
def tripOf (dies iods hbms oes : List Int) : Option (Nat × Nat × Int) :=
  match tripAt dies 880, tripAt iods 880, tripAt hbms 840, tripAt oes 720 with
  | some i, _, _, _ => some (1, i, dies[i]?.getD 0)
  | _, some i, _, _ => some (2, i, iods[i]?.getD 0)
  | _, _, some i, _ => some (3, i, hbms[i]?.getD 0)
  | _, _, _, some i => some (4, i, oes[i]?.getD 0)
  | _, _, _, _ => none

/-- A thermal trip: the orderly halt of R445 begins. -/
def State.thermalTrip (s : State) (src inst : Nat) (t : Int) : State :=
  let s := (s.put R.THERM_STATUS.TRIP 0 1).put R.THERM_STATUS.TRIP_SRC 0 src
  let s := s.put R.THERM_STATUS.TRIP_INST 0 inst
  let s := s.fatal thermUnit 0x5611 (w4 [src, inst, twos 32 t])
  let s := { s.weirFloor.stopAll with haltBegun := true, board := { s.board with tripHalting := true } }
  (s.bistTrip.loopDone 6).lightsOff

/-- Writes a reading and its peak. -/
def State.heatPeak (s : State) (hot peak : Fd) (i : Nat) (t : Int) : State :=
  let s := s.setFld hot 0 i (twos 12 t)
  if sext 12 (s.fld peak 0 i) < t then s.setFld peak 0 i (twos 12 t) else s

/-- The 100 µs sample of the sensors, in 0.125 °C: the hottest sensor of each compute die and I/O die, the stacks, the
optical engines, and the coolant (R43, R443-R445). -/
def execTempSample (dies iods hbms oes : List Int) (inlet outlet : Int) (s : State) : Result :=
  if !s.board.mgmtUp then .next s
  else
    let on := s.mainRuns
    let s := (List.range 8).foldl (fun s d => s.heatPeak R.THERM_DIE.HOT R.THERM_DIE.PEAK d (dies[d]?.getD 0)) s
    let s := (List.range 2).foldl (fun s d => s.heatPeak R.THERM_IOD.HOT R.THERM_IOD.PEAK d (iods[d]?.getD 0)) s
    let s := (List.range 32).foldl (fun s i => s.setFld R.THERM_HBM.TEMP 0 i (if on then twos 12 (hbms[i]?.getD 0) else 0)) s
    let s := (List.range 16).foldl (fun s i => s.setFld R.THERM_OE.TEMP 0 i (if on then twos 12 (oes[i]?.getD 0) else 0)) s
    let s := (s.put R.THERM_COOLANT.INLET 0 (twos 12 inlet)).put R.THERM_COOLANT.OUTLET 0 (twos 12 outlet)
    let s := { s with board := { s.board with sensorsBelow95 := (dies ++ iods).all fun t => decide (t < 760) } }
    if !on then .next s.tripRelease.tryStart
    else
      let s := if inlet ≤ 8 * (s.fld R.THERM_CFG.INLET_MAX : Int) then s.put R.THERM_STATUS.INLET_HIGH 0 0 else s
      let s := if outlet ≤ 8 * (s.fld R.THERM_OUTLET_MAX.MAX : Int) then s.put R.THERM_STATUS.OUTLET_HIGH 0 0 else s
      let s := (List.range 8).foldl (fun s d =>
        let nt := s.nextNT (dies[d]?.getD 0) ((hbms.drop (4 * d)).take 4) iods d
        let first := decide (nt < 64) && decide (s.fld R.WEIR_DIE.NT 0 d = 64)
        let s := s.setFld R.WEIR_DIE.NT 0 d nt
        if first then s.raiseOnce (toldKey 0x1611 d) (1000 * msTicks) thermUnit none 0x1611
          (w4 [d, twos 32 (dies[d]?.getD 0)]) else s) s
      match tripOf dies iods hbms oes with
      | some (src, inst, t) => .next (if s.on R.THERM_STATUS.TRIP then s else s.thermalTrip src inst t)
      | none => .next s.checkBoost

/-- The trip's halt is complete, or 2 ms have passed: THERM_TRIP_L asserts (R42, R445). -/
def execTripHaltComplete (s : State) : Result :=
  .next (if s.board.tripHalting then { s with board := { s.board with tripHalting := false, thermTrip := true, off100 := false } } else s)

/-- 5 ms after THERM_TRIP_L the main conversion goes off (R42, R445). -/
def execTripPowerOff (s : State) : Result :=
  .next (if s.board.thermTrip && s.board.mainOn then s.mainOff else s)

/-- The inlet has read above INLET_MAX for 1 s (R444). -/
def execCoolantInletHigh (s : State) : Result := .next (s.coolantCondition 3 true)

/-- The outlet has read above THERM_OUTLET_MAX for 1 s (R444). -/
def execCoolantOutletHigh (s : State) : Result := .next (s.coolantCondition 4 true)

/-- 10 s after the last condition cleared, the coolant fault ends (R444). -/
def execCoolantFaultEnd (s : State) : Result :=
  .next (if s.coolantBits = 0 then s.put R.THERM_STATUS.COOLANT 0 0 else s)

/-- The input has stayed below 54 V for 50 µs: SAG (R446). -/
def execInputSag (mv : Nat) (s : State) : Result :=
  if s.mainRuns && !s.on R.PWR_STATUS.SAG then
    let before := s.alertOn
    .next (((s.put R.PWR_STATUS.SAG 0 1).raise pwrUnit none 0x1605 (w4 [mv])).alertDuty before)
  else .next s

/-- 10 ms at or above 54.5 V: SAG ends (R446). -/
def execSagClear (s : State) : Result :=
  let before := s.alertOn
  .next ((s.put R.PWR_STATUS.SAG 0 0).alertDuty before)

/-- Every 100 ms in host-assisted power policy: a duty request (R451). -/
def execPowerPolicyPeriod (s : State) : Result := .next (if s.mainRuns then s.powerDuty 0 else s)

end Sys2Proof.Machine
end

