-- ==== Sys2Proof/Machine/XTransfer.lean ====
section
/-! DEFINITION. Machine/XTransfer.lean: transfers between a core's memories, and the return of its loads (R89-R90,
R98-R102; 03_suina_core.md). -/
namespace Sys2Proof.Machine

/-- Completes a transfer that ended with a non-zero status: its destination bytes are undefined (R90). -/
def State.xferFail (s : State) (n : Nat) (x : XPend) (status : Nat) (toUnified : Bool) : State :=
  let bs := freeBytes s.free x.c
  let s : State := { s with free := s.free + 1 }
  let s := if toUnified then s.rangeWrite (s.ctxOf n) x.a bs x.sel else s.modCore n fun k => k.scrWrite x.b bs
  s.modCore n fun k => k.tagDone x.tag status false

/-- Bytes written into a core's scratchpad through P2 by a transfer, which completes. -/
def State.xferPut (s : State) (n : Nat) (x : XPend) (at_ : Nat) (bs : List Byte) (drop : List Nat) : State :=
  (s.scrPut n 2 at_ bs drop).modCore n fun k => k.tagDone x.tag 0 (decide (lostWords at_ bs.length drop ≠ []))

/-- The place in T1 or T2 of a transfer's first byte that lies there: tier, location, offset. -/
def XPend.nearPlace (x : XPend) : Option (Nat × Nat × Nat) :=
  (((pieces x.a (x.c / 65536 + 2) x.c).zip x.sel).find? fun p => decide (leafTier p.2 < 2)).map
    fun p => (leafTier p.2, leafLoc p.2, p.1.1 % 65536)

/-- A transfer from the unified range completes. -/
def State.xferIn (s : State) (n : Nat) (x : XPend) (data : List Byte) (failed : Bool) (drop : List Nat) (ecc : Ecc) : State :=
  let s := match x.nearPlace with
    | some p => s.lineEcc p.1 p.2.1 p.2.2 ecc
    | none => s
  if x.nearPlace.isSome && isUe ecc then s.xferFail n x 1 false
  else if failed then s.xferFail n x 2 false
  else
    match s.rangeRead (s.ctxOf n) x.a x.c x.sel data with
    | (some bs, s) => s.xferPut n x x.b bs drop
    | (none, s) => s.xferFail n x 2 false

/-- A transfer to the unified range completes. An uncorrectable error in the scratchpad fences the core, and the
transfer goes with it (R171). -/
def State.xferOut (s : State) (n : Nat) (x : XPend) (failed : Bool) (ecc : Ecc) : State :=
  let s := s.scrEcc n ecc
  if isUe ecc then s
  else if failed then s.xferFail n x 2 true
  else
    let s := s.rangeWrite (s.ctxOf n) x.a ((s.core n).scrRead x.b x.c) x.sel
    s.modCore n fun k => k.tagDone x.tag 0 false

/-- A copy within the scratchpad completes. -/
def State.scopyDone (s : State) (n : Nat) (x : XPend) (drop : List Nat) (ecc : Ecc) : State :=
  let s := s.scrEcc n ecc
  if isUe ecc then s else s.xferPut n x x.b ((s.core n).scrRead x.a x.c) drop

/-- Part of a transfer's range is being refilled, so that its access waits (R202). -/
def State.xferHeld (s : State) (n : Nat) (x : XPend) : Bool :=
  (pieces x.a (x.c / 65536 + 2) x.c).any fun p => s.held? (s.ctxOf n) (p.1 / 65536)

/-- The transfer outstanding under a tag, whichever of the two it is. -/
def State.transferComplete (s : State) (n tag : Nat) (data : List Byte) (failed : Bool) (drop : List Nat) (ecc : Ecc) :
    State :=
  match (s.core n).xop tag 0x30, (s.core n).xop tag 0x31 with
  | some x, _ =>
    if s.xferHeld n x then s
    else if x.d = 0 then s.xferIn n x data failed drop ecc else s.xferOut n x failed ecc
  | none, some x => s.scopyDone n x drop ecc
  | none, none => s

/-- `X_XFER` (R89). -/
def execXXfer (core : Fin 512) (tag : BitVec 6) (toUnified : Bool) (rs : BitVec 5) (saddr len : BitVec 14)
    (w : Bundle) (s : State) : Result :=
  .next (s.bundle core (withX w (.xfer tag toUnified rs saddr len)))

/-- `X_SCOPY` (R89). -/
def execXScopy (core : Fin 512) (tag : BitVec 6) (src dst len : BitVec 14) (w : Bundle) (s : State) : Result :=
  .next (s.bundle core (withX w (.scopy tag src dst len)))

/-- A transfer completes (R89, R90). -/
def execTransferComplete (core : Fin 512) (tag : BitVec 6) (data : List Byte) (failed : Bool) (drop : List Nat)
    (ecc : Ecc) (s : State) : Result :=
  .next (s.transferComplete core tag.toNat data failed drop ecc)

/-- The data of an outstanding `LDU` arrive (R98, R101). -/
def execLduDataReturn (core : Fin 512) (rd : BitVec 5) (data : List Byte) (s : State) : Result :=
  .next (s.lduReturn core rd data)

/-- The core enters run-ahead (R99). -/
def execRunaheadEntry (core : Fin 512) (w : Bundle) (s : State) : Result :=
  .next (s.raEnter core w)

/-- Run-ahead stops issuing (R102). -/
def execRunaheadLimit (core : Fin 512) (s : State) : Result :=
  .next (s.raLimit core)

/-- A bundle that uses a reserved encoding, or names one destination twice (R79, R92). -/
def execIllegalBundle (core : Fin 512) (w : Bundle) (s : State) : Result :=
  .next (if illegalBundle w (s.core core) then s.bundle core w else s)

/-- The next bundle's address does not translate for a fetch (R92): the core traps before the bundle `w` is seen. -/
def execFetchXlat (core : Fin 512) (_w : Bundle) (s : State) : Result :=
  .next (if s.executes core && (s.core core).ra.isNone then
    match s.fetch core with
    | (.fail, s') => if (s.core core).pend = [] then s'.except core 1 7 0 else s
    | (_, s') => s'
  else s)

end Sys2Proof.Machine
end

