-- ==== Sys2Proof/Machine/Dispatch.lean ====
section
/-! DEFINITION. Machine/Dispatch.lean: one arm per command. -/
namespace Sys2Proof.Machine

def exec (i : Instr) (s : State) : Host.Outcome State Fault Refusal :=
  match i with
  | .pwrEnAssert => Sys2Proof.Machine.execPwrEnAssert s
  | .pwrEnDeassert => Sys2Proof.Machine.execPwrEnDeassert s
  | .pwrEnOffHoldExpiry => Sys2Proof.Machine.execPwrEnOffHoldExpiry s
  | .mainConversionPermitted => Sys2Proof.Machine.execMainConversionPermitted s
  | .mainConversionForcedOff => Sys2Proof.Machine.execMainConversionForcedOff s
  | .standbyConverterOn => Sys2Proof.Machine.execStandbyConverterOn s
  | .standbyConverterOff => Sys2Proof.Machine.execStandbyConverterOff s
  | .mgmtResetEnd => Sys2Proof.Machine.execMgmtResetEnd s
  | .mcWatchdogExpiry => Sys2Proof.Machine.execMcWatchdogExpiry s
  | .overvoltageShutdown mv ma10 => Sys2Proof.Machine.execOvervoltageShutdown mv ma10 s
  | .overcurrentShutdown mv ma10 => Sys2Proof.Machine.execOvercurrentShutdown mv ma10 s
  | .mainRailsInRegulation => Sys2Proof.Machine.execMainRailsInRegulation s
  | .mainRailOutOfRegulation => Sys2Proof.Machine.execMainRailOutOfRegulation s
  | .pwrGoodHoldElapsed => Sys2Proof.Machine.execPwrGoodHoldElapsed s
  | .perstLAssert => Sys2Proof.Machine.execPerstLAssert s
  | .perstLRelease => Sys2Proof.Machine.execPerstLRelease s
  | .capAlertLAssert => Sys2Proof.Machine.execCapAlertLAssert s
  | .capAlertLRelease => Sys2Proof.Machine.execCapAlertLRelease s
  | .coolantFaultLAssert => Sys2Proof.Machine.execCoolantFaultLAssert s
  | .coolantFaultLRelease => Sys2Proof.Machine.execCoolantFaultLRelease s
  | .elsRemoved e => Sys2Proof.Machine.execElsRemoved e s
  | .elsInserted e => Sys2Proof.Machine.execElsInserted e s
  | .fibreArrayUnmated a => Sys2Proof.Machine.execFibreArrayUnmated a s
  | .i3cEntdaa addr => Sys2Proof.Machine.execI3cEntdaa addr s
  | .setCap watts => Sys2Proof.Machine.execSetCap watts s
  | .setAlertCap watts => Sys2Proof.Machine.execSetAlertCap watts s
  | .heartbeat => Sys2Proof.Machine.execHeartbeat s
  | .setOrphan watts timeout => Sys2Proof.Machine.execSetOrphan watts timeout s
  | .readStatus => Sys2Proof.Machine.execReadStatus s
  | .i3cWake => Sys2Proof.Machine.execI3cWake s
  | .i3cInvalidWrite => Sys2Proof.Machine.execI3cInvalidWrite s
  | .jtagIdcode => Sys2Proof.Machine.execJtagIdcode s
  | .jtagBoundaryScan n => Sys2Proof.Machine.execJtagBoundaryScan n s
  | .jtagBypass bits => Sys2Proof.Machine.execJtagBypass bits s
  | .dbgAccess word => Sys2Proof.Machine.execDbgAccess word s
  | .scanN chain bits => Sys2Proof.Machine.execScanN chain bits s
  | .rootPllLock => Sys2Proof.Machine.execRootPllLock s
  | .sysRefclkLoss => Sys2Proof.Machine.execSysRefclkLoss s
  | .rootPllUnlock => Sys2Proof.Machine.execRootPllUnlock s
  | .boostGrant d => Sys2Proof.Machine.execBoostGrant d s
  | .clkCtrlWrite req value => Sys2Proof.Machine.execClkCtrlWrite req value s
  | .devPwrTargetP0 req autoWake => Sys2Proof.Machine.execDevPwrTargetP0 req autoWake s
  | .devPwrTargetP1 req autoWake => Sys2Proof.Machine.execDevPwrTargetP1 req autoWake s
  | .devPwrTargetP2 req autoWake => Sys2Proof.Machine.execDevPwrTargetP2 req autoWake s
  | .devPwrTargetP3 req autoWake => Sys2Proof.Machine.execDevPwrTargetP3 req autoWake s
  | .p1Entry => Sys2Proof.Machine.execP1Entry s
  | .powerTransitionDone => Sys2Proof.Machine.execPowerTransitionDone s
  | .rstModuleWrite req key => Sys2Proof.Machine.execRstModuleWrite req key s
  | .rstDieWrite req dies => Sys2Proof.Machine.execRstDieWrite req dies s
  | .rstLinkWrite req links => Sys2Proof.Machine.execRstLinkWrite req links s
  | .rstLdWrite req lds => Sys2Proof.Machine.execRstLdWrite req lds s
  | .rstCtxWrite req ctxs => Sys2Proof.Machine.execRstCtxWrite req ctxs s
  | .flr n => Sys2Proof.Machine.execFlr n s
  | .ldResetLd req ld => Sys2Proof.Machine.execLdResetLd req ld s
  | .ldResetCtx req ld => Sys2Proof.Machine.execLdResetCtx req ld s
  | .secondaryBusReset n => Sys2Proof.Machine.execSecondaryBusReset n s
  | .hostPortLinkDown => Sys2Proof.Machine.execHostPortLinkDown s
  | .resetDrainEnd n => Sys2Proof.Machine.execResetDrainEnd n s
  | .resetDone domain inst => Sys2Proof.Machine.execResetDone domain inst s
  | .ldResetStuck n => Sys2Proof.Machine.execLdResetStuck n s
  | .flashImageReadDone readable => Sys2Proof.Machine.execFlashImageReadDone readable s
  | .hbmTrainingDone failed => Sys2Proof.Machine.execHbmTrainingDone failed s
  | .hbmZeroFillDone => Sys2Proof.Machine.execHbmZeroFillDone s
  | .bootReady => Sys2Proof.Machine.execBootReady s
  | .load req => Sys2Proof.Machine.execLoad req s
  | .recoveryLoadDone data => Sys2Proof.Machine.execRecoveryLoadDone data s
  | .flashWrite req => Sys2Proof.Machine.execFlashWrite req s
  | .svnCommit req => Sys2Proof.Machine.execSvnCommit req s
  | .add core rd rs1 rs2 rs3 w => Sys2Proof.Machine.execAdd core rd rs1 rs2 rs3 w s
  | .sub core rd rs1 rs2 rs3 w => Sys2Proof.Machine.execSub core rd rs1 rs2 rs3 w s
  | .mul core rd rs1 rs2 rs3 w => Sys2Proof.Machine.execMul core rd rs1 rs2 rs3 w s
  | .mulh core rd rs1 rs2 rs3 w => Sys2Proof.Machine.execMulh core rd rs1 rs2 rs3 w s
  | .mulhu core rd rs1 rs2 rs3 w => Sys2Proof.Machine.execMulhu core rd rs1 rs2 rs3 w s
  | .div core rd rs1 rs2 rs3 w => Sys2Proof.Machine.execDiv core rd rs1 rs2 rs3 w s
  | .divu core rd rs1 rs2 rs3 w => Sys2Proof.Machine.execDivu core rd rs1 rs2 rs3 w s
  | .rem core rd rs1 rs2 rs3 w => Sys2Proof.Machine.execRem core rd rs1 rs2 rs3 w s
  | .remu core rd rs1 rs2 rs3 w => Sys2Proof.Machine.execRemu core rd rs1 rs2 rs3 w s
  | .andOrXor core k rd rs1 rs2 rs3 w => Sys2Proof.Machine.execAndOrXor core k rd rs1 rs2 rs3 w s
  | .sllSrlSra core k rd rs1 rs2 rs3 w => Sys2Proof.Machine.execSllSrlSra core k rd rs1 rs2 rs3 w s
  | .sltSltu core k rd rs1 rs2 rs3 w => Sys2Proof.Machine.execSltSltu core k rd rs1 rs2 rs3 w s
  | .minMaxMinuMaxu core k rd rs1 rs2 rs3 w => Sys2Proof.Machine.execMinMaxMinuMaxu core k rd rs1 rs2 rs3 w s
  | .sel core rd rs1 rs2 rs3 w => Sys2Proof.Machine.execSel core rd rs1 rs2 rs3 w s
  | .addi core rd rs1 imm w => Sys2Proof.Machine.execAddi core rd rs1 imm w s
  | .andiOriXori core k rd rs1 imm w => Sys2Proof.Machine.execAndiOriXori core k rd rs1 imm w s
  | .slliSrliSrai core k rd rs1 imm w => Sys2Proof.Machine.execSlliSrliSrai core k rd rs1 imm w s
  | .slti core rd rs1 imm w => Sys2Proof.Machine.execSlti core rd rs1 imm w s
  | .li core rd imm w => Sys2Proof.Machine.execLi core rd imm w s
  | .lih core rd imm w => Sys2Proof.Machine.execLih core rd imm w s
  | .faddFsubFmulFdiv core k rd rs1 rs2 rs3 w => Sys2Proof.Machine.execFaddFsubFmulFdiv core k rd rs1 rs2 rs3 w s
  | .fsqrt core rd rs1 rs2 rs3 w => Sys2Proof.Machine.execFsqrt core rd rs1 rs2 rs3 w s
  | .fminFmax core k rd rs1 rs2 rs3 w => Sys2Proof.Machine.execFminFmax core k rd rs1 rs2 rs3 w s
  | .fma core rd rs1 rs2 rs3 w => Sys2Proof.Machine.execFma core rd rs1 rs2 rs3 w s
  | .fcvtIf core rd rs1 rs2 rs3 w => Sys2Proof.Machine.execFcvtIf core rd rs1 rs2 rs3 w s
  | .fcvtFi core rd rs1 rs2 rs3 w => Sys2Proof.Machine.execFcvtFi core rd rs1 rs2 rs3 w s
  | .feqFltFle core k rd rs1 rs2 rs3 w => Sys2Proof.Machine.execFeqFltFle core k rd rs1 rs2 rs3 w s
  | .lds core rd rs1 size sx off w => Sys2Proof.Machine.execLds core rd rs1 size sx off w s
  | .sts core rs2 rs1 size off w => Sys2Proof.Machine.execSts core rs2 rs1 size off w s
  | .ldu core rd rs1 size sx off w => Sys2Proof.Machine.execLdu core rd rs1 size sx off w s
  | .stu core rs2 rs1 size off w => Sys2Proof.Machine.execStu core rs2 rs1 size off w s
  | .rdgauge core rd index w => Sys2Proof.Machine.execRdgauge core rd index w s
  | .rdtick core rd w => Sys2Proof.Machine.execRdtick core rd w s
  | .ldn core rd rs1 size sx off w => Sys2Proof.Machine.execLdn core rd rs1 size sx off w s
  | .stn core rs2 rs1 size off w => Sys2Proof.Machine.execStn core rs2 rs1 size off w s
  | .amo core rd rs1 rs2 rs3 aop ret w => Sys2Proof.Machine.execAmo core rd rs1 rs2 rs3 aop ret w s
  | .iflush core w => Sys2Proof.Machine.execIflush core w s
  | .dinv core rs1 rs2 w => Sys2Proof.Machine.execDinv core rs1 rs2 w s
  | .rdtag core rd imm w => Sys2Proof.Machine.execRdtag core rd imm w s
  | .beqBneBltBgeBltuBgeu core c rs1 rs2 off w => Sys2Proof.Machine.execBeqBneBltBgeBltuBgeu core c rs1 rs2 off w s
  | .j core off w => Sys2Proof.Machine.execJ core off w s
  | .call core off w => Sys2Proof.Machine.execCall core off w s
  | .jr core rs1 w => Sys2Proof.Machine.execJr core rs1 w s
  | .callr core rs1 w => Sys2Proof.Machine.execCallr core rs1 w s
  | .ret core w => Sys2Proof.Machine.execRet core w s
  | .loop core lc rs1 len w => Sys2Proof.Machine.execLoop core lc rs1 len w s
  | .lend core lc w => Sys2Proof.Machine.execLend core lc w s
  | .wait core rs1 w => Sys2Proof.Machine.execWait core rs1 w s
  | .halt core w => Sys2Proof.Machine.execHalt core w s
  | .haltComplete core => Sys2Proof.Machine.execHaltComplete core s
  | .brk core code w => Sys2Proof.Machine.execBrk core code w s
  | .vaddVsubVmul core slot k f w => Sys2Proof.Machine.execVaddVsubVmul core slot k f w s
  | .vfma core slot f w => Sys2Proof.Machine.execVfma core slot f w s
  | .vminVmax core slot k f w => Sys2Proof.Machine.execVminVmax core slot k f w s
  | .vabsVneg core slot k f w => Sys2Proof.Machine.execVabsVneg core slot k f w s
  | .vandVorVxor core slot k f w => Sys2Proof.Machine.execVandVorVxor core slot k f w s
  | .vshlVsraVsrl core slot k f w => Sys2Proof.Machine.execVshlVsraVsrl core slot k f w s
  | .vexp core slot f w => Sys2Proof.Machine.execVexp core slot f w s
  | .vrcp core slot f w => Sys2Proof.Machine.execVrcp core slot f w s
  | .vrsqrt core slot f w => Sys2Proof.Machine.execVrsqrt core slot f w s
  | .vcvt core slot f w => Sys2Proof.Machine.execVcvt core slot f w s
  | .vceqVcltVcle core slot k f w => Sys2Proof.Machine.execVceqVcltVcle core slot k f w s
  | .vperm core slot f w => Sys2Proof.Machine.execVperm core slot f w s
  | .vbcast core slot f w => Sys2Proof.Machine.execVbcast core slot f w s
  | .vsel core slot f w => Sys2Proof.Machine.execVsel core slot f w s
  | .vmov core slot f w => Sys2Proof.Machine.execVmov core slot f w s
  | .vrsumVrmaxVrmin core slot k f w => Sys2Proof.Machine.execVrsumVrmaxVrmin core slot k f w s
  | .vld core slot f w => Sys2Proof.Machine.execVld core slot f w s
  | .vst core slot f w => Sys2Proof.Machine.execVst core slot f w s
  | .mandMorMxorMnot core slot k f w => Sys2Proof.Machine.execMandMorMxorMnot core slot k f w s
  | .mxCfg core => Sys2Proof.Machine.execMxCfg core s
  | .mxLda core ecc => Sys2Proof.Machine.execMxLda core ecc s
  | .mxMmw core ecc => Sys2Proof.Machine.execMxMmw core ecc s
  | .mxMma core ecc => Sys2Proof.Machine.execMxMma core ecc s
  | .mxRd core drop => Sys2Proof.Machine.execMxRd core drop s
  | .mxStf core drop => Sys2Proof.Machine.execMxStf core drop s
  | .xXfer core tag toUnified rs saddr len w => Sys2Proof.Machine.execXXfer core tag toUnified rs saddr len w s
  | .xScopy core tag src dst len w => Sys2Proof.Machine.execXScopy core tag src dst len w s
  | .transferComplete core tag data failed drop ecc => Sys2Proof.Machine.execTransferComplete core tag data failed drop ecc s
  | .lduDataReturn core rd data => Sys2Proof.Machine.execLduDataReturn core rd data s
  | .runaheadEntry core w => Sys2Proof.Machine.execRunaheadEntry core w s
  | .runaheadLimit core => Sys2Proof.Machine.execRunaheadLimit core s
  | .pipelineParityError core => Sys2Proof.Machine.execPipelineParityError core s
  | .coreWatchdogExpiry core => Sys2Proof.Machine.execCoreWatchdogExpiry core s
  | .fence req core => Sys2Proof.Machine.execFence req core s
  | .fenceClearDone core failed => Sys2Proof.Machine.execFenceClearDone core failed s
  | .unfence req core => Sys2Proof.Machine.execUnfence req core s
  | .xAssay core tag nsrc rsrc rowsM1 layer ord w => Sys2Proof.Machine.execXAssay core tag nsrc rsrc rowsM1 layer ord w s
  | .assayCompareDone die ecc => Sys2Proof.Machine.execAssayCompareDone die ecc s
  | .xAsel core tag dst layer obase w => Sys2Proof.Machine.execXAsel core tag dst layer obase w s
  | .clear req ctx layer => Sys2Proof.Machine.execClear req ctx layer s
  | .forceWiden req ctx layer => Sys2Proof.Machine.execForceWiden req ctx layer s
  | .basinScrubRead die line ecc again => Sys2Proof.Machine.execBasinScrubRead die line ecc again s
  | .clearDone die core failed => Sys2Proof.Machine.execClearDone die core failed s
  | .sluiceTransferDone ctx sub data failed ue => Sys2Proof.Machine.execSluiceTransferDone ctx sub data failed ue s
  | .copyRelease ctx => Sys2Proof.Machine.execCopyRelease ctx s
  | .lstReload req ctx far => Sys2Proof.Machine.execLstReload req ctx far s
  | .xLmark core tag layer w => Sys2Proof.Machine.execXLmark core tag layer w s
  | .xLwait core tag layer w => Sys2Proof.Machine.execXLwait core tag layer w s
  | .lwaitComplete core tag => Sys2Proof.Machine.execLwaitComplete core tag s
  | .sluiceLate ctx layer => Sys2Proof.Machine.execSluiceLate ctx layer s
  | .tierWaitExpiry ctx sub => Sys2Proof.Machine.execTierWaitExpiry ctx sub s
  | .writebackRetry ctx => Sys2Proof.Machine.execWritebackRetry ctx s
  | .stage req ctx tier pin => Sys2Proof.Machine.execStage req ctx tier pin s
  | .evict req ctx tier pin => Sys2Proof.Machine.execEvict req ctx tier pin s
  | .move req ctx tier pin => Sys2Proof.Machine.execMove req ctx tier pin s
  | .writeback req ctx tier pin => Sys2Proof.Machine.execWriteback req ctx tier pin s
  | .alloc req ctx tier count => Sys2Proof.Machine.execAlloc req ctx tier count s
  | .mapPooled req ctx tier count => Sys2Proof.Machine.execMapPooled req ctx tier count s
  | .free req ctx tier count => Sys2Proof.Machine.execFree req ctx tier count s
  | .perm req ctx tier count => Sys2Proof.Machine.execPerm req ctx tier count s
  | .seqSet req ctx tier count => Sys2Proof.Machine.execSeqSet req ctx tier count s
  | .seqClear req ctx tier count => Sys2Proof.Machine.execSeqClear req ctx tier count s
  | .invNow req ctx tier count => Sys2Proof.Machine.execInvNow req ctx tier count s
  | .invNowAcknowledged ctx => Sys2Proof.Machine.execInvNowAcknowledged ctx s
  | .advance req ctx => Sys2Proof.Machine.execAdvance req ctx s
  | .advanceApply ctx => Sys2Proof.Machine.execAdvanceApply ctx s
  | .epochRetire ctx => Sys2Proof.Machine.execEpochRetire ctx s
  | .pageWalkDone die ctx page ecc => Sys2Proof.Machine.execPageWalkDone die ctx page ecc s
  | .mapReload req ctx far => Sys2Proof.Machine.execMapReload req ctx far s
  | .xAwalk core tag desc dst w => Sys2Proof.Machine.execXAwalk core tag desc dst w s
  | .awalkGrant die far ecc => Sys2Proof.Machine.execAwalkGrant die far ecc s
  | .awalkComplete core tag far k off ecc drop => Sys2Proof.Machine.execAwalkComplete core tag far k off ecc drop s
  | .xRkpost core tag src slot gen pair pos countM1 w => Sys2Proof.Machine.execXRkpost core tag src slot gen pair pos countM1 w s
  | .rkpostCopyDone core tag ecc => Sys2Proof.Machine.execRkpostCopyDone core tag ecc s
  | .fork req ctx => Sys2Proof.Machine.execFork req ctx s
  | .scatterComplete ctx => Sys2Proof.Machine.execScatterComplete ctx s
  | .stepBoundary ctx far => Sys2Proof.Machine.execStepBoundary ctx far s
  | .tabReload req ctx => Sys2Proof.Machine.execTabReload req ctx s
  | .xBsend core tag src layer half rowbase count total w => Sys2Proof.Machine.execXBsend core tag src layer half rowbase count total w s
  | .bargeClose ctx layer half far => Sys2Proof.Machine.execBargeClose ctx layer half far s
  | .dispatchPart p => Sys2Proof.Machine.execDispatchPart p s
  | .xBwait core tag dst layer half side host w => Sys2Proof.Machine.execXBwait core tag dst layer half side host w s
  | .bwaitComplete core tag drop => Sys2Proof.Machine.execBwaitComplete core tag drop s
  | .xBret core tag host half w => Sys2Proof.Machine.execXBret core tag host half w s
  | .returnPart p => Sys2Proof.Machine.execReturnPart p s
  | .bargeRetTimeout ctx layer half side => Sys2Proof.Machine.execBargeRetTimeout ctx layer half side s
  | .bargeDrainMax ctx tag => Sys2Proof.Machine.execBargeDrainMax ctx tag s
  | .bargeDownClr req ctx bits => Sys2Proof.Machine.execBargeDownClr req ctx bits s
  | .rebalanceEpoch ctx others spares => Sys2Proof.Machine.execRebalanceEpoch ctx others spares s
  | .replicaCopyDone ctx layer expert index data failed => Sys2Proof.Machine.execReplicaCopyDone ctx layer expert index data failed s
  | .sqAdmit ld cid rec' far failed => Sys2Proof.Machine.execSqAdmit ld cid rec' far failed s
  | .sqCancel ld cid => Sys2Proof.Machine.execSqCancel ld cid s
  | .maniCancel req ctx => Sys2Proof.Machine.execManiCancel req ctx s
  | .draftSet req ctx => Sys2Proof.Machine.execDraftSet req ctx s
  | .bcast m => Sys2Proof.Machine.execBcast m s
  | .stepLaunch ctx => Sys2Proof.Machine.execStepLaunch ctx s
  | .memberReady ctx => Sys2Proof.Machine.execMemberReady ctx s
  | .ready m => Sys2Proof.Machine.execReady m s
  | .helmCommit ctx far => Sys2Proof.Machine.execHelmCommit ctx far s
  | .commit m => Sys2Proof.Machine.execCommit m s
  | .scattered m resident failed => Sys2Proof.Machine.execScattered m resident failed s
  | .replay m => Sys2Proof.Machine.execReplay m s
  | .convoyEnd m => Sys2Proof.Machine.execConvoyEnd m s
  | .buildRetry ctx => Sys2Proof.Machine.execBuildRetry ctx s
  | .readyTimeout ctx => Sys2Proof.Machine.execReadyTimeout ctx s
  | .tollLevelWrite req ctx decode level => Sys2Proof.Machine.execTollLevelWrite req ctx decode level s
  | .xXsamp core tag desc dst w => Sys2Proof.Machine.execXXsamp core tag desc dst w s
  | .xsampGrant die => Sys2Proof.Machine.execXsampGrant die s
  | .xsampDrawDone core tag faults far drop => Sys2Proof.Machine.execXsampDrawDone core tag faults far drop s
  | .linkEnWrite req inst value => Sys2Proof.Machine.execLinkEnWrite req inst value s
  | .linkTrainingDone k light node slice member plane plan peerLink => Sys2Proof.Machine.execLinkTrainingDone k light node slice member plane plan peerLink s
  | .linkTrainingTimeout k light => Sys2Proof.Machine.execLinkTrainingTimeout k light s
  | .lossOfLight k light => Sys2Proof.Machine.execLossOfLight k light s
  | .fecUeThreshold k => Sys2Proof.Machine.execFecUeThreshold k s
  | .replayThreshold k => Sys2Proof.Machine.execReplayThreshold k s
  | .ackProgressTimeout k => Sys2Proof.Machine.execAckProgressTimeout k s
  | .retrainDelayExpiry k => Sys2Proof.Machine.execRetrainDelayExpiry k s
  | .flitReceive k hdr data crc ce ue => Sys2Proof.Machine.execFlitReceive k hdr data crc ce ue s
  | .packetArrival k p env sub2 sub3 => Sys2Proof.Machine.execPacketArrival k p env sub2 sub3 s
  | .ident k node slice member plane plan peerLink => Sys2Proof.Machine.execIdent k node slice member plane plan peerLink s
  | .downNotice k cause => Sys2Proof.Machine.execDownNotice k cause s
  | .retrainRequest k => Sys2Proof.Machine.execRetrainRequest k s
  | .transitQuery k qid slice ranges => Sys2Proof.Machine.execTransitQuery k qid slice ranges s
  | .transitAnswer k qid yes => Sys2Proof.Machine.execTransitAnswer k qid yes s
  | .pinRelease k qid => Sys2Proof.Machine.execPinRelease k qid s
  | .timeReq p sub2 sub3 => Sys2Proof.Machine.execTimeReq p sub2 sub3 s
  | .timeResp p sub => Sys2Proof.Machine.execTimeResp p sub s
  | .timeExchangePeriod sub => Sys2Proof.Machine.execTimeExchangePeriod sub s
  | .lockLoad req far => Sys2Proof.Machine.execLockLoad req far s
  | .lockCommit => Sys2Proof.Machine.execLockCommit s
  | .isolate req => Sys2Proof.Machine.execIsolate req s
  | .nodeRequest p env => Sys2Proof.Machine.execNodeRequest p env s
  | .homeAgentSlot line env => Sys2Proof.Machine.execHomeAgentSlot line env s
  | .resp p env => Sys2Proof.Machine.execResp p env s
  | .resync p env => Sys2Proof.Machine.execResync p env s
  | .resyncAck p env => Sys2Proof.Machine.execResyncAck p env s
  | .msfReqTimeout node => Sys2Proof.Machine.execMsfReqTimeout node s
  | .impReload req ctx far => Sys2Proof.Machine.execImpReload req ctx far s
  | .msfExpSet req ctx => Sys2Proof.Machine.execMsfExpSet req ctx s
  | .msfExpClear req ctx => Sys2Proof.Machine.execMsfExpClear req ctx s
  | .xMsg core tag desc w => Sys2Proof.Machine.execXMsg core tag desc w s
  | .put p env => Sys2Proof.Machine.execPut p env s
  | .get p env => Sys2Proof.Machine.execGet p env s
  | .getData p env => Sys2Proof.Machine.execGetData p env s
  | .send p env => Sys2Proof.Machine.execSend p env s
  | .msgAck p env => Sys2Proof.Machine.execMsgAck p env s
  | .msgTimeout id => Sys2Proof.Machine.execMsgTimeout id s
  | .msgUseAbandon node id => Sys2Proof.Machine.execMsgUseAbandon node id s
  | .hostLinkTrain offers lopt uio reversed => Sys2Proof.Machine.execHostLinkTrain offers lopt uio reversed s
  | .retrain req => Sys2Proof.Machine.execRetrain req s
  | .wharfLdEnWrite req en => Sys2Proof.Machine.execWharfLdEnWrite req en s
  | .doorbellWrite ld k value size => Sys2Proof.Machine.execDoorbellWrite ld k value size s
  | .sqFetch ld entry => Sys2Proof.Machine.execSqFetch ld entry s
  | .nop ld cid => Sys2Proof.Machine.execNop ld cid s
  | .sqLaunch ld cid => Sys2Proof.Machine.execSqLaunch ld cid s
  | .copy ld cid => Sys2Proof.Machine.execCopy ld cid s
  | .copyDone ld cid data ecc => Sys2Proof.Machine.execCopyDone ld cid data ecc s
  | .cxlMemRead ld dpa k ecc => Sys2Proof.Machine.execCxlMemRead ld dpa k ecc s
  | .cxlMemWrite ld dpa data => Sys2Proof.Machine.execCxlMemWrite ld dpa data s
  | .uioCompletion ctx sub write n data ok last => Sys2Proof.Machine.execUioCompletion ctx sub write n data ok last s
  | .ringsEnWrite req ld enabled => Sys2Proof.Machine.execRingsEnWrite req ld enabled s
  | .irqTimer ld ring => Sys2Proof.Machine.execIrqTimer ld ring s
  | .evqOverflowRecord ld => Sys2Proof.Machine.execEvqOverflowRecord ld s
  | .pcsLoopbackFollower => Sys2Proof.Machine.execPcsLoopbackFollower s
  | .getVersion => Sys2Proof.Machine.execGetVersion s
  | .getCapabilities => Sys2Proof.Machine.execGetCapabilities s
  | .negotiateAlgorithms => Sys2Proof.Machine.execNegotiateAlgorithms s
  | .getDigests => Sys2Proof.Machine.execGetDigests s
  | .getCertificate slot offset length => Sys2Proof.Machine.execGetCertificate slot offset length s
  | .challenge transcript => Sys2Proof.Machine.execChallenge transcript s
  | .getMeasurements index signed transcript => Sys2Proof.Machine.execGetMeasurements index signed transcript s
  | .identifyMemoryDevice ld => Sys2Proof.Machine.execIdentifyMemoryDevice ld s
  | .getPartitionInfo ld => Sys2Proof.Machine.execGetPartitionInfo ld s
  | .getSupportedLogs ld => Sys2Proof.Machine.execGetSupportedLogs ld s
  | .getLog ld commandEffects => Sys2Proof.Machine.execGetLog ld commandEffects s
  | .getLdInfo => Sys2Proof.Machine.execGetLdInfo s
  | .getLdAllocations => Sys2Proof.Machine.execGetLdAllocations s
  | .enable req ctx => Sys2Proof.Machine.execEnable req ctx s
  | .quiesce req ctx => Sys2Proof.Machine.execQuiesce req ctx s
  | .ctxQuiesced ctx => Sys2Proof.Machine.execCtxQuiesced ctx s
  | .ctxResume req ctx => Sys2Proof.Machine.execCtxResume req ctx s
  | .disable req ctx => Sys2Proof.Machine.execDisable req ctx s
  | .setCores req ctx => Sys2Proof.Machine.execSetCores req ctx s
  | .snap req ctx => Sys2Proof.Machine.execSnap req ctx s
  | .dutyRequestPost ctx => Sys2Proof.Machine.execDutyRequestPost ctx s
  | .dutyAnsTailWrite req ctx tail far => Sys2Proof.Machine.execDutyAnsTailWrite req ctx tail far s
  | .dutyTimeout ctx k => Sys2Proof.Machine.execDutyTimeout ctx k s
  | .dutyModeWrite req duty inst assisted => Sys2Proof.Machine.execDutyModeWrite req duty inst assisted s
  | .controlTick pest matrix issued => Sys2Proof.Machine.execControlTick pest matrix issued s
  | .powerSample mv ma10 shares other => Sys2Proof.Machine.execPowerSample mv ma10 shares other s
  | .gainUpdate => Sys2Proof.Machine.execGainUpdate s
  | .currentGuardTrip avg => Sys2Proof.Machine.execCurrentGuardTrip avg s
  | .currentHoldEnd => Sys2Proof.Machine.execCurrentHoldEnd s
  | .pwrCapWrite req cap => Sys2Proof.Machine.execPwrCapWrite req cap s
  | .orphanTimeout => Sys2Proof.Machine.execOrphanTimeout s
  | .tempSample dies iods hbms oes inlet outlet => Sys2Proof.Machine.execTempSample dies iods hbms oes inlet outlet s
  | .tripHaltComplete => Sys2Proof.Machine.execTripHaltComplete s
  | .tripPowerOff => Sys2Proof.Machine.execTripPowerOff s
  | .coolantInletHigh => Sys2Proof.Machine.execCoolantInletHigh s
  | .coolantOutletHigh => Sys2Proof.Machine.execCoolantOutletHigh s
  | .coolantFaultEnd => Sys2Proof.Machine.execCoolantFaultEnd s
  | .inputSag mv => Sys2Proof.Machine.execInputSag mv s
  | .sagClear => Sys2Proof.Machine.execSagClear s
  | .powerPolicyPeriod => Sys2Proof.Machine.execPowerPolicyPeriod s
  | .gaugeFreeze req die frozen => Sys2Proof.Machine.execGaugeFreeze req die frozen s
  | .gaugeSnap req die => Sys2Proof.Machine.execGaugeSnap req die s
  | .gaugeMfreeze req frozen => Sys2Proof.Machine.execGaugeMfreeze req frozen s
  | .gaugeMsnap req => Sys2Proof.Machine.execGaugeMsnap req s
  | .freezeAll req frozen => Sys2Proof.Machine.execFreezeAll req frozen s
  | .snapAll req => Sys2Proof.Machine.execSnapAll req s
  | .gaugeClr req die bits all => Sys2Proof.Machine.execGaugeClr req die bits all s
  | .gaugeMclr req bits => Sys2Proof.Machine.execGaugeMclr req bits s
  | .gaugeSelAll req die event index => Sys2Proof.Machine.execGaugeSelAll req die event index s
  | .gaugeWrap inst core gauge amount => Sys2Proof.Machine.execGaugeWrap inst core gauge amount s
  | .xGsnap core tag dst w => Sys2Proof.Machine.execXGsnap core tag dst w s
  | .submit req far => Sys2Proof.Machine.execSubmit req far s
  | .tokenOpen => Sys2Proof.Machine.execTokenOpen s
  | .tokenTransition => Sys2Proof.Machine.execTokenTransition s
  | .tokenEnroll => Sys2Proof.Machine.execTokenEnroll s
  | .tokenRevoke => Sys2Proof.Machine.execTokenRevoke s
  | .tokenProvision => Sys2Proof.Machine.execTokenProvision s
  | .pubkey req => Sys2Proof.Machine.execPubkey req s
  | .certWrite req far => Sys2Proof.Machine.execCertWrite req far s
  | .scopeClearDone => Sys2Proof.Machine.execScopeClearDone s
  | .dbgClose req => Sys2Proof.Machine.execDbgClose req s
  | .dbgHalt req => Sys2Proof.Machine.execDbgHalt req s
  | .dbgResume req => Sys2Proof.Machine.execDbgResume req s
  | .dbgStep req => Sys2Proof.Machine.execDbgStep req s
  | .dbgRegDataAccess req write data => Sys2Proof.Machine.execDbgRegDataAccess req write data s
  | .dbgMemRead req ecc => Sys2Proof.Machine.execDbgMemRead req ecc s
  | .dbgMemWrite req ecc => Sys2Proof.Machine.execDbgMemWrite req ecc s
  | .bistStart req => Sys2Proof.Machine.execBistStart req s
  | .bistAbort req => Sys2Proof.Machine.execBistAbort req s
  | .bistItemStart => Sys2Proof.Machine.execBistItemStart s
  | .bistItemEnd cls inst fail subs sig stored => Sys2Proof.Machine.execBistItemEnd cls inst fail subs sig stored s
  | .bistPowerSkip => Sys2Proof.Machine.execBistPowerSkip s
  | .loopStart req => Sys2Proof.Machine.execLoopStart req s
  | .loopStop req => Sys2Proof.Machine.execLoopStop req s
  | .loopEnd errs light dark pass => Sys2Proof.Machine.execLoopEnd errs light dark pass s
  | .faultCtrlClear req => Sys2Proof.Machine.execFaultCtrlClear req s
  | .cfgLockSet req page => Sys2Proof.Machine.execCfgLockSet req page s
  | .eventForce req page bits => Sys2Proof.Machine.execEventForce req page bits s
  | .errlogAddrRead req page => Sys2Proof.Machine.execErrlogAddrRead req page s
  | .errlogInfoRead req page => Sys2Proof.Machine.execErrlogInfoRead req page s
  | .reg64LowHalfRead req addr => Sys2Proof.Machine.execReg64LowHalfRead req addr s
  | .rcRegisterRead req addr => Sys2Proof.Machine.execRcRegisterRead req addr s
  | .registerWrite req addr value be far ecc => Sys2Proof.Machine.execRegisterWrite req addr value be far ecc s
  | .configurationRequest ld r => Sys2Proof.Machine.execConfigurationRequest ld r s
  | .completionTimeout ld uio sub cid => Sys2Proof.Machine.execCompletionTimeout ld uio sub cid s
  | .flashWriteDone data => Sys2Proof.Machine.execFlashWriteDone data s
  | .illegalBundle core w => Sys2Proof.Machine.execIllegalBundle core w s
  | .fetchXlat core w => Sys2Proof.Machine.execFetchXlat core w s
  | .linkTrainingRetry k => Sys2Proof.Machine.execLinkTrainingRetry k s
  | .pcsLoopbackExit => Sys2Proof.Machine.execPcsLoopbackExit s
  | .fibreArrayMated a => Sys2Proof.Machine.execFibreArrayMated a s
  | .mgmtPllFreeRun => Sys2Proof.Machine.execMgmtPllFreeRun s
  | .sysRefclkReturn => Sys2Proof.Machine.execSysRefclkReturn s

end Sys2Proof.Machine
end

