-- ==== Sys2Proof/Safety.lean ====
section
/-! DEFINITION. Safety.lean: what the statements about the model are phrased in: that a command completes with a given
result, that a step is safe, that a register takes a requester's write, and that a core takes a bundle. -/
namespace Sys2Proof.Machine

/-- The command `c` completes in state `s`, in a next state that satisfies `P`. -/
def Completes (c : Instr) (s : State) (P : State → Prop) : Prop := ∃ t, exec c s = .next t ∧ P t

/-- The next step of `s` stops neither by a fault nor by a refusal. -/
def SafeStep (s : State) : Prop := ∃ t, step s = .next t

/-- A requester reaches an address of the page map: an LD through the served port, firmware always, JTAG under its
scopes (R73, R395, R487, R531). -/
def State.regReached (s : State) (req : Fin 18) (a : Nat) : Bool :=
  decide (s.accessKind req a = 3) && (decide (req.val ≠ 17) || (s.jtagOpen && decide (s.jtagBar a = 0)))

/-- The register at an offset of a page takes a requester's write: the requester reaches it, the page is out of reset,
and neither the lock nor the writer's rights stand against it (R522, R531, R532). -/
def State.takesWrite (s : State) (req : Fin 18) (p : Page) (i off : Nat) : Bool :=
  s.regReached req (pageBase p i + off) && !s.regInReset p i (off / 4 * 4) &&
    match regAt p i (off / 4 * 4) with
    | some r => !s.writeBarred p i r.reg req
    | none => false

/-- The common header of a page takes a requester's access at an offset: the requester reaches it and the page is out of
reset (R519, R532). -/
def State.takesHeader (s : State) (req : Fin 18) (p : Page) (i off : Nat) : Bool :=
  s.regReached req (pageBase p i + off) && !s.regInReset p i off

/-! ### Memory -/

/-- A memory is in its canonical form: addresses strictly rising, and no byte listed that reads as an unlisted one does. -/
def Memory.wf (m : Table Byte) : Bool := tableWf 0#8 0 m

/-- HBM, the Basin slices and every scratchpad are in their canonical form. -/
def State.memoryForm (s : State) : Prop :=
  Memory.wf s.hbm = true ∧ Memory.wf s.basin = true ∧ ∀ n, Memory.wf (s.core n).scr = true

/-! ### Bundles -/

/-- A bundle of NOPs, in given surroundings. -/
def bareBundle (e : Surround) : Bundle := { Bundle.nop with env := e }

/-- Core `n` takes the bundle `w`: it executes outside run-ahead, memory holds `w` at its PC, nothing in `w` is reserved
or named twice, nothing makes it wait at D2, and no uncorrectable error meets its scratchpad reads (R79, R90, R95, R171). -/
def State.takesBundle (s : State) (n : Nat) (w : Bundle) : Bool :=
  s.executes n && (s.core n).ra.isNone &&
    match s.fetch n with
    | (.bundle bits, u) =>
      isBundle bits w && !illegalBundle w (u.core n) && !u.waitsD2 n w && !(bundleReadsScr w && isUe w.env.scr)
    | _ => false

/-- The state in which the slots of core `n`'s bundle start. -/
def State.slotStart (s : State) (n : Nat) : State :=
  let u := (s.fetch n).2
  { u with free := u.free + 3 }

/-- The draw of the free values of slot `i` of core `n`'s bundle: 0 for S, 1 for V0, 2 for V1. -/
def State.slotDraw (s : State) (n i : Nat) : Nat := (s.fetch n).2.free + i

/-- From `s` to `t`, core `n` has passed on to the bundle that follows, and no other core has changed. -/
abbrev State.passes (s t : State) (n : Nat) : Prop :=
  (t.core n).pc = (s.core n).pc + 64#48 ∧ t.fld R.CORE_PC.PC n = (s.core n).pc.toNat ∧
    ∀ m : Fin 512, m.val ≠ n → t.core m = s.core m

/-- From `k` to `k'`, a core's vector, mask and loop registers, scratchpad, tags and engine are as they were. -/
abbrev Core.keepsRest (k k' : Core) : Prop :=
  k'.vregs = k.vregs ∧ k'.mregs = k.mregs ∧ k'.loops = k.loops ∧ k'.scr = k.scr ∧ k'.tags = k.tags ∧ k'.engine = k.engine

/-- From `k` to `k'`, the s register `rd` takes a value, and no other register changes; s0 reads 0 (R76). -/
abbrev Core.getsS (k k' : Core) (rd : BitVec 5) (v : Word64) : Prop :=
  k'.s rd = (if rd = 0#5 then 0#64 else v) ∧ (∀ r : BitVec 5, r ≠ rd → k'.s r = k.s r) ∧ k.keepsRest k'

/-- A bundle of core `n` retires that leaves `v` in the s register `rd` and changes nothing else of the core. -/
abbrev State.retiresS (s t : State) (n : Nat) (rd : BitVec 5) (v : Word64) : Prop :=
  s.passes t n ∧ (s.core n).getsS (t.core n) rd v

/-- A bundle of core `n` raises an exception: once no load is outstanding the core is TRAPPED, and CORE_EPC, CORE_ECAUSE
and CORE_EADDR hold the bundle's address, the cause and slot, and the data address; till then the bundle waits (R91, R92). -/
abbrev State.traps (s t : State) (n cause slot addr : Nat) : Prop :=
  if (s.core n).pend = [] then
    t.coreState n = coreTrapped ∧ t.fld R.CORE_EPC.PC n = (s.core n).pc.toNat ∧ t.fld R.CORE_ECAUSE.CAUSE n = cause ∧
      t.fld R.CORE_ECAUSE.SLOT n = slot ∧ t.fld R.CORE_EADDR.ADDR n = addr ∧ (t.core n).pc = (s.core n).pc
  else t = s

/-- From `k` to `k'`, a core's s, vector, mask and loop registers, tags and engine are as they were. -/
abbrev Core.keepsRegs (k k' : Core) : Prop :=
  k'.sregs = k.sregs ∧ k'.vregs = k.vregs ∧ k'.mregs = k.mregs ∧ k'.loops = k.loops ∧ k'.tags = k.tags ∧ k'.engine = k.engine

/-- From `k` to `k'`, the bytes of a store lie in the scratchpad at an address, but for the 64-byte words that a
higher-numbered port wins, and every other byte is as it was (R79, R164). -/
def Core.storesScr (k k' : Core) (a : Nat) (bs : List Byte) (drop : List Nat) : Prop :=
  ∀ x, tget 0#8 k'.scr x =
    if a ≤ x ∧ x < a + bs.length ∧ x / 64 ∉ drop then (bs[x - a]?).getD 0#8 else tget 0#8 k.scr x

/-- The leaf entry that a translation gives; 0 where it gives none. -/
def Xlat.entry : Xlat → Nat
  | .ok e => e
  | _ => 0

/-- From `s` to `t`, core `n`'s bundle still waits at its PC, its registers as they were. -/
abbrev State.waitsOn (s t : State) (n : Nat) : Prop := (t.core n).pc = (s.core n).pc ∧ (s.core n).keepsRegs (t.core n)

/-- Lane `i` of the second source of a vector operation: of a register, or under SB of an s register given to every lane
(R87). -/
def Core.vLaneB (k : Core) (f : VFields) (i : Nat) : Nat :=
  if f.sb then (k.s f.vb).toNat % 2 ^ laneBits f.ty.toNat else lane (k.v f.vb) f.ty.toNat i

/-- A bundle of core `n` retires and changes no register but the vector register `vd`. -/
abbrev State.retiresV (s t : State) (n : Nat) (vd : BitVec 5) : Prop :=
  s.passes t n ∧ (∀ r : BitVec 5, r ≠ vd → (t.core n).v r = (s.core n).v r) ∧ (t.core n).sregs = (s.core n).sregs ∧
    (t.core n).mregs = (s.core n).mregs ∧ (t.core n).loops = (s.core n).loops ∧ (t.core n).scr = (s.core n).scr

/-- From `k` to `k'`, the bytes of a vector store whose mask bits are 1 lie in the scratchpad at an address, but for the
words that a higher-numbered port wins, and every other byte is as it was. -/
def Core.storesV (k k' : Core) (a : Nat) (bs : List Byte) (m : BitVec 256) (drop : List Nat) : Prop :=
  ∀ x, tget 0#8 k'.scr x =
    if a ≤ x ∧ x < a + bs.length ∧ m.getLsbD (x - a) = true ∧ x / 64 ∉ drop then (bs[x - a]?).getD 0#8 else tget 0#8 k.scr x

/-- A bundle of core `n` retires and changes no s, vector, mask or loop register. -/
abbrev State.retires (s t : State) (n : Nat) : Prop :=
  (t.core n).pc = (s.core n).pc + 64#48 ∧ t.fld R.CORE_PC.PC n = (s.core n).pc.toNat ∧ (t.core n).sregs = (s.core n).sregs ∧
    (t.core n).vregs = (s.core n).vregs ∧ (t.core n).mregs = (s.core n).mregs ∧ (t.core n).loops = (s.core n).loops

/-- Core `n`'s transfer tag is BUSY for an operation that lies outstanding (R90). -/
abbrev State.tagOut (t : State) (n tag kind : Nat) : Prop :=
  (t.core n).tag tag = ⟨true, 0, false⟩ ∧ ∃ x ∈ (t.core n).xops, x.tag = tag ∧ x.kind = kind

/-- Core `n`'s transfer tag has completed with status 0 (R90). -/
abbrev State.tagDone0 (t : State) (n tag : Nat) : Prop := (t.core n).tag tag = ⟨false, 0, false⟩

/-- The address at which a range's translation fails. -/
def RangeXlat.failAt : RangeXlat → Option Nat
  | .fail a => some a
  | _ => none

/-- The activation buffer holds rows of the scratchpad at a step, and 0 everywhere else (R123). -/
def Engine.holdsRows (e : Engine) (k : Core) (src rows row step : Nat) : Prop :=
  ∀ r i, i < 16384 → tget 0#8 e.abuf (16384 * r + i) = if r < rows ∧ i < row then tget 0#8 k.scr (src + r * step + i) else 0#8

/-- The queue has moved on by a command, and every register, tag and byte of the scratchpad is as it was. -/
abbrev Core.takesCommand (k k' : Core) : Prop :=
  k'.engine.queue = k.engine.queue.drop 1 ∧ k'.sregs = k.sregs ∧ k'.vregs = k.vregs ∧ k'.mregs = k.mregs ∧
    k'.tags = k.tags ∧ k'.pc = k.pc

/-! ### Links, packets and the rack -/

/-- From `s` to `t`, link `k` has gone DOWN by a cause, or is HELD where this is the eighth time within 60 s; its pins
have fallen, and no other link's state has changed (R339-R341). -/
abbrev State.downs (s t : State) (k cause : Nat) : Prop :=
  t.linkState k =
    (if 7 ≤ (s.linkLayer k).downs.length ∧ s.tick < (s.linkLayer k).downs[6]?.getD 0 + minuteTicks then 5 else 4) ∧
  t.fld R.LINK_STATE.DOWN_CAUSE (k / 16) (k % 16) = cause ∧
  t.fld R.LINK_DOWNS.COUNT (k / 16) (k % 16) = (s.fld R.LINK_DOWNS.COUNT (k / 16) (k % 16) + 1) % 2 ^ 32 ∧
  (∀ j : Fin 32, j.val ≠ k → t.linkState j = s.linkState j) ∧ ∀ p ∈ t.fabric.pins, p.1 ≠ k

/-- From `s` to `t`, link `k` enters TRAINING, where it is enabled and light may be emitted on it; its credits and
sequence numbers are initialised (R16, R338, R347). -/
abbrev State.trains (s t : State) (k : Nat) : Prop :=
  if s.linkEnabled k = true ∧ s.lightAllowed k = true then
    t.linkState k = 1 ∧ t.fld R.LINK_STATE.LIGHT (k / 16) (k % 16) = 0 ∧
    t.linkLayer k = { LinkLayer.reset with downs := (s.linkLayer k).downs } ∧
    ∀ j : Fin 32, j.val ≠ k → t.linkState j = s.linkState j
  else t = s

/-- `LINK_PEER[k]` of `t` holds an identity (R351). -/
abbrev State.peerIs (t : State) (k node slice member : Nat) (plane : Bool) (link : Nat) : Prop :=
  t.peerNode k = node ∧ t.peerSlice k = slice ∧ t.fld R.LINK_PEER.MEMBER (k / 16) (k % 16) = member ∧
  t.peerPlane k = plane ∧ t.fld R.LINK_PEER.PEER_LINK (k / 16) (k % 16) = link ∧ t.peerValid k = true

/-- The ports that offer a way to a node: those of the primary mask, else those of the alternate (R353). -/
def State.routeSet (s : State) (dst : Nat) : Nat :=
  let e := s.route dst
  let pri := s.usable dst e.pri e.priTransit
  if pri ≠ 0 then pri else s.usable dst e.alt e.altTransit

/-- A packet has started on a port, or waits there for credits (R347). -/
abbrev State.handed (s t : State) (k : Nat) (p : Packet) : Prop :=
  t.out = s.out ++ [.port k p] ∨ (t.linkLayer k).waiting = (s.linkLayer k).waiting ++ [p]

/-- From `s` to `t`, a packet of this module is sent: refused at the source, given to the module itself, counted as
unreachable, or handed to one of the ports that its route offers (R349, R353, R354, R368). -/
abbrev State.sends (s t : State) (p : Packet) : Prop :=
  let q := { p with src := s.node, slice := s.slice, hop := false }
  if (s.route p.dst).v = false ∨ (s.route p.dst).slice ≠ s.slice ∨ s.slice = 0 then
    t.fld R.ROUTE_REFUSED.COUNT = (s.fld R.ROUTE_REFUSED.COUNT + 1) % 2 ^ 32 ∧ t.out = s.out
  else if p.dst = s.node then t.out = s.out ++ [.inject q]
  else if s.routeSet p.dst = 0 then t.fld R.ROUTE_UNREACHABLE.COUNT = (s.fld R.ROUTE_UNREACHABLE.COUNT + 1) % 2 ^ 32
  else ∃ k : Fin 32, bit (s.routeSet p.dst) k = true ∧ (s.handed t k q ∨ s.handed t k { q with vc := 7 })

/-- From `s` to `t`, a packet has failed a Lock check at a port (R357). -/
abbrev State.lockDropped (s t : State) (check port : Nat) (p : Packet) : Prop :=
  t.fld R.LOCK_LAST_DROP.CHECK = check ∧ t.fld R.LOCK_LAST_DROP.PORT = port ∧
  t.fld R.LOCK_LAST_DROP.SRC = p.src % 2 ^ 12 ∧
  t.fld R.LOCK_DROP_INGRESS.COUNT = (s.fld R.LOCK_DROP_INGRESS.COUNT + b2n (decide (check = 1))) % 2 ^ 32 ∧
  t.fld R.LOCK_DROP_TRANSIT.COUNT = (s.fld R.LOCK_DROP_TRANSIT.COUNT + b2n (decide (check = 4))) % 2 ^ 32 ∧
  t.fld R.LOCK_DROP_DEST.COUNT = (s.fld R.LOCK_DROP_DEST.COUNT + b2n (decide (check = 2 ∨ check = 3))) % 2 ^ 32 ∧
  t.fabric = s.fabric ∧ t.rack = s.rack ∧ t.cores = s.cores

/-- A packet that the on-package path brings is for this module, of one of the TYPEs, and the module is awake (R57,
R357, R375). -/
def State.admits (s : State) (types : List Nat) (p : Packet) : Bool :=
  types.contains p.type && decide (p.slice = s.slice ∧ s.slice ≠ 0) && !s.asleep

/-- The requests that stand at the head of a line, of one source each, in the order of service (R381). -/
def State.lineHeads (s : State) (line : Nat) : List HomeReq :=
  ((List.range 4096).map fun i => (tget 0 s.rack.homePtr line + i) % 4096).filterMap fun n => s.lineHead line n

/-- The import table as a reload reads it from memory: none where its translation fails or T3 holds too little (R370). -/
def State.importTable (s : State) (c : Nat) (far : List Byte) : Option (Table Import) :=
  let n := s.fld R.MSF_IMP_COUNT.COUNT c
  match (s.ureadFar 0 c (s.addr R.MSF_IMP_BASE.ADDR c) (16 * n) far).1 with
  | .bytes bs => some (takeImports ((List.range n).map fun i => (bs.drop (16 * i)).take 16))
  | _ => none

end Sys2Proof.Machine
end

