-- ==== Sys2Proof/Certificates/Slice0/Obligations.lean ====
section
/-! DEFINITION. Certificates/Slice0/Obligations.lean: the statements for the provers. -/
open Sys2Proof Sys2Proof.Machine

/-- What each power-entry command does to the supply, the latch of R20 and the resets. -/
def Obligations.PowerEntryCommands : Prop := ∀ s : State,
  (Completes .pwrEnAssert s fun t =>
      t.board.pwrEn = true ∧ t.board.mainOn = (s.board.mainOn || (s.board.standby && s.board.vinOk &&
      !s.board.offHold && !s.board.shutdown && !(s.board.thermTrip && !(s.board.off100 && s.board.sensorsBelow95)) && !s.board.p3))) ∧
  (Completes .pwrEnDeassert s fun t =>
      t.board.pwrEn = false ∧ t.board.mainOn = false ∧ t.board.offHold = s.board.standby ∧ t.board.off100 = false) ∧
  (Completes .pwrEnOffHoldExpiry s fun t =>
      t.board.offHold = false ∧ t.board.shutdown = (s.board.shutdown && !(s.board.offHold && !s.board.pwrEn))) ∧
  (Completes .mainConversionPermitted s fun t =>
      t.board.vinOk = true ∧ t.board.mainOn = (s.board.mainOn || (s.board.pwrEn && s.board.standby &&
      !s.board.offHold && !s.board.shutdown && !s.board.thermTrip && !s.board.p3))) ∧
  (Completes .mainConversionForcedOff s fun t =>
      t.board.vinOk = false ∧ t.board.mainOn = false) ∧
  (Completes .standbyConverterOn s fun t =>
      t.board.standby = true ∧ t.board.mgmtUp = false) ∧
  (Completes .standbyConverterOff s fun t =>
      t.board.standby = false ∧ t.board.mgmtUp = false ∧ t.board.mainOn = false ∧
      t.board.shutdown = false ∧ t.board.thermTrip = false ∧ t.power.inReset = true) ∧
  (Completes .mgmtResetEnd s fun t =>
      t.board.mgmtUp = (s.board.mgmtUp || s.board.standby)) ∧
  (Completes .mcWatchdogExpiry s fun t =>
      t.board.mgmtUp = false ∧ t.power.inReset = true) ∧
  (∀ (mv ma : Nat), Completes (.overvoltageShutdown mv ma) s fun t =>
      t.board.mainOn = false ∧ t.board.shutdown = (s.board.shutdown || s.board.mainOn)) ∧
  (∀ (mv ma : Nat), Completes (.overcurrentShutdown mv ma) s fun t =>
      t.board.mainOn = false ∧ t.board.shutdown = (s.board.shutdown || s.board.mainOn)) ∧
  (Completes .mainRailsInRegulation s fun t =>
      t.board.railsOk = (s.board.railsOk || s.board.mainOn)) ∧
  (Completes .mainRailOutOfRegulation s fun t =>
      t.board.railsOk = false) ∧
  (Completes .pwrGoodHoldElapsed s fun t =>
      t.board.good1ms = (s.board.good1ms || s.pwrGood)) ∧
  (Completes .perstLAssert s fun t =>
      t.board.perst = true ∧ t.power.inReset = true) ∧
  (Completes .perstLRelease s fun t =>
      t.board.perst = false)

/-- What the sideband pins, the laser sources, the fibre arrays and the clocks do: TICK starts at 0 on lock, and a
lost clock stops the main domain. -/
def Obligations.SidebandOpticsAndClockCommands : Prop := ∀ s : State,
  (Completes .capAlertLAssert s fun t =>
      t.board.capAlert = true) ∧
  (Completes .capAlertLRelease s fun t =>
      t.board.capAlert = false) ∧
  (Completes .coolantFaultLAssert s fun t =>
      t.board.coolant = true ∧ (s.mainRuns = true → t.fld R.THERM_STATUS.COOLANT_PIN = 1)) ∧
  (Completes .coolantFaultLRelease s fun t =>
      t.board.coolant = false ∧ (s.mainRuns = true → t.fld R.THERM_STATUS.COOLANT_PIN = 0)) ∧
  (∀ (e : Fin 2), Completes (.elsRemoved e) s fun t =>
      t.board.els = clrBit s.board.els e) ∧
  (∀ (e : Fin 2), Completes (.elsInserted e) s fun t =>
      t.board.els = setBit s.board.els e) ∧
  (∀ (a : Fin 2), Completes (.fibreArrayUnmated a) s fun t =>
      t.board.fibre = clrBit s.board.fibre a) ∧
  (∀ (a : Fin 2), Completes (.fibreArrayMated a) s fun t =>
      t.board.fibre = setBit s.board.fibre a) ∧
  (Completes .rootPllLock s fun t =>
      t.tick = (if s.power.seqHold && s.board.sysref then 0 else s.tick) ∧ t.power.seqHold = (s.power.seqHold && !s.board.sysref)) ∧
  (Completes .sysRefclkLoss s fun t =>
      t.board.sysref = false ∧ t.power.stopped = (s.power.stopped || s.on R.CLK_STATUS.ROOT_LOCK)) ∧
  (Completes .rootPllUnlock s fun t =>
      t.power.stopped = (s.power.stopped || s.on R.CLK_STATUS.ROOT_LOCK)) ∧
  (Completes .mgmtPllFreeRun s fun t =>
      t.board.mgmtFree = (s.board.mgmtFree || !s.board.mainOn) ∧ t.board.sysref = (s.board.sysref && s.board.mainOn)) ∧
  (Completes .sysRefclkReturn s fun t =>
      t.board.sysref = true ∧ t.board.mgmtFree = false ∧ t.fld R.CLK_STATUS.SYSREF_OK = 1) ∧
  (∀ (d : Fin 8), Completes (.boostGrant d) s fun t =>
      t.fld R.CLK_STATUS.BOOST_ACTIVE =
      if s.boostAllowed d then setBit (s.fld R.CLK_STATUS.BOOST_ACTIVE) d % 256 else s.fld R.CLK_STATUS.BOOST_ACTIVE)

/-- What the end of a power transition, of a drain and of a reset, and the loss of the host port, do. -/
def Obligations.ResetProgressCommands : Prop := ∀ s : State,
  (Completes .p1Entry s fun t =>
      t.power.p1Pending = (s.power.p1Pending && !s.p1Ready) ∧
      (s.power.p1Pending = true → s.p1Ready = true → t.fld R.DEV_PWR.CURRENT = 1)) ∧
  (Completes .powerTransitionDone s fun t =>
      (s.power.goingTo = some 2 → s.on R.DEV_PWR.BUSY = true → s.power.heldTarget = none →
      t.power.goingTo = none ∧ t.fld R.DEV_PWR.CURRENT = 2 ∧ t.fld R.DEV_PWR.BUSY = 0)) ∧
  (∀ (n : Fin 16), Completes (.flr n) s fun t =>
      t = (s.bistAbortCtx n).wake.requestReset 3 n) ∧
  (∀ (n : Fin 16), Completes (.secondaryBusReset n) s fun t =>
      t = (s.bistAbortCtx n).wake.requestReset 3 n) ∧
  (Completes .hostPortLinkDown s fun t =>
      (s.wharf.up = false → t = s) ∧ (s.wharf.up = true → t = (List.range 16).foldl (fun u n => u.ldReset 3 n)
      ((s.modWharf fun w => { w with up := false }).bump R.WHARF_LINK_DOWNS.COUNT 0))) ∧
  (∀ (n : Fin 16), Completes (.resetDrainEnd n) s fun t =>
      ∀ r, (s.resets.find? fun r => decide (3 ≤ r.domain) && decide (r.inst = n.val) && !r.drained) = some r →
      t.resets = s.resets.map fun q => if q.domain = r.domain ∧ q.inst = r.inst then { q with drained := true } else q) ∧
  (∀ (d n : Nat), s.haltBegun = false → (∃ r ∈ s.resets, r.domain = d ∧ r.inst = n) → Completes (.resetDone d n) s fun t =>
      t.resets = s.resets.filter fun q => !(decide (q.domain = d) && decide (q.inst = n))) ∧
  (∀ (n : Fin 16), Completes (.ldResetStuck n) s fun t =>
      t = (if s.on R.LD_STATUS.RESET_BUSY n then s.halt (.page .ld n) 0x5803 (w4 [n]) else s))

/-- The boot sequence: reading the image, training and zero-filling the HBM, ready, and the ends of LOAD and
FLASH_WRITE. -/
def Obligations.BootCommands : Prop := ∀ s : State,
  (∀ (ok : Bool), s.on R.CLK_STATUS.ROOT_LOCK = true → s.fld R.BOOT_STATUS.STAGE = 1 → s.sec.fuses.life < 4 → Completes (.flashImageReadDone ok) s fun t =>
      (ok = true → s.power.flashBad = false → s.imageCause s.flashImage = 0 → t = s.startImage s.flashImage) ∧
      (ok = false → t.power.recovery = true)) ∧
  (∀ (failed : BitVec 32), s.fld R.BOOT_STATUS.STAGE = 3 → Completes (.hbmTrainingDone failed) s fun t =>
      t.power.hbmExcluded = s.power.hbmExcluded ||| bitMap 32 fun i => bit failed.toNat i) ∧
  (s.fld R.BOOT_STATUS.STAGE = 3 → Completes .hbmZeroFillDone s fun t =>
      t.hbm = [] ∧ t.power.hbmFilled = true ∧ t.fld R.BOOT_STATUS.STAGE = 4) ∧
  (s.fld R.BOOT_STATUS.STAGE = 4 → Completes .bootReady s fun t =>
      t.power.retryStatus = false ∧ t.basin = []) ∧
  (∀ (d : Option (List Byte)), s.power.recovery = true → s.fld R.BOOT_MBOX_STATUS.STATE = 1 → Completes (.recoveryLoadDone d) s fun t =>
      (d = none → t.fld R.BOOT_MBOX_STATUS.STATE = 3 ∧ t.fld R.BOOT_MBOX_STATUS.CAUSE = 6 ∧ t.fld R.BOOT_STATUS.FAIL_CAUSE = 6) ∧
      ∀ img, d = some img → s.imageCause img = 0 → t.power.recovery = false ∧ t.power.image = img) ∧
  (∀ (d : Option (List Byte)), s.power.running = true → s.fld R.BOOT_MBOX_STATUS.STATE = 1 → Completes (.flashWriteDone d) s fun t =>
      (d = none → t.fld R.BOOT_MBOX_STATUS.STATE = 3 ∧ t.fld R.BOOT_MBOX_STATUS.CAUSE = 6 ∧ t.power.flash = s.power.flash) ∧
      ∀ img, d = some img → s.imageCause img = 0 → t.power.flash = tsetAll 0 s.power.flash 0 img ∧ t.fld R.BOOT_MBOX_STATUS.STATE = 2)

/-- What each private I3C command does: addresses, caps, the heartbeat, the status block, the wake and the error
count. -/
def Obligations.I3cCommands : Prop := ∀ s : State,
  (∀ (addr : BitVec 7), Completes (.i3cEntdaa addr) s fun t =>
      t.board.i3cAddr = if s.i3cUp then some addr else s.board.i3cAddr) ∧
  (∀ (watts : BitVec 16), Completes (.setCap watts) s fun t =>
      t.fld R.PWR_CAP.CAP =
      if s.i3cPrivate && capInRange watts then watts.toNat else s.fld R.PWR_CAP.CAP) ∧
  (∀ (watts : BitVec 16), Completes (.setAlertCap watts) s fun t =>
      t.fld R.PWR_ALERT_CAP.CAP =
      if s.i3cPrivate && capInRange watts then watts.toNat else s.fld R.PWR_ALERT_CAP.CAP) ∧
  (Completes .heartbeat s fun t =>
      t.fld R.PWR_STATUS.ORPHAN = (if s.i3cPrivate then 0 else s.fld R.PWR_STATUS.ORPHAN) ∧
      t.weir.armed = (s.weir.armed || (s.i3cPrivate && s.on R.PWR_ORPHAN.EN))) ∧
  (∀ (watts timeout : BitVec 16), Completes (.setOrphan watts timeout) s fun t =>
      t.fld R.PWR_ORPHAN.TIMEOUT =
      if s.i3cPrivate && capInRange watts && decide (timeout ≠ 0) then timeout.toNat else s.fld R.PWR_ORPHAN.TIMEOUT) ∧
  (Completes .readStatus s fun t =>
      t.out = if s.i3cUp && s.board.i3cAddr.isSome then
      s.out ++ [.answer "i3c" (if s.i3cPrivate then s.heartbeat else s).statusBlock] else s.out) ∧
  (Completes .i3cWake s fun t =>
      t.board.p3 = (s.board.p3 && !s.i3cPrivate)) ∧
  (Completes .i3cInvalidWrite s fun t =>
      t.fld R.PWR_I3C_ERRORS.COUNT =
      if s.i3cPrivate then (s.fld R.PWR_I3C_ERRORS.COUNT + 1) % 2 ^ 32 else s.fld R.PWR_I3C_ERRORS.COUNT)

/-- What the test access port shifts out, and that DBG_ACCESS under an open scope is one register access. -/
def Obligations.JtagCommands : Prop := ∀ s : State,
  (Completes .jtagIdcode s fun t =>
      t.out = s.out ++ [.answer "TDO" (leBytes (1 + 2 * (s.sec.fuses.jtagId % 2048) + 2 ^ 12 * 0x9600 + 2 ^ 28) 4)]) ∧
  (∀ (n : BitVec 16), Completes (.jtagBoundaryScan n) s fun t =>
      t.out = s.out ++ [.answer "TDO" (freeBytes s.free n.toNat)] ∧ t.free = s.free + 1) ∧
  (∀ (bits : List Bool), Completes (.jtagBypass bits) s fun t =>
      t.out = s.out ++ [.answer "TDO" ((([false] ++ bits).take bits.length).map bitByte)]) ∧
  (∀ (chain : BitVec 8) (bits : List Bool), Completes (.scanN chain bits) s fun t =>
      t.out = s.out ++ [.answer "TDO"
      (if s.scope 6 then freeBytes s.free bits.length else (([false] ++ bits).take bits.length).map bitByte)]) ∧
  (∀ (a : Nat) (v : BitVec 32) (wr : Bool), s.jtagOpen = true → s.jtagBar (a % 2 ^ 32) = 0 → s.board.mgmtUp = true → Completes (.dbgAccess (BitVec.ofNat 72 (v.toNat + 2 ^ 32 * (a % 2 ^ 32) + 2 ^ 64 * b2n wr))) s fun t =>
      t = if wr then s.busWrite 17 (a % 2 ^ 32) v.toNat 15 [] .ok
      else (s.busRead 17 (a % 2 ^ 32)).2.emit (.regData 17 (a % 2 ^ 32) (BitVec.ofNat 32 (s.busRead 17 (a % 2 ^ 32)).1)))

/-- What the SPDM responder of LD0, the CXL mailbox of an LD and the fabric manager's commands answer. A responder
that does not serve leaves the outputs as they are; a mailbox of an LD that is not served completes with Unsupported
Request. -/
def Obligations.AttestationAndMailboxCommands : Prop := ∀ s : State,
  (Completes .getVersion s fun t =>
      t.out = if s.spdmServes then s.out ++ [.answer "SPDM VERSION" [0x12]] else s.out) ∧
  (Completes .getCapabilities s fun t =>
      t.out = if s.spdmServes then s.out ++ [.answer "SPDM CAPABILITIES CERT CHAL MEAS_SIG MEAS_FRESH" []] else s.out) ∧
  (Completes .negotiateAlgorithms s fun t =>
      t.out = if s.spdmServes then s.out ++ [.answer "SPDM ALGORITHMS ECDSA_P521 SHA_512 SHA_512" []] else s.out) ∧
  (Completes .getDigests s fun t =>
      t.out = if s.spdmServes then s.out ++ [.answer "SPDM DIGESTS" (Config.sha512 (s.sec.certs ++ s.sec.aliasCert))] else s.out) ∧
  (∀ (slot : BitVec 3) (offset length : BitVec 16), Completes (.getCertificate slot offset length) s fun t =>
      t.out =
      if s.spdmServes then s.out ++ [if slot = 0 then .answer "SPDM CERTIFICATE"
      (((s.sec.certs ++ s.sec.aliasCert).drop offset.toNat).take length.toNat) else .answer "SPDM ERROR UnsupportedRequest" []] else s.out) ∧
  (∀ (tr : List Byte), Completes (.challenge tr) s fun t =>
      t.out = if s.spdmServes then s.out ++ [if s.hasIdentity then .answer "SPDM CHALLENGE_AUTH"
      (freeBytes s.free 32 ++ Config.sha512 s.certChain ++ Config.ecdsaSign s.sec.aliasKey (tr ++ (freeBytes s.free 32 ++ Config.sha512 s.certChain)))
      else .answer "SPDM ERROR UnsupportedRequest" []] else s.out) ∧
  (∀ (i : BitVec 8) (tr : List Byte), Completes (.getMeasurements i false tr) s fun t =>
      t.out = if s.spdmServes then s.out ++ [
      if i = 0 then .answer "SPDM MEASUREMENTS" [7]
      else if i = 0xFF then .answer "SPDM MEASUREMENTS" ([1, 2, 3, 4, 5, 6, 7].flatMap fun k => leBytes k 1 ++ Config.sha512 (s.measured k))
      else if 7 < i.toNat then .answer "SPDM ERROR InvalidRequest" []
      else .answer "SPDM MEASUREMENTS" (leBytes i.toNat 1 ++ Config.sha512 (s.measured i.toNat))] else s.out) ∧
  (∀ (ld : Fin 16), Completes (.identifyMemoryDevice ld) s fun t =>
      t.out = s.out ++ [if s.ldServes ld then
      .answer "CXL Identify Memory Device" (leBytes hbmSize 8 ++ leBytes hbmSize 8) else .unsupported ld]) ∧
  (∀ (ld : Fin 16), Completes (.getPartitionInfo ld) s fun t =>
      t.out = s.out ++ [if s.ldServes ld then
      .answer "CXL Get Partition Info" (leBytes hbmSize 8 ++ leBytes 0 8) else .unsupported ld]) ∧
  (∀ (ld : Fin 16), Completes (.getSupportedLogs ld) s fun t =>
      t.out = s.out ++ [if s.ldServes ld then
      .answer "CXL Get Supported Logs: Command Effects Log" [] else .unsupported ld]) ∧
  (∀ (ld : Fin 16) (ce : Bool), Completes (.getLog ld ce) s fun t =>
      t.out = s.out ++ [if s.ldServes ld then (if ce then .answer
      "CXL Command Effects Log: Identify Memory Device, Get Partition Info, Get Supported Logs, Get Log" [] else .answer "CXL Unsupported" [])
      else .unsupported ld]) ∧
  (Completes .getLdInfo s fun t =>
      t.out = if s.wharf.up then s.out ++ [.answer "FM Get LD Info" (leBytes hbmSize 8 ++ leBytes 16 2)] else s.out) ∧
  (Completes .getLdAllocations s fun t =>
      t.out = if s.wharf.up then
      s.out ++ [.answer "FM Get LD Allocations" (leBytes 16 2 ++ freeBytes s.free 256)] else s.out)

/-- What an accepted token of each operation does to the fuses, the scopes and the memories. -/
def Obligations.TokenCommands : Prop := ∀ s : State,
  (Completes .tokenOpen s fun t =>
      t.sec.opening = (if s.tokenWaits 0 && clearsFirst (tokScopes s.sec.token % 128) then
      some (tokScopes s.sec.token % 128, tokArg s.sec.token % 65536) else s.sec.opening)) ∧
  (Completes .tokenTransition s fun t =>
      t.sec.fuses.life = if s.tokenWaits 1 then max s.sec.fuses.life (tokArg s.sec.token) else s.sec.fuses.life) ∧
  (Completes .tokenEnroll s fun t =>
      t.sec.fuses.owners = if s.tokenWaits 2 then s.sec.fuses.owners.set (tokSlot s.sec.token - 1)
      ⟨(s.sec.token.drop 0x40).take 64, true, bit (tokArg s.sec.token) 8, bit (tokArg s.sec.token) 9, false⟩ else s.sec.fuses.owners) ∧
  (Completes .tokenRevoke s fun t =>
      t.sec.fuses.owners = if s.tokenWaits 3 then s.sec.fuses.owners.set (tokSlot s.sec.token - 1)
      { s.sec.fuses.owner (tokSlot s.sec.token) with revoked := true } else s.sec.fuses.owners) ∧
  (Completes .tokenProvision s fun t =>
      (t.sec.fuses.secretWritten = (s.sec.fuses.secretWritten || s.tokenWaits 4)) ∧
      t.sec.fuses.secret = if s.tokenWaits 4 then freeBytes s.free 32 else s.sec.fuses.secret) ∧
  (Completes .scopeClearDone s fun t =>
      t.sec.opening = none ∧ t.hbm = if s.sec.opening.any fun o => bit o.1 6 || bit o.1 1 then [] else s.hbm)

/-- What the control tick, the samples, the guards, the thermal trip and the input sag do to the limit, the meters
and the status bits. -/
def Obligations.WeirCommands : Prop := ∀ s : State,
  (∀ (pest matrix : Nat) (issued : List Nat), (s.on R.BIST_STATUS.BUSY = false ∨ s.power.heldTarget = none) → Completes (.controlTick pest matrix issued) s fun t =>
      t.weir.lim = (if s.mainRuns && !s.haltBegun then s.nextLimit.1 else s.weir.lim) ∧
      t.weir.pest = if s.mainRuns && !s.haltBegun then pest else s.weir.pest) ∧
  (∀ (mv ma : Nat) (shares : List (Nat × Nat)) (other : Nat), Completes (.powerSample mv ma shares other) s fun t =>
      t.fld R.PWR_MEAS.MEAS = (if s.mainRuns then min 65535 (mv * ma / 100 / 1000) else s.fld R.PWR_MEAS.MEAS) ∧
      t.weir.gainMeas = if s.mainRuns then s.weir.gainMeas + 100 * (mv * ma / 100) else s.weir.gainMeas) ∧
  (Completes .gainUpdate s fun t =>
      t.fld R.PWR_GAIN.G = if s.mainRuns && decide (s.weir.gainRaw ≠ 0) && !s.on R.PWR_STATUS.DIVERGED then
      max 8192 (min 32768 (max (s.fld R.PWR_GAIN.G - s.fld R.PWR_GAIN.G / 10)
      (min (s.fld R.PWR_GAIN.G + s.fld R.PWR_GAIN.G / 10) (16384 * s.weir.gainMeas / s.weir.gainRaw)))) else s.fld R.PWR_GAIN.G) ∧
  (∀ (avg : Nat), Completes (.currentGuardTrip avg) s fun t =>
      t.fld R.WEIR_STATUS.CURRENT_HOLD =
      (if s.mainRuns && decide (2400 < avg) then 1 else s.fld R.WEIR_STATUS.CURRENT_HOLD) ∧
      t.fld R.CLK_STATUS.BOOST_ACTIVE = (if s.mainRuns && decide (2400 < avg) then 0 else s.fld R.CLK_STATUS.BOOST_ACTIVE) ∧
      ∀ d : Fin 8, t.weirN d = if s.mainRuns && decide (2400 < avg) then max 1 (s.weirN d / 2) % 128 else s.weirN d) ∧
  (Completes .currentHoldEnd s fun t =>
      t.fld R.WEIR_STATUS.CURRENT_HOLD = 0 ∧ t.weir.ceiling = []) ∧
  (∀ (cap : BitVec 12) (req : Fin 18), s.takesWrite req .pwr 0 0x100 = true → Completes (.pwrCapWrite req cap) s fun t =>
      t = if 700 ≤ cap.toNat ∧ cap.toNat ≤ 2000 then s.setCap cap.toNat 1 else s.kind1 .pwr 0 0x100 0 req) ∧
  (Completes .orphanTimeout s fun t =>
      t.fld R.PWR_STATUS.ORPHAN =
      if s.weir.armed && s.on R.PWR_ORPHAN.EN && !s.on R.PWR_STATUS.ORPHAN && s.board.mgmtUp then 1 else s.fld R.PWR_STATUS.ORPHAN) ∧
  (∀ (dies iods hbms oes : List Int) (inlet outlet : Int), (s.on R.BIST_STATUS.BUSY = false ∨ s.power.heldTarget = none) → Completes (.tempSample dies iods hbms oes inlet outlet) s fun t =>
      t.fld R.THERM_COOLANT.INLET = (if s.board.mgmtUp then twos 12 inlet else s.fld R.THERM_COOLANT.INLET) ∧
      t.fld R.THERM_COOLANT.OUTLET = (if s.board.mgmtUp then twos 12 outlet else s.fld R.THERM_COOLANT.OUTLET) ∧
      t.on R.THERM_STATUS.TRIP = (s.on R.THERM_STATUS.TRIP || (s.board.mgmtUp && s.mainRuns && (tripOf dies iods hbms oes).isSome))) ∧
  (Completes .tripHaltComplete s fun t =>
      t.board.tripHalting = false ∧ t.board.thermTrip = (s.board.thermTrip || s.board.tripHalting)) ∧
  (Completes .tripPowerOff s fun t =>
      t.board.mainOn = (s.board.mainOn && !s.board.thermTrip)) ∧
  (Completes .coolantInletHigh s fun t =>
      t.on R.THERM_STATUS.COOLANT = (s.on R.THERM_STATUS.COOLANT || s.mainRuns) ∧
      t.fld R.THERM_STATUS.INLET_HIGH = if s.mainRuns then 1 else s.fld R.THERM_STATUS.INLET_HIGH) ∧
  (Completes .coolantOutletHigh s fun t =>
      t.on R.THERM_STATUS.COOLANT = (s.on R.THERM_STATUS.COOLANT || s.mainRuns) ∧
      t.fld R.THERM_STATUS.OUTLET_HIGH = if s.mainRuns then 1 else s.fld R.THERM_STATUS.OUTLET_HIGH) ∧
  (Completes .coolantFaultEnd s fun t =>
      t.on R.THERM_STATUS.COOLANT = (s.on R.THERM_STATUS.COOLANT && decide (s.coolantBits ≠ 0))) ∧
  (∀ (mv : Nat), Completes (.inputSag mv) s fun t =>
      t.on R.PWR_STATUS.SAG = (s.on R.PWR_STATUS.SAG || s.mainRuns)) ∧
  (Completes .sagClear s fun t =>
      t.fld R.PWR_STATUS.SAG = 0) ∧
  (Completes .powerPolicyPeriod s fun t =>
      t = if s.mainRuns && s.hostAssisted .weir 0 then s.powerDuty 0 else s)

/-- Each integer operation of the S slot leaves its result in RD and nothing else changed. In a bundle of which it is
the only operation, in every state in which the core takes the bundle. Division by zero gives all ones, a remainder
by zero the dividend, and the most negative value divided by −1 itself. -/
def Obligations.ScalarIntegerCommands : Prop := ∀ s : State,
  (∀ (core : Fin 512) (rd rs1 rs2 rs3 : BitVec 5) (e : Surround), s.takesBundle core (withS (bareBundle e) (.r .add rd rs1 rs2 rs3)) = true → Completes (.add core rd rs1 rs2 rs3 (bareBundle e)) s fun t =>
      s.retiresS t core rd (((s.core core).s rs1) + ((s.core core).s rs2))) ∧
  (∀ (core : Fin 512) (rd rs1 rs2 rs3 : BitVec 5) (e : Surround), s.takesBundle core (withS (bareBundle e) (.r .sub rd rs1 rs2 rs3)) = true → Completes (.sub core rd rs1 rs2 rs3 (bareBundle e)) s fun t =>
      s.retiresS t core rd (((s.core core).s rs1) - ((s.core core).s rs2))) ∧
  (∀ (core : Fin 512) (rd rs1 rs2 rs3 : BitVec 5) (e : Surround), s.takesBundle core (withS (bareBundle e) (.r .mul rd rs1 rs2 rs3)) = true → Completes (.mul core rd rs1 rs2 rs3 (bareBundle e)) s fun t =>
      s.retiresS t core rd (((s.core core).s rs1) * ((s.core core).s rs2))) ∧
  (∀ (core : Fin 512) (rd rs1 rs2 rs3 : BitVec 5) (e : Surround), s.takesBundle core (withS (bareBundle e) (.r .mulh rd rs1 rs2 rs3)) = true → Completes (.mulh core rd rs1 rs2 rs3 (bareBundle e)) s fun t =>
      s.retiresS t core rd (BitVec.ofInt 64 (((s.core core).s rs1).toInt * ((s.core core).s rs2).toInt / 2 ^ 64))) ∧
  (∀ (core : Fin 512) (rd rs1 rs2 rs3 : BitVec 5) (e : Surround), s.takesBundle core (withS (bareBundle e) (.r .mulhu rd rs1 rs2 rs3)) = true → Completes (.mulhu core rd rs1 rs2 rs3 (bareBundle e)) s fun t =>
      s.retiresS t core rd (BitVec.ofNat 64 (((s.core core).s rs1).toNat * ((s.core core).s rs2).toNat / 2 ^ 64))) ∧
  (∀ (core : Fin 512) (rd rs1 rs2 rs3 : BitVec 5) (e : Surround), s.takesBundle core (withS (bareBundle e) (.r .div rd rs1 rs2 rs3)) = true → Completes (.div core rd rs1 rs2 rs3 (bareBundle e)) s fun t =>
      s.retiresS t core rd (if ((s.core core).s rs2) = 0#64 then BitVec.allOnes 64 else BitVec.sdiv ((s.core core).s rs1) ((s.core core).s rs2))) ∧
  (∀ (core : Fin 512) (rd rs1 rs2 rs3 : BitVec 5) (e : Surround), s.takesBundle core (withS (bareBundle e) (.r .divu rd rs1 rs2 rs3)) = true → Completes (.divu core rd rs1 rs2 rs3 (bareBundle e)) s fun t =>
      s.retiresS t core rd (if ((s.core core).s rs2) = 0#64 then BitVec.allOnes 64 else BitVec.udiv ((s.core core).s rs1) ((s.core core).s rs2))) ∧
  (∀ (core : Fin 512) (rd rs1 rs2 rs3 : BitVec 5) (e : Surround), s.takesBundle core (withS (bareBundle e) (.r .rem rd rs1 rs2 rs3)) = true → Completes (.rem core rd rs1 rs2 rs3 (bareBundle e)) s fun t =>
      s.retiresS t core rd (BitVec.srem ((s.core core).s rs1) ((s.core core).s rs2))) ∧
  (∀ (core : Fin 512) (rd rs1 rs2 rs3 : BitVec 5) (e : Surround), s.takesBundle core (withS (bareBundle e) (.r .remu rd rs1 rs2 rs3)) = true → Completes (.remu core rd rs1 rs2 rs3 (bareBundle e)) s fun t =>
      s.retiresS t core rd (BitVec.umod ((s.core core).s rs1) ((s.core core).s rs2))) ∧
  (∀ (core : Fin 512) (rd rs1 rs2 rs3 : BitVec 5) (e : Surround), s.takesBundle core (withS (bareBundle e) (.r .and rd rs1 rs2 rs3)) = true → Completes (.andOrXor core 0 rd rs1 rs2 rs3 (bareBundle e)) s fun t =>
      s.retiresS t core rd (((s.core core).s rs1) &&& ((s.core core).s rs2))) ∧
  (∀ (core : Fin 512) (rd rs1 rs2 rs3 : BitVec 5) (e : Surround), s.takesBundle core (withS (bareBundle e) (.r .or rd rs1 rs2 rs3)) = true → Completes (.andOrXor core 1 rd rs1 rs2 rs3 (bareBundle e)) s fun t =>
      s.retiresS t core rd (((s.core core).s rs1) ||| ((s.core core).s rs2))) ∧
  (∀ (core : Fin 512) (rd rs1 rs2 rs3 : BitVec 5) (e : Surround), s.takesBundle core (withS (bareBundle e) (.r .xor rd rs1 rs2 rs3)) = true → Completes (.andOrXor core 2 rd rs1 rs2 rs3 (bareBundle e)) s fun t =>
      s.retiresS t core rd (((s.core core).s rs1) ^^^ ((s.core core).s rs2))) ∧
  (∀ (core : Fin 512) (rd rs1 rs2 rs3 : BitVec 5) (e : Surround), s.takesBundle core (withS (bareBundle e) (.r .sll rd rs1 rs2 rs3)) = true → Completes (.sllSrlSra core 0 rd rs1 rs2 rs3 (bareBundle e)) s fun t =>
      s.retiresS t core rd (((s.core core).s rs1) <<< (((s.core core).s rs2).toNat % 64))) ∧
  (∀ (core : Fin 512) (rd rs1 rs2 rs3 : BitVec 5) (e : Surround), s.takesBundle core (withS (bareBundle e) (.r .srl rd rs1 rs2 rs3)) = true → Completes (.sllSrlSra core 1 rd rs1 rs2 rs3 (bareBundle e)) s fun t =>
      s.retiresS t core rd (((s.core core).s rs1) >>> (((s.core core).s rs2).toNat % 64))) ∧
  (∀ (core : Fin 512) (rd rs1 rs2 rs3 : BitVec 5) (e : Surround), s.takesBundle core (withS (bareBundle e) (.r .sra rd rs1 rs2 rs3)) = true → Completes (.sllSrlSra core 2 rd rs1 rs2 rs3 (bareBundle e)) s fun t =>
      s.retiresS t core rd (((s.core core).s rs1).sshiftRight (((s.core core).s rs2).toNat % 64))) ∧
  (∀ (core : Fin 512) (rd rs1 rs2 rs3 : BitVec 5) (e : Surround), s.takesBundle core (withS (bareBundle e) (.r .slt rd rs1 rs2 rs3)) = true → Completes (.sltSltu core 0 rd rs1 rs2 rs3 (bareBundle e)) s fun t =>
      s.retiresS t core rd (if ((s.core core).s rs1).toInt < ((s.core core).s rs2).toInt then 1#64 else 0#64)) ∧
  (∀ (core : Fin 512) (rd rs1 rs2 rs3 : BitVec 5) (e : Surround), s.takesBundle core (withS (bareBundle e) (.r .sltu rd rs1 rs2 rs3)) = true → Completes (.sltSltu core 1 rd rs1 rs2 rs3 (bareBundle e)) s fun t =>
      s.retiresS t core rd (if ((s.core core).s rs1).toNat < ((s.core core).s rs2).toNat then 1#64 else 0#64)) ∧
  (∀ (core : Fin 512) (rd rs1 rs2 rs3 : BitVec 5) (e : Surround), s.takesBundle core (withS (bareBundle e) (.r .min rd rs1 rs2 rs3)) = true → Completes (.minMaxMinuMaxu core 0 rd rs1 rs2 rs3 (bareBundle e)) s fun t =>
      s.retiresS t core rd (BitVec.ofInt 64 (min ((s.core core).s rs1).toInt ((s.core core).s rs2).toInt))) ∧
  (∀ (core : Fin 512) (rd rs1 rs2 rs3 : BitVec 5) (e : Surround), s.takesBundle core (withS (bareBundle e) (.r .max rd rs1 rs2 rs3)) = true → Completes (.minMaxMinuMaxu core 1 rd rs1 rs2 rs3 (bareBundle e)) s fun t =>
      s.retiresS t core rd (BitVec.ofInt 64 (max ((s.core core).s rs1).toInt ((s.core core).s rs2).toInt))) ∧
  (∀ (core : Fin 512) (rd rs1 rs2 rs3 : BitVec 5) (e : Surround), s.takesBundle core (withS (bareBundle e) (.r .minu rd rs1 rs2 rs3)) = true → Completes (.minMaxMinuMaxu core 2 rd rs1 rs2 rs3 (bareBundle e)) s fun t =>
      s.retiresS t core rd (BitVec.ofNat 64 (min ((s.core core).s rs1).toNat ((s.core core).s rs2).toNat))) ∧
  (∀ (core : Fin 512) (rd rs1 rs2 rs3 : BitVec 5) (e : Surround), s.takesBundle core (withS (bareBundle e) (.r .maxu rd rs1 rs2 rs3)) = true → Completes (.minMaxMinuMaxu core 3 rd rs1 rs2 rs3 (bareBundle e)) s fun t =>
      s.retiresS t core rd (BitVec.ofNat 64 (max ((s.core core).s rs1).toNat ((s.core core).s rs2).toNat))) ∧
  (∀ (core : Fin 512) (rd rs1 rs2 rs3 : BitVec 5) (e : Surround), s.takesBundle core (withS (bareBundle e) (.r .sel rd rs1 rs2 rs3)) = true → Completes (.sel core rd rs1 rs2 rs3 (bareBundle e)) s fun t =>
      s.retiresS t core rd (if ((s.core core).s rs3) = 0#64 then ((s.core core).s rs2) else ((s.core core).s rs1))) ∧
  (∀ (core : Fin 512) (rd rs1 : BitVec 5) (imm : BitVec 32) (e : Surround), s.takesBundle core (withS (bareBundle e) (.i .addi rd rs1 imm)) = true → Completes (.addi core rd rs1 imm (bareBundle e)) s fun t =>
      s.retiresS t core rd (((s.core core).s rs1) + imm.signExtend 64)) ∧
  (∀ (core : Fin 512) (rd rs1 : BitVec 5) (imm : BitVec 32) (e : Surround), s.takesBundle core (withS (bareBundle e) (.i .andi rd rs1 imm)) = true → Completes (.andiOriXori core 0 rd rs1 imm (bareBundle e)) s fun t =>
      s.retiresS t core rd (((s.core core).s rs1) &&& imm.signExtend 64)) ∧
  (∀ (core : Fin 512) (rd rs1 : BitVec 5) (imm : BitVec 32) (e : Surround), s.takesBundle core (withS (bareBundle e) (.i .ori rd rs1 imm)) = true → Completes (.andiOriXori core 1 rd rs1 imm (bareBundle e)) s fun t =>
      s.retiresS t core rd (((s.core core).s rs1) ||| imm.signExtend 64)) ∧
  (∀ (core : Fin 512) (rd rs1 : BitVec 5) (imm : BitVec 32) (e : Surround), s.takesBundle core (withS (bareBundle e) (.i .xori rd rs1 imm)) = true → Completes (.andiOriXori core 2 rd rs1 imm (bareBundle e)) s fun t =>
      s.retiresS t core rd (((s.core core).s rs1) ^^^ imm.signExtend 64)) ∧
  (∀ (core : Fin 512) (rd rs1 : BitVec 5) (imm : BitVec 32) (e : Surround), s.takesBundle core (withS (bareBundle e) (.i .slli rd rs1 imm)) = true → Completes (.slliSrliSrai core 0 rd rs1 imm (bareBundle e)) s fun t =>
      s.retiresS t core rd (((s.core core).s rs1) <<< (imm.toNat % 64))) ∧
  (∀ (core : Fin 512) (rd rs1 : BitVec 5) (imm : BitVec 32) (e : Surround), s.takesBundle core (withS (bareBundle e) (.i .srli rd rs1 imm)) = true → Completes (.slliSrliSrai core 1 rd rs1 imm (bareBundle e)) s fun t =>
      s.retiresS t core rd (((s.core core).s rs1) >>> (imm.toNat % 64))) ∧
  (∀ (core : Fin 512) (rd rs1 : BitVec 5) (imm : BitVec 32) (e : Surround), s.takesBundle core (withS (bareBundle e) (.i .srai rd rs1 imm)) = true → Completes (.slliSrliSrai core 2 rd rs1 imm (bareBundle e)) s fun t =>
      s.retiresS t core rd (((s.core core).s rs1).sshiftRight (imm.toNat % 64))) ∧
  (∀ (core : Fin 512) (rd rs1 : BitVec 5) (imm : BitVec 32) (e : Surround), s.takesBundle core (withS (bareBundle e) (.i .slti rd rs1 imm)) = true → Completes (.slti core rd rs1 imm (bareBundle e)) s fun t =>
      s.retiresS t core rd (if ((s.core core).s rs1).toInt < imm.toInt then 1#64 else 0#64)) ∧
  (∀ (core : Fin 512) (rd : BitVec 5) (imm : BitVec 48) (e : Surround), s.takesBundle core (withS (bareBundle e) (.li rd imm)) = true → Completes (.li core rd imm (bareBundle e)) s fun t =>
      s.retiresS t core rd (imm.signExtend 64)) ∧
  (∀ (core : Fin 512) (rd : BitVec 5) (imm : BitVec 48) (e : Surround), s.takesBundle core (withS (bareBundle e) (.lih rd imm)) = true → Completes (.lih core rd imm (bareBundle e)) s fun t =>
      s.retiresS t core rd (BitVec.ofNat 64 (2 ^ 48 * (imm.toNat % 2 ^ 16) + ((s.core core).s rd).toNat % 2 ^ 48))) ∧
  (∀ (core : Fin 512) (rd : BitVec 5) (e : Surround), s.takesBundle core (withS (bareBundle e) (.rdtick rd 0#5 0#5 0#5)) = true → Completes (.rdtick core rd (bareBundle e)) s fun t =>
      s.retiresS t core rd (BitVec.ofNat 64 s.tick)) ∧
  (∀ (core : Fin 512) (rd : BitVec 5) (imm : BitVec 32) (e : Surround), s.takesBundle core (withS (bareBundle e) (.rdtag rd 0#5 imm)) = true → Completes (.rdtag core rd imm (bareBundle e)) s fun t =>
      s.retiresS t core rd (BitVec.ofNat 64 (b2n ((s.core core).tag (imm.toNat % 64)).busy +
      2 * ((s.core core).tag (imm.toNat % 64)).status + 32 * b2n ((s.core core).tag (imm.toNat % 64)).wcoll))) ∧
  (∀ (core : Fin 512) (rd : BitVec 5) (index : BitVec 8) (e : Surround), s.takesBundle core (withS (bareBundle e) (.rdgauge rd index)) = true → Completes (.rdgauge core rd index (bareBundle e)) s fun t =>
      s.retiresS t core rd (if bit (s.fld R.GAUGE_USER_EN.EN) (s.ctxOf core) = true then
      BitVec.ofNat 64 ((s.core core).gaugeWord index.toNat) else 0#64))

/-- Each FP32 operation of the S slot leaves its rounded result in RD[31:0], with RD[63:32] zero, and nothing else
changed. A result is the exact value rounded to nearest, ties to even; a NaN that an operation gives has free bits
(log entry 2), those of the bundle's own draw. Minimum and maximum order −0 below +0 (log entry 5, the model's
choice). -/
def Obligations.ScalarFloatCommands : Prop := ∀ s : State,
  (∀ (core : Fin 512) (rd rs1 rs2 rs3 : BitVec 5) (e : Surround), s.takesBundle core (withS (bareBundle e) (.r .fadd rd rs1 rs2 rs3)) = true → Completes (.faddFsubFmulFdiv core 0 rd rs1 rs2 rs3 (bareBundle e)) s fun t =>
      s.retiresS t core rd (BitVec.ofNat 64 (encodeF fp32 ((decodeF fp32 (((s.core core).s rs1).toNat % 2 ^ 32)).add (decodeF fp32 (((s.core core).s rs2).toNat % 2 ^ 32))) (Config.free (s.slotDraw core 0) 0).toNat))) ∧
  (∀ (core : Fin 512) (rd rs1 rs2 rs3 : BitVec 5) (e : Surround), s.takesBundle core (withS (bareBundle e) (.r .fsub rd rs1 rs2 rs3)) = true → Completes (.faddFsubFmulFdiv core 1 rd rs1 rs2 rs3 (bareBundle e)) s fun t =>
      s.retiresS t core rd (BitVec.ofNat 64 (encodeF fp32 ((decodeF fp32 (((s.core core).s rs1).toNat % 2 ^ 32)).add (decodeF fp32 (((s.core core).s rs2).toNat % 2 ^ 32)).neg) (Config.free (s.slotDraw core 0) 0).toNat))) ∧
  (∀ (core : Fin 512) (rd rs1 rs2 rs3 : BitVec 5) (e : Surround), s.takesBundle core (withS (bareBundle e) (.r .fmul rd rs1 rs2 rs3)) = true → Completes (.faddFsubFmulFdiv core 2 rd rs1 rs2 rs3 (bareBundle e)) s fun t =>
      s.retiresS t core rd (BitVec.ofNat 64 (encodeF fp32 ((decodeF fp32 (((s.core core).s rs1).toNat % 2 ^ 32)).mul (decodeF fp32 (((s.core core).s rs2).toNat % 2 ^ 32))) (Config.free (s.slotDraw core 0) 0).toNat))) ∧
  (∀ (core : Fin 512) (rd rs1 rs2 rs3 : BitVec 5) (e : Surround), s.takesBundle core (withS (bareBundle e) (.r .fdiv rd rs1 rs2 rs3)) = true → Completes (.faddFsubFmulFdiv core 3 rd rs1 rs2 rs3 (bareBundle e)) s fun t =>
      s.retiresS t core rd (BitVec.ofNat 64 (divF fp32 (decodeF fp32 (((s.core core).s rs1).toNat % 2 ^ 32)) (decodeF fp32 (((s.core core).s rs2).toNat % 2 ^ 32)) (Config.free (s.slotDraw core 0) 0).toNat))) ∧
  (∀ (core : Fin 512) (rd rs1 rs2 rs3 : BitVec 5) (e : Surround), s.takesBundle core (withS (bareBundle e) (.r .fsqrt rd rs1 rs2 rs3)) = true → Completes (.fsqrt core rd rs1 rs2 rs3 (bareBundle e)) s fun t =>
      s.retiresS t core rd (BitVec.ofNat 64 (sqrtF fp32 (decodeF fp32 (((s.core core).s rs1).toNat % 2 ^ 32)) (Config.free (s.slotDraw core 0) 0).toNat))) ∧
  (∀ (core : Fin 512) (rd rs1 rs2 rs3 : BitVec 5) (e : Surround), s.takesBundle core (withS (bareBundle e) (.r .fmin rd rs1 rs2 rs3)) = true → Completes (.fminFmax core 0 rd rs1 rs2 rs3 (bareBundle e)) s fun t =>
      s.retiresS t core rd (BitVec.ofNat 64 (minMaxF fp32 true (((s.core core).s rs1).toNat % 2 ^ 32) (((s.core core).s rs2).toNat % 2 ^ 32) (Config.free (s.slotDraw core 0) 0).toNat))) ∧
  (∀ (core : Fin 512) (rd rs1 rs2 rs3 : BitVec 5) (e : Surround), s.takesBundle core (withS (bareBundle e) (.r .fmax rd rs1 rs2 rs3)) = true → Completes (.fminFmax core 1 rd rs1 rs2 rs3 (bareBundle e)) s fun t =>
      s.retiresS t core rd (BitVec.ofNat 64 (minMaxF fp32 false (((s.core core).s rs1).toNat % 2 ^ 32) (((s.core core).s rs2).toNat % 2 ^ 32) (Config.free (s.slotDraw core 0) 0).toNat))) ∧
  (∀ (core : Fin 512) (rd rs1 rs2 rs3 : BitVec 5) (e : Surround), s.takesBundle core (withS (bareBundle e) (.r .fma rd rs1 rs2 rs3)) = true → Completes (.fma core rd rs1 rs2 rs3 (bareBundle e)) s fun t =>
      s.retiresS t core rd (BitVec.ofNat 64 (encodeF fp32 (((decodeF fp32 (((s.core core).s rs1).toNat % 2 ^ 32)).mul (decodeF fp32 (((s.core core).s rs2).toNat % 2 ^ 32))).add (decodeF fp32 (((s.core core).s rs3).toNat % 2 ^ 32))) (Config.free (s.slotDraw core 0) 0).toNat))) ∧
  (∀ (core : Fin 512) (rd rs1 rs2 rs3 : BitVec 5) (e : Surround), s.takesBundle core (withS (bareBundle e) (.r .fcvtIF rd rs1 rs2 rs3)) = true → Completes (.fcvtIf core rd rs1 rs2 rs3 (bareBundle e)) s fun t =>
      s.retiresS t core rd (BitVec.ofInt 64 (clampS 64 (((decodeF fp32 (((s.core core).s rs1).toNat % 2 ^ 32)).toInt false).getD (if (decodeF fp32 (((s.core core).s rs1).toNat % 2 ^ 32)) = .inf false then 2 ^ 63 - 1 else if (decodeF fp32 (((s.core core).s rs1).toNat % 2 ^ 32)) = .inf true then -2 ^ 63 else 0))))) ∧
  (∀ (core : Fin 512) (rd rs1 rs2 rs3 : BitVec 5) (e : Surround), s.takesBundle core (withS (bareBundle e) (.r .fcvtFI rd rs1 rs2 rs3)) = true → Completes (.fcvtFi core rd rs1 rs2 rs3 (bareBundle e)) s fun t =>
      s.retiresS t core rd (BitVec.ofNat 64 (roundF fp32 (decide (((s.core core).s rs1).toInt < 0)) ((s.core core).s rs1).toInt.natAbs 0))) ∧
  (∀ (core : Fin 512) (rd rs1 rs2 rs3 : BitVec 5) (e : Surround), s.takesBundle core (withS (bareBundle e) (.r .feq rd rs1 rs2 rs3)) = true → Completes (.feqFltFle core 0 rd rs1 rs2 rs3 (bareBundle e)) s fun t =>
      s.retiresS t core rd (if (decodeF fp32 (((s.core core).s rs1).toNat % 2 ^ 32)).cmp (decodeF fp32 (((s.core core).s rs2).toNat % 2 ^ 32)) = some .eq then 1#64 else 0#64)) ∧
  (∀ (core : Fin 512) (rd rs1 rs2 rs3 : BitVec 5) (e : Surround), s.takesBundle core (withS (bareBundle e) (.r .flt rd rs1 rs2 rs3)) = true → Completes (.feqFltFle core 1 rd rs1 rs2 rs3 (bareBundle e)) s fun t =>
      s.retiresS t core rd (if (decodeF fp32 (((s.core core).s rs1).toNat % 2 ^ 32)).cmp (decodeF fp32 (((s.core core).s rs2).toNat % 2 ^ 32)) = some .lt then 1#64 else 0#64)) ∧
  (∀ (core : Fin 512) (rd rs1 rs2 rs3 : BitVec 5) (e : Surround), s.takesBundle core (withS (bareBundle e) (.r .fle rd rs1 rs2 rs3)) = true → Completes (.feqFltFle core 2 rd rs1 rs2 rs3 (bareBundle e)) s fun t =>
      s.retiresS t core rd (if (decodeF fp32 (((s.core core).s rs1).toNat % 2 ^ 32)).cmp (decodeF fp32 (((s.core core).s rs2).toNat % 2 ^ 32)) = some .lt ∨ (decodeF fp32 (((s.core core).s rs1).toNat % 2 ^ 32)).cmp (decodeF fp32 (((s.core core).s rs2).toNat % 2 ^ 32)) = some .eq then 1#64 else 0#64))

/-- LDS, STS, LDU, STU, DINV and IFLUSH move the bytes that the address formed from RS1 and OFF names, or raise the
exception of that address. An address that is not a multiple of the size raises MISALIGNED, a scratchpad address
beyond 768 KiB SCR_BOUNDS, a unified address that does not translate XLAT_FAULT. A load from the unified range that
the data cache holds ends at once; any other is sent, and its register follows when the data arrive. -/
def Obligations.ScratchpadAndUnifiedCommands : Prop := ∀ s : State,
  (∀ (core : Fin 512) (rd rs1 : BitVec 5) (size : BitVec 2) (sx : Bool) (off : BitVec 32) (e : Surround), s.takesBundle core (withS (bareBundle e) (.lds rd rs1 size sx off)) = true → Completes (.lds core rd rs1 size sx off (bareBundle e)) s fun t =>
      (if ((s.core core).s rs1 + off.signExtend 64).toNat % 2 ^ size.toNat ≠ 0 then s.traps t core 3 0 ((s.core core).s rs1 + off.signExtend 64).toNat else if 0xC0000 < ((s.core core).s rs1 + off.signExtend 64).toNat + 2 ^ size.toNat then s.traps t core 4 0 ((s.core core).s rs1 + off.signExtend 64).toNat
      else (s.core core).getsS (t.core core) rd (extendLoad size sx ((s.core core).scrRead ((s.core core).s rs1 + off.signExtend 64).toNat (2 ^ size.toNat))) ∧
      (t.core core).pc = (s.core core).pc + 64#48)) ∧
  (∀ (core : Fin 512) (rs2 rs1 : BitVec 5) (size : BitVec 2) (off : BitVec 32) (e : Surround), s.takesBundle core (withS (bareBundle e) (.sts rs2 rs1 size false off)) = true → Completes (.sts core rs2 rs1 size off (bareBundle e)) s fun t =>
      (if ((s.core core).s rs1 + off.signExtend 64).toNat % 2 ^ size.toNat ≠ 0 then s.traps t core 3 0 ((s.core core).s rs1 + off.signExtend 64).toNat else if 0xC0000 < ((s.core core).s rs1 + off.signExtend 64).toNat + 2 ^ size.toNat then s.traps t core 4 0 ((s.core core).s rs1 + off.signExtend 64).toNat
      else (s.core core).keepsRegs (t.core core) ∧ s.passes t core ∧
      (s.core core).storesScr (t.core core) ((s.core core).s rs1 + off.signExtend 64).toNat (leBytes ((s.core core).s rs2).toNat (2 ^ size.toNat)) e.drop)) ∧
  (∀ (core : Fin 512) (rd rs1 : BitVec 5) (size : BitVec 2) (sx : Bool) (off : BitVec 32) (e : Surround), s.takesBundle core (withS (bareBundle e) (.ldu rd rs1 size sx off)) = true → Completes (.ldu core rd rs1 size sx off (bareBundle e)) s fun t =>
      (if ((s.core core).s rs1 + off.signExtend 64).toNat % 2 ^ size.toNat ≠ 0 then s.traps t core 3 0 ((s.core core).s rs1 + off.signExtend 64).toNat else if 2 ^ 48 ≤ ((s.core core).s rs1 + off.signExtend 64).toNat then s.traps t core 5 0 ((s.core core).s rs1 + off.signExtend 64).toNat
      else if ((s.slotStart core).coreXlat core ((s.core core).s rs1 + off.signExtend 64).toNat 1).1 = .fail then s.traps t core 5 0 ((s.core core).s rs1 + off.signExtend 64).toNat
      else if ((s.slotStart core).coreXlat core ((s.core core).s rs1 + off.signExtend 64).toNat 1).1 = .wait ∨ s.held? (s.ctxOf core) (((s.core core).s rs1 + off.signExtend 64).toNat / 65536) = true then s.waitsOn t core
      else if tget [] (s.core core).dcache (((s.core core).s rs1 + off.signExtend 64).toNat / 64) ≠ [] then s.retiresS t core rd (extendLoad size sx (((tget [] (s.core core).dcache (((s.core core).s rs1 + off.signExtend 64).toNat / 64)).drop (((s.core core).s rs1 + off.signExtend 64).toNat % 64)).take (2 ^ size.toNat)))
      else if leafTier ((s.slotStart core).coreXlat core ((s.core core).s rs1 + off.signExtend 64).toNat 1).1.entry < 2 ∧ isUe e.mem = true then s.waitsOn t core
      else s.passes t core ∧ (s.core core).keepsRegs (t.core core) ∧ ((t.core core).pend.map fun p => (p.rd, p.line, p.t3)) =
      ((s.core core).pend.map fun p => (p.rd, p.line, p.t3)) ++ [(rd, ((s.core core).s rs1 + off.signExtend 64).toNat / 64, decide (2 ≤ leafTier ((s.slotStart core).coreXlat core ((s.core core).s rs1 + off.signExtend 64).toNat 1).1.entry))])) ∧
  (∀ (core : Fin 512) (rs2 rs1 : BitVec 5) (size : BitVec 2) (off : BitVec 32) (e : Surround), s.takesBundle core (withS (bareBundle e) (.stu rs2 rs1 size false off)) = true → Completes (.stu core rs2 rs1 size off (bareBundle e)) s fun t =>
      (if ((s.core core).s rs1 + off.signExtend 64).toNat % 2 ^ size.toNat ≠ 0 then s.traps t core 3 0 ((s.core core).s rs1 + off.signExtend 64).toNat else if 2 ^ 48 ≤ ((s.core core).s rs1 + off.signExtend 64).toNat then s.traps t core 5 0 ((s.core core).s rs1 + off.signExtend 64).toNat
      else if ((s.slotStart core).coreXlat core ((s.core core).s rs1 + off.signExtend 64).toNat 2).1 = .fail then s.traps t core 5 0 ((s.core core).s rs1 + off.signExtend 64).toNat
      else if ((s.slotStart core).coreXlat core ((s.core core).s rs1 + off.signExtend 64).toNat 2).1 = .wait ∨ s.held? (s.ctxOf core) (((s.core core).s rs1 + off.signExtend 64).toNat / 65536) = true then s.waitsOn t core ∧ t.hbm = s.hbm ∧ t.basin = s.basin
      else s.passes t core ∧ (s.core core).keepsRegs (t.core core) ∧ (leafTier ((s.slotStart core).coreXlat core ((s.core core).s rs1 + off.signExtend 64).toNat 2).1.entry < 2 →
      t.physRead (leafTier ((s.slotStart core).coreXlat core ((s.core core).s rs1 + off.signExtend 64).toNat 2).1.entry) (leafLoc ((s.slotStart core).coreXlat core ((s.core core).s rs1 + off.signExtend 64).toNat 2).1.entry) ((s.core core).s rs1 + off.signExtend 64).toNat (2 ^ size.toNat) = leBytes ((s.core core).s rs2).toNat (2 ^ size.toNat)))) ∧
  (∀ (core : Fin 512) (rs1 rs2 : BitVec 5) (e : Surround), s.takesBundle core (withS (bareBundle e) (.dinv 0#5 rs1 rs2)) = true → Completes (.dinv core rs1 rs2 (bareBundle e)) s fun t =>
      s.passes t core ∧ (s.core core).keepsRegs (t.core core) ∧ (((s.core core).s rs2 = 0#64 → (t.core core).dcache = []) ∧
      ∀ l ∈ (s.core core).dcache, (((s.core core).s rs2 = 0#64 ∨ (l.1 * 64 < ((s.core core).s rs1).toNat + ((s.core core).s rs2).toNat ∧
      ((s.core core).s rs1).toNat < l.1 * 64 + 64)) → l ∉ (t.core core).dcache) ∧
      (¬((s.core core).s rs2 = 0#64 ∨ (l.1 * 64 < ((s.core core).s rs1).toNat + ((s.core core).s rs2).toNat ∧
      ((s.core core).s rs1).toNat < l.1 * 64 + 64)) → l ∈ (t.core core).dcache))) ∧
  (∀ (core : Fin 512) (e : Surround), s.takesBundle core (withS (bareBundle e) (.iflush 0#5 0#5 0#5 0#5)) = true → Completes (.iflush core (bareBundle e)) s fun t =>
      s.passes t core ∧ (s.core core).keepsRegs (t.core core) ∧ (t.core core).icache = [] ∧ (t.core core).itlb = [])

/-- Each operation of the B slot gives the bundle the next PC, the link and the loop register that it names.
Displacements count bundles of 64 bytes; a jump through a register takes bits [5:0] of the address as 0. HALT waits
for the operations under way; BRK halts the core under an open CORE scope and otherwise traps. -/
def Obligations.BranchCommands : Prop := ∀ s : State,
  (∀ (core : Fin 512) (rs1 rs2 : BitVec 5) (off : BitVec 14) (e : Surround), s.takesBundle core (withB (bareBundle e) (.bc .eq rs1 rs2 off)) = true → Completes (.beqBneBltBgeBltuBgeu core .eq rs1 rs2 off (bareBundle e)) s fun t =>
      (t.core core).pc = (if ((s.core core).s rs1) = ((s.core core).s rs2) then (s.core core).pc + BitVec.ofInt 48 (off.toInt * 64) else (s.core core).pc + 64#48) ∧ t.fld R.CORE_PC.PC core = (s.core core).pc.toNat ∧ (s.core core).keepsRegs (t.core core)) ∧
  (∀ (core : Fin 512) (rs1 rs2 : BitVec 5) (off : BitVec 14) (e : Surround), s.takesBundle core (withB (bareBundle e) (.bc .ne rs1 rs2 off)) = true → Completes (.beqBneBltBgeBltuBgeu core .ne rs1 rs2 off (bareBundle e)) s fun t =>
      (t.core core).pc = (if ((s.core core).s rs1) ≠ ((s.core core).s rs2) then (s.core core).pc + BitVec.ofInt 48 (off.toInt * 64) else (s.core core).pc + 64#48) ∧ t.fld R.CORE_PC.PC core = (s.core core).pc.toNat ∧ (s.core core).keepsRegs (t.core core)) ∧
  (∀ (core : Fin 512) (rs1 rs2 : BitVec 5) (off : BitVec 14) (e : Surround), s.takesBundle core (withB (bareBundle e) (.bc .lt rs1 rs2 off)) = true → Completes (.beqBneBltBgeBltuBgeu core .lt rs1 rs2 off (bareBundle e)) s fun t =>
      (t.core core).pc = (if ((s.core core).s rs1).toInt < ((s.core core).s rs2).toInt then (s.core core).pc + BitVec.ofInt 48 (off.toInt * 64) else (s.core core).pc + 64#48) ∧ t.fld R.CORE_PC.PC core = (s.core core).pc.toNat ∧ (s.core core).keepsRegs (t.core core)) ∧
  (∀ (core : Fin 512) (rs1 rs2 : BitVec 5) (off : BitVec 14) (e : Surround), s.takesBundle core (withB (bareBundle e) (.bc .ge rs1 rs2 off)) = true → Completes (.beqBneBltBgeBltuBgeu core .ge rs1 rs2 off (bareBundle e)) s fun t =>
      (t.core core).pc = (if ((s.core core).s rs2).toInt ≤ ((s.core core).s rs1).toInt then (s.core core).pc + BitVec.ofInt 48 (off.toInt * 64) else (s.core core).pc + 64#48) ∧ t.fld R.CORE_PC.PC core = (s.core core).pc.toNat ∧ (s.core core).keepsRegs (t.core core)) ∧
  (∀ (core : Fin 512) (rs1 rs2 : BitVec 5) (off : BitVec 14) (e : Surround), s.takesBundle core (withB (bareBundle e) (.bc .ltu rs1 rs2 off)) = true → Completes (.beqBneBltBgeBltuBgeu core .ltu rs1 rs2 off (bareBundle e)) s fun t =>
      (t.core core).pc = (if ((s.core core).s rs1).toNat < ((s.core core).s rs2).toNat then (s.core core).pc + BitVec.ofInt 48 (off.toInt * 64) else (s.core core).pc + 64#48) ∧ t.fld R.CORE_PC.PC core = (s.core core).pc.toNat ∧ (s.core core).keepsRegs (t.core core)) ∧
  (∀ (core : Fin 512) (rs1 rs2 : BitVec 5) (off : BitVec 14) (e : Surround), s.takesBundle core (withB (bareBundle e) (.bc .geu rs1 rs2 off)) = true → Completes (.beqBneBltBgeBltuBgeu core .geu rs1 rs2 off (bareBundle e)) s fun t =>
      (t.core core).pc = (if ((s.core core).s rs2).toNat ≤ ((s.core core).s rs1).toNat then (s.core core).pc + BitVec.ofInt 48 (off.toInt * 64) else (s.core core).pc + 64#48) ∧ t.fld R.CORE_PC.PC core = (s.core core).pc.toNat ∧ (s.core core).keepsRegs (t.core core)) ∧
  (∀ (core : Fin 512) (off : BitVec 24) (e : Surround), s.takesBundle core (withB (bareBundle e) (.j off)) = true → Completes (.j core off (bareBundle e)) s fun t =>
      (t.core core).pc = (s.core core).pc + BitVec.ofInt 48 (off.toInt * 64) ∧ t.fld R.CORE_PC.PC core = (s.core core).pc.toNat ∧ (s.core core).keepsRegs (t.core core)) ∧
  (∀ (core : Fin 512) (off : BitVec 24) (e : Surround), s.takesBundle core (withB (bareBundle e) (.call off)) = true → Completes (.call core off (bareBundle e)) s fun t =>
      (t.core core).pc = (s.core core).pc + BitVec.ofInt 48 (off.toInt * 64) ∧ t.fld R.CORE_PC.PC core = (s.core core).pc.toNat ∧
      ((t.core core).s 31#5 = ((s.core core).pc + 64#48).setWidth 64 ∧ (∀ r : BitVec 5, r ≠ 31#5 → (t.core core).s r = (s.core core).s r) ∧ (s.core core).keepsRest (t.core core))) ∧
  (∀ (core : Fin 512) (rs1 : BitVec 5) (e : Surround), s.takesBundle core (withB (bareBundle e) (.jr rs1)) = true → Completes (.jr core rs1 (bareBundle e)) s fun t =>
      (t.core core).pc = BitVec.ofNat 48 (((s.core core).s rs1).toNat % 2 ^ 48 / 64 * 64) ∧ t.fld R.CORE_PC.PC core = (s.core core).pc.toNat ∧ (s.core core).keepsRegs (t.core core)) ∧
  (∀ (core : Fin 512) (rs1 : BitVec 5) (e : Surround), s.takesBundle core (withB (bareBundle e) (.callr rs1)) = true → Completes (.callr core rs1 (bareBundle e)) s fun t =>
      (t.core core).pc = BitVec.ofNat 48 (((s.core core).s rs1).toNat % 2 ^ 48 / 64 * 64) ∧ t.fld R.CORE_PC.PC core = (s.core core).pc.toNat ∧
      ((t.core core).s 31#5 = ((s.core core).pc + 64#48).setWidth 64 ∧ (∀ r : BitVec 5, r ≠ 31#5 → (t.core core).s r = (s.core core).s r) ∧ (s.core core).keepsRest (t.core core))) ∧
  (∀ (core : Fin 512) (e : Surround), s.takesBundle core (withB (bareBundle e) (.ret)) = true → Completes (.ret core (bareBundle e)) s fun t =>
      (t.core core).pc = BitVec.ofNat 48 (((s.core core).s 31#5).toNat % 2 ^ 48 / 64 * 64) ∧ t.fld R.CORE_PC.PC core = (s.core core).pc.toNat ∧ (s.core core).keepsRegs (t.core core)) ∧
  (∀ (core : Fin 512) (lc : BitVec 2) (rs1 : BitVec 5) (len : BitVec 17) (e : Surround), s.takesBundle core (withB (bareBundle e) (.loop lc rs1 len)) = true → Completes (.loop core lc rs1 len (bareBundle e)) s fun t =>
      ((t.core core).lc lc = ⟨BitVec.ofNat 32 ((s.core core).s rs1).toNat, (s.core core).pc + 64#48, (s.core core).pc + BitVec.ofNat 48 (64 * len.toNat)⟩ ∧
      (t.core core).pc = (if ((s.core core).s rs1).toNat % 2 ^ 32 = 0 then (s.core core).pc + BitVec.ofNat 48 (64 * len.toNat + 64) else (s.core core).pc + 64#48) ∧ t.fld R.CORE_PC.PC core = (s.core core).pc.toNat ∧ (t.core core).sregs = (s.core core).sregs ∧ ∀ r : BitVec 2, r ≠ lc → (t.core core).lc r = (s.core core).lc r)) ∧
  (∀ (core : Fin 512) (lc : BitVec 2) (e : Surround), s.takesBundle core (withB (bareBundle e) (.lend lc)) = true → Completes (.lend core lc (bareBundle e)) s fun t =>
      ((t.core core).lc lc = (if 1 < ((s.core core).lc lc).count.toNat then ⟨((s.core core).lc lc).count - 1#32, ((s.core core).lc lc).start, ((s.core core).lc lc).stop⟩
      else ⟨0#32, ((s.core core).lc lc).start, ((s.core core).lc lc).stop⟩) ∧
      (t.core core).pc = (if 1 < ((s.core core).lc lc).count.toNat then ((s.core core).lc lc).start else (s.core core).pc + 64#48) ∧ t.fld R.CORE_PC.PC core = (s.core core).pc.toNat ∧ (t.core core).sregs = (s.core core).sregs ∧ ∀ r : BitVec 2, r ≠ lc → (t.core core).lc r = (s.core core).lc r)) ∧
  (∀ (core : Fin 512) (rs1 : BitVec 5) (e : Surround), s.takesBundle core (withB (bareBundle e) (.wait rs1)) = true → Completes (.wait core rs1 (bareBundle e)) s fun t =>
      (if ∃ x ∈ (s.core core).tags, x.2.busy = true ∧ ((s.core core).s rs1).getLsbD x.1 = true then s.waitsOn t core
      else s.passes t core ∧ (s.core core).keepsRegs (t.core core))) ∧
  (∀ (core : Fin 512) (e : Surround), s.takesBundle core (withB (bareBundle e) (.halt 0#16)) = true → Completes (.halt core (bareBundle e)) s fun t =>
      s.passes t core ∧ (s.core core).keepsRegs (t.core core) ∧ (t.core core).halting = true ∧ (t.core core).pend = []) ∧
  (∀ (core : Fin 512) (code : BitVec 16) (e : Surround), s.takesBundle core (withB (bareBundle e) (.brk code)) = true → Completes (.brk core code (bareBundle e)) s fun t =>
      (if s.coreScope core = true then (if (s.core core).pend = [] then t.coreState core = coreHalted ∧ s.passes t core ∧ (s.core core).keepsRegs (t.core core) else s.waitsOn t core)
      else s.traps t core 7 1 0))

/-- Each vector operation writes its result to every enabled lane of VD, 0 under MZ or the old value to a disabled
one, and changes nothing else. In either V slot, as a bundle's only operation. The second source is a register, or
under SB an s register given to every lane. NaN bits and results the spec leaves open are free values of the bundle's
own draw (log entries 2, 14, 15). -/
def Obligations.VectorLaneCommands : Prop := ∀ s : State,
  (∀ (core : Fin 512) (slot : Fin 2) (f : VFields) (e : Surround), s.takesBundle core (withV (bareBundle e) slot .vadd f) = true → Completes (.vaddVsubVmul core slot 0 f (bareBundle e)) s fun t =>
      s.retiresV t core f.vd ∧ ∀ i : Fin 256, i.val < laneCount f.ty.toNat → lane ((t.core core).v f.vd) f.ty.toNat i =
      (if laneOn ((s.core core).m f.msk) f.ty.toNat i = true then laneAlu .vadd f.ty.toNat f.sat (lane ((s.core core).v f.va) f.ty.toNat i) ((s.core core).vLaneB f i) (lane ((s.core core).v f.vc) f.ty.toNat i) (Config.free (s.slotDraw core (1 + slot)) i).toNat % 2 ^ laneBits f.ty.toNat else if f.mz = true then 0 else lane ((s.core core).v f.vd) f.ty.toNat i)) ∧
  (∀ (core : Fin 512) (slot : Fin 2) (f : VFields) (e : Surround), s.takesBundle core (withV (bareBundle e) slot .vsub f) = true → Completes (.vaddVsubVmul core slot 1 f (bareBundle e)) s fun t =>
      s.retiresV t core f.vd ∧ ∀ i : Fin 256, i.val < laneCount f.ty.toNat → lane ((t.core core).v f.vd) f.ty.toNat i =
      (if laneOn ((s.core core).m f.msk) f.ty.toNat i = true then laneAlu .vsub f.ty.toNat f.sat (lane ((s.core core).v f.va) f.ty.toNat i) ((s.core core).vLaneB f i) (lane ((s.core core).v f.vc) f.ty.toNat i) (Config.free (s.slotDraw core (1 + slot)) i).toNat % 2 ^ laneBits f.ty.toNat else if f.mz = true then 0 else lane ((s.core core).v f.vd) f.ty.toNat i)) ∧
  (∀ (core : Fin 512) (slot : Fin 2) (f : VFields) (e : Surround), s.takesBundle core (withV (bareBundle e) slot .vmul f) = true → Completes (.vaddVsubVmul core slot 2 f (bareBundle e)) s fun t =>
      s.retiresV t core f.vd ∧ ∀ i : Fin 256, i.val < laneCount f.ty.toNat → lane ((t.core core).v f.vd) f.ty.toNat i =
      (if laneOn ((s.core core).m f.msk) f.ty.toNat i = true then laneAlu .vmul f.ty.toNat f.sat (lane ((s.core core).v f.va) f.ty.toNat i) ((s.core core).vLaneB f i) (lane ((s.core core).v f.vc) f.ty.toNat i) (Config.free (s.slotDraw core (1 + slot)) i).toNat % 2 ^ laneBits f.ty.toNat else if f.mz = true then 0 else lane ((s.core core).v f.vd) f.ty.toNat i)) ∧
  (∀ (core : Fin 512) (slot : Fin 2) (f : VFields) (e : Surround), s.takesBundle core (withV (bareBundle e) slot .vfma f) = true → Completes (.vfma core slot f (bareBundle e)) s fun t =>
      s.retiresV t core f.vd ∧ ∀ i : Fin 256, i.val < laneCount f.ty.toNat → lane ((t.core core).v f.vd) f.ty.toNat i =
      (if laneOn ((s.core core).m f.msk) f.ty.toNat i = true then laneAlu .vfma f.ty.toNat f.sat (lane ((s.core core).v f.va) f.ty.toNat i) ((s.core core).vLaneB f i) (lane ((s.core core).v f.vc) f.ty.toNat i) (Config.free (s.slotDraw core (1 + slot)) i).toNat % 2 ^ laneBits f.ty.toNat else if f.mz = true then 0 else lane ((s.core core).v f.vd) f.ty.toNat i)) ∧
  (∀ (core : Fin 512) (slot : Fin 2) (f : VFields) (e : Surround), s.takesBundle core (withV (bareBundle e) slot .vmin f) = true → Completes (.vminVmax core slot 0 f (bareBundle e)) s fun t =>
      s.retiresV t core f.vd ∧ ∀ i : Fin 256, i.val < laneCount f.ty.toNat → lane ((t.core core).v f.vd) f.ty.toNat i =
      (if laneOn ((s.core core).m f.msk) f.ty.toNat i = true then laneAlu .vmin f.ty.toNat f.sat (lane ((s.core core).v f.va) f.ty.toNat i) ((s.core core).vLaneB f i) (lane ((s.core core).v f.vc) f.ty.toNat i) (Config.free (s.slotDraw core (1 + slot)) i).toNat % 2 ^ laneBits f.ty.toNat else if f.mz = true then 0 else lane ((s.core core).v f.vd) f.ty.toNat i)) ∧
  (∀ (core : Fin 512) (slot : Fin 2) (f : VFields) (e : Surround), s.takesBundle core (withV (bareBundle e) slot .vmax f) = true → Completes (.vminVmax core slot 1 f (bareBundle e)) s fun t =>
      s.retiresV t core f.vd ∧ ∀ i : Fin 256, i.val < laneCount f.ty.toNat → lane ((t.core core).v f.vd) f.ty.toNat i =
      (if laneOn ((s.core core).m f.msk) f.ty.toNat i = true then laneAlu .vmax f.ty.toNat f.sat (lane ((s.core core).v f.va) f.ty.toNat i) ((s.core core).vLaneB f i) (lane ((s.core core).v f.vc) f.ty.toNat i) (Config.free (s.slotDraw core (1 + slot)) i).toNat % 2 ^ laneBits f.ty.toNat else if f.mz = true then 0 else lane ((s.core core).v f.vd) f.ty.toNat i)) ∧
  (∀ (core : Fin 512) (slot : Fin 2) (f : VFields) (e : Surround), s.takesBundle core (withV (bareBundle e) slot .vabs f) = true → Completes (.vabsVneg core slot 0 f (bareBundle e)) s fun t =>
      s.retiresV t core f.vd ∧ ∀ i : Fin 256, i.val < laneCount f.ty.toNat → lane ((t.core core).v f.vd) f.ty.toNat i =
      (if laneOn ((s.core core).m f.msk) f.ty.toNat i = true then laneAlu .vabs f.ty.toNat f.sat (lane ((s.core core).v f.va) f.ty.toNat i) ((s.core core).vLaneB f i) (lane ((s.core core).v f.vc) f.ty.toNat i) (Config.free (s.slotDraw core (1 + slot)) i).toNat % 2 ^ laneBits f.ty.toNat else if f.mz = true then 0 else lane ((s.core core).v f.vd) f.ty.toNat i)) ∧
  (∀ (core : Fin 512) (slot : Fin 2) (f : VFields) (e : Surround), s.takesBundle core (withV (bareBundle e) slot .vneg f) = true → Completes (.vabsVneg core slot 1 f (bareBundle e)) s fun t =>
      s.retiresV t core f.vd ∧ ∀ i : Fin 256, i.val < laneCount f.ty.toNat → lane ((t.core core).v f.vd) f.ty.toNat i =
      (if laneOn ((s.core core).m f.msk) f.ty.toNat i = true then laneAlu .vneg f.ty.toNat f.sat (lane ((s.core core).v f.va) f.ty.toNat i) ((s.core core).vLaneB f i) (lane ((s.core core).v f.vc) f.ty.toNat i) (Config.free (s.slotDraw core (1 + slot)) i).toNat % 2 ^ laneBits f.ty.toNat else if f.mz = true then 0 else lane ((s.core core).v f.vd) f.ty.toNat i)) ∧
  (∀ (core : Fin 512) (slot : Fin 2) (f : VFields) (e : Surround), s.takesBundle core (withV (bareBundle e) slot .vand f) = true → Completes (.vandVorVxor core slot 0 f (bareBundle e)) s fun t =>
      s.retiresV t core f.vd ∧ ∀ i : Fin 256, i.val < laneCount f.ty.toNat → lane ((t.core core).v f.vd) f.ty.toNat i =
      (if laneOn ((s.core core).m f.msk) f.ty.toNat i = true then laneAlu .vand f.ty.toNat f.sat (lane ((s.core core).v f.va) f.ty.toNat i) ((s.core core).vLaneB f i) (lane ((s.core core).v f.vc) f.ty.toNat i) (Config.free (s.slotDraw core (1 + slot)) i).toNat % 2 ^ laneBits f.ty.toNat else if f.mz = true then 0 else lane ((s.core core).v f.vd) f.ty.toNat i)) ∧
  (∀ (core : Fin 512) (slot : Fin 2) (f : VFields) (e : Surround), s.takesBundle core (withV (bareBundle e) slot .vor f) = true → Completes (.vandVorVxor core slot 1 f (bareBundle e)) s fun t =>
      s.retiresV t core f.vd ∧ ∀ i : Fin 256, i.val < laneCount f.ty.toNat → lane ((t.core core).v f.vd) f.ty.toNat i =
      (if laneOn ((s.core core).m f.msk) f.ty.toNat i = true then laneAlu .vor f.ty.toNat f.sat (lane ((s.core core).v f.va) f.ty.toNat i) ((s.core core).vLaneB f i) (lane ((s.core core).v f.vc) f.ty.toNat i) (Config.free (s.slotDraw core (1 + slot)) i).toNat % 2 ^ laneBits f.ty.toNat else if f.mz = true then 0 else lane ((s.core core).v f.vd) f.ty.toNat i)) ∧
  (∀ (core : Fin 512) (slot : Fin 2) (f : VFields) (e : Surround), s.takesBundle core (withV (bareBundle e) slot .vxor f) = true → Completes (.vandVorVxor core slot 2 f (bareBundle e)) s fun t =>
      s.retiresV t core f.vd ∧ ∀ i : Fin 256, i.val < laneCount f.ty.toNat → lane ((t.core core).v f.vd) f.ty.toNat i =
      (if laneOn ((s.core core).m f.msk) f.ty.toNat i = true then laneAlu .vxor f.ty.toNat f.sat (lane ((s.core core).v f.va) f.ty.toNat i) ((s.core core).vLaneB f i) (lane ((s.core core).v f.vc) f.ty.toNat i) (Config.free (s.slotDraw core (1 + slot)) i).toNat % 2 ^ laneBits f.ty.toNat else if f.mz = true then 0 else lane ((s.core core).v f.vd) f.ty.toNat i)) ∧
  (∀ (core : Fin 512) (slot : Fin 2) (f : VFields) (e : Surround), s.takesBundle core (withV (bareBundle e) slot .vshl f) = true → Completes (.vshlVsraVsrl core slot 0 f (bareBundle e)) s fun t =>
      s.retiresV t core f.vd ∧ ∀ i : Fin 256, i.val < laneCount f.ty.toNat → lane ((t.core core).v f.vd) f.ty.toNat i =
      (if laneOn ((s.core core).m f.msk) f.ty.toNat i = true then laneAlu .vshl f.ty.toNat f.sat (lane ((s.core core).v f.va) f.ty.toNat i) ((s.core core).vLaneB f i) (lane ((s.core core).v f.vc) f.ty.toNat i) (Config.free (s.slotDraw core (1 + slot)) i).toNat % 2 ^ laneBits f.ty.toNat else if f.mz = true then 0 else lane ((s.core core).v f.vd) f.ty.toNat i)) ∧
  (∀ (core : Fin 512) (slot : Fin 2) (f : VFields) (e : Surround), s.takesBundle core (withV (bareBundle e) slot .vsra f) = true → Completes (.vshlVsraVsrl core slot 1 f (bareBundle e)) s fun t =>
      s.retiresV t core f.vd ∧ ∀ i : Fin 256, i.val < laneCount f.ty.toNat → lane ((t.core core).v f.vd) f.ty.toNat i =
      (if laneOn ((s.core core).m f.msk) f.ty.toNat i = true then laneAlu .vsra f.ty.toNat f.sat (lane ((s.core core).v f.va) f.ty.toNat i) ((s.core core).vLaneB f i) (lane ((s.core core).v f.vc) f.ty.toNat i) (Config.free (s.slotDraw core (1 + slot)) i).toNat % 2 ^ laneBits f.ty.toNat else if f.mz = true then 0 else lane ((s.core core).v f.vd) f.ty.toNat i)) ∧
  (∀ (core : Fin 512) (slot : Fin 2) (f : VFields) (e : Surround), s.takesBundle core (withV (bareBundle e) slot .vsrl f) = true → Completes (.vshlVsraVsrl core slot 2 f (bareBundle e)) s fun t =>
      s.retiresV t core f.vd ∧ ∀ i : Fin 256, i.val < laneCount f.ty.toNat → lane ((t.core core).v f.vd) f.ty.toNat i =
      (if laneOn ((s.core core).m f.msk) f.ty.toNat i = true then laneAlu .vsrl f.ty.toNat f.sat (lane ((s.core core).v f.va) f.ty.toNat i) ((s.core core).vLaneB f i) (lane ((s.core core).v f.vc) f.ty.toNat i) (Config.free (s.slotDraw core (1 + slot)) i).toNat % 2 ^ laneBits f.ty.toNat else if f.mz = true then 0 else lane ((s.core core).v f.vd) f.ty.toNat i)) ∧
  (∀ (core : Fin 512) (slot : Fin 2) (f : VFields) (e : Surround), s.takesBundle core (withV (bareBundle e) slot .vexp f) = true → Completes (.vexp core slot f (bareBundle e)) s fun t =>
      s.retiresV t core f.vd ∧ ∀ i : Fin 256, i.val < laneCount f.ty.toNat → lane ((t.core core).v f.vd) f.ty.toNat i =
      (if laneOn ((s.core core).m f.msk) f.ty.toNat i = true then laneAlu .vexp f.ty.toNat f.sat (lane ((s.core core).v f.va) f.ty.toNat i) ((s.core core).vLaneB f i) (lane ((s.core core).v f.vc) f.ty.toNat i) (Config.free (s.slotDraw core (1 + slot)) i).toNat % 2 ^ laneBits f.ty.toNat else if f.mz = true then 0 else lane ((s.core core).v f.vd) f.ty.toNat i)) ∧
  (∀ (core : Fin 512) (slot : Fin 2) (f : VFields) (e : Surround), s.takesBundle core (withV (bareBundle e) slot .vrcp f) = true → Completes (.vrcp core slot f (bareBundle e)) s fun t =>
      s.retiresV t core f.vd ∧ ∀ i : Fin 256, i.val < laneCount f.ty.toNat → lane ((t.core core).v f.vd) f.ty.toNat i =
      (if laneOn ((s.core core).m f.msk) f.ty.toNat i = true then laneAlu .vrcp f.ty.toNat f.sat (lane ((s.core core).v f.va) f.ty.toNat i) ((s.core core).vLaneB f i) (lane ((s.core core).v f.vc) f.ty.toNat i) (Config.free (s.slotDraw core (1 + slot)) i).toNat % 2 ^ laneBits f.ty.toNat else if f.mz = true then 0 else lane ((s.core core).v f.vd) f.ty.toNat i)) ∧
  (∀ (core : Fin 512) (slot : Fin 2) (f : VFields) (e : Surround), s.takesBundle core (withV (bareBundle e) slot .vrsqrt f) = true → Completes (.vrsqrt core slot f (bareBundle e)) s fun t =>
      s.retiresV t core f.vd ∧ ∀ i : Fin 256, i.val < laneCount f.ty.toNat → lane ((t.core core).v f.vd) f.ty.toNat i =
      (if laneOn ((s.core core).m f.msk) f.ty.toNat i = true then laneAlu .vrsqrt f.ty.toNat f.sat (lane ((s.core core).v f.va) f.ty.toNat i) ((s.core core).vLaneB f i) (lane ((s.core core).v f.vc) f.ty.toNat i) (Config.free (s.slotDraw core (1 + slot)) i).toNat % 2 ^ laneBits f.ty.toNat else if f.mz = true then 0 else lane ((s.core core).v f.vd) f.ty.toNat i)) ∧
  (∀ (core : Fin 512) (slot : Fin 2) (f : VFields) (e : Surround), s.takesBundle core (withV (bareBundle e) slot .vcvt f) = true → Completes (.vcvt core slot f (bareBundle e)) s fun t =>
      s.retiresV t core f.vd ∧ ∀ i : Fin 256, i.val < laneCount f.ty2.toNat → lane ((t.core core).v f.vd) f.ty2.toNat i =
      (if laneOn ((s.core core).m f.msk) f.ty2.toNat i = true then (if i.val < laneCount f.ty.toNat then laneCvt f.ty.toNat f.ty2.toNat f.sat (lane ((s.core core).v f.va) f.ty.toNat i) (Config.free (s.slotDraw core (1 + slot)) i).toNat else (Config.free (s.slotDraw core (1 + slot)) i).toNat) % 2 ^ laneBits f.ty2.toNat else if f.mz = true then 0 else lane ((s.core core).v f.vd) f.ty2.toNat i))

/-- The vector permutation, broadcast, selection, move, load, store, comparison, reduction and mask operations. In
either V slot, as a bundle's only operation. A reduction adds, or takes the maximum or minimum of, the enabled lanes,
by the fixed tree of floating types and exactly for integer types; a load or store whose address is not a multiple of
64 bytes or reaches beyond the scratchpad traps. What a reduction of no lanes and a mask's other bits give is the
model's choice (log entries 16, 17). -/
def Obligations.VectorMoveCommands : Prop := ∀ s : State,
  (∀ (core : Fin 512) (slot : Fin 2) (f : VFields) (e : Surround), s.takesBundle core (withV (bareBundle e) slot .vperm f) = true → Completes (.vperm core slot f (bareBundle e)) s fun t =>
      s.retiresV t core f.vd ∧ ∀ i : Fin 256, i.val < laneCount f.ty.toNat → lane ((t.core core).v f.vd) f.ty.toNat i =
      (if laneOn ((s.core core).m f.msk) f.ty.toNat i = true then lane ((s.core core).v f.va) f.ty.toNat (((s.core core).vLaneB f i) % laneCount f.ty.toNat) else if f.mz = true then 0 else lane ((s.core core).v f.vd) f.ty.toNat i)) ∧
  (∀ (core : Fin 512) (slot : Fin 2) (f : VFields) (e : Surround), s.takesBundle core (withV (bareBundle e) slot .vbcast f) = true → Completes (.vbcast core slot f (bareBundle e)) s fun t =>
      s.retiresV t core f.vd ∧ ∀ i : Fin 256, i.val < laneCount f.ty.toNat → lane ((t.core core).v f.vd) f.ty.toNat i =
      (if laneOn ((s.core core).m f.msk) f.ty.toNat i = true then ((s.core core).s f.va).toNat % 2 ^ laneBits f.ty.toNat else if f.mz = true then 0 else lane ((s.core core).v f.vd) f.ty.toNat i)) ∧
  (∀ (core : Fin 512) (slot : Fin 2) (f : VFields) (e : Surround), s.takesBundle core (withV (bareBundle e) slot .vsel f) = true → Completes (.vsel core slot f (bareBundle e)) s fun t =>
      s.retiresV t core f.vd ∧ ∀ i : Fin 256, i.val < laneCount f.ty.toNat → lane ((t.core core).v f.vd) f.ty.toNat i = (if laneOn ((s.core core).m f.msk) f.ty.toNat i = true then (lane ((s.core core).v f.va) f.ty.toNat i) else ((s.core core).vLaneB f i))) ∧
  (∀ (core : Fin 512) (slot : Fin 2) (f : VFields) (e : Surround), s.takesBundle core (withV (bareBundle e) slot .vmov f) = true → Completes (.vmov core slot f (bareBundle e)) s fun t =>
      s.retiresV t core f.vd ∧ ∀ i : Fin 256, i.val < laneCount f.ty.toNat → lane ((t.core core).v f.vd) f.ty.toNat i =
      (if laneOn ((s.core core).m f.msk) f.ty.toNat i = true then (lane ((s.core core).v f.va) f.ty.toNat i) else if f.mz = true then 0 else lane ((s.core core).v f.vd) f.ty.toNat i)) ∧
  (∀ (core : Fin 512) (slot : Fin 2) (f : VFields) (e : Surround), s.takesBundle core (withV (bareBundle e) slot .vld f) = true → Completes (.vld core slot f (bareBundle e)) s fun t =>
      (if ((s.core core).s f.va + f.imm.signExtend 64).toNat % 64 ≠ 0 then s.traps t core 3 (2 + slot.val) ((s.core core).s f.va + f.imm.signExtend 64).toNat else if 0xC0000 < ((s.core core).s f.va + f.imm.signExtend 64).toNat + 256 then s.traps t core 4 (2 + slot.val) ((s.core core).s f.va + f.imm.signExtend 64).toNat else
      (t.core core).pc = (s.core core).pc + 64#48 ∧ ∀ i : Fin 256, i.val < laneCount f.ty.toNat → lane ((t.core core).v f.vd) f.ty.toNat i =
      (if laneOn ((s.core core).m f.msk) f.ty.toNat i = true then ofLe ((s.core core).scrRead (((s.core core).s f.va + f.imm.signExtend 64).toNat + i * (laneBits f.ty.toNat / 8)) (laneBits f.ty.toNat / 8)) else if f.mz = true then 0 else (lane ((s.core core).v f.vd) f.ty.toNat i)))) ∧
  (∀ (core : Fin 512) (slot : Fin 2) (f : VFields) (e : Surround), s.takesBundle core (withV (bareBundle e) slot .vst f) = true → Completes (.vst core slot f (bareBundle e)) s fun t =>
      (if ((s.core core).s f.va + f.imm.signExtend 64).toNat % 64 ≠ 0 then s.traps t core 3 (2 + slot.val) ((s.core core).s f.va + f.imm.signExtend 64).toNat else if 0xC0000 < ((s.core core).s f.va + f.imm.signExtend 64).toNat + 256 then s.traps t core 4 (2 + slot.val) ((s.core core).s f.va + f.imm.signExtend 64).toNat else
      s.passes t core ∧ (s.core core).keepsRegs (t.core core) ∧ (s.core core).storesV (t.core core) ((s.core core).s f.va + f.imm.signExtend 64).toNat (leBytes ((s.core core).v f.vc).toNat 256) (if f.msk = 0#3 then BitVec.allOnes 256 else ((s.core core).m f.msk)) e.drop)) ∧
  (∀ (core : Fin 512) (slot : Fin 2) (f : VFields) (e : Surround), s.takesBundle core (withV (bareBundle e) slot .vceq f) = true → Completes (.vceqVcltVcle core slot 0 f (bareBundle e)) s fun t =>
      (t.core core).pc = (s.core core).pc + 64#48 ∧ (t.core core).sregs = (s.core core).sregs ∧ (t.core core).vregs = (s.core core).vregs ∧
      ((f.vd.setWidth 3) = 0#3 → (t.core core).mregs = (s.core core).mregs) ∧ ∀ i : Fin 256, i.val < laneCount f.ty.toNat → (f.vd.setWidth 3) ≠ 0#3 → ((t.core core).m (f.vd.setWidth 3)).getLsbD (i * (laneBits f.ty.toNat / 8)) =
      (if laneOn ((s.core core).m f.msk) f.ty.toNat i = true then (if f.ty.toNat ≤ 1 then decide ((decodeF (if f.ty = 1#3 then bf16 else fp32) (lane ((s.core core).v f.va) f.ty.toNat i)).cmp (decodeF (if f.ty = 1#3 then bf16 else fp32) ((s.core core).vLaneB f i)) = some .eq) else decide (sext (laneBits f.ty.toNat) (lane ((s.core core).v f.va) f.ty.toNat i) = sext (laneBits f.ty.toNat) ((s.core core).vLaneB f i)))
      else !f.mz && ((s.core core).m (f.vd.setWidth 3)).getLsbD (i * (laneBits f.ty.toNat / 8)))) ∧
  (∀ (core : Fin 512) (slot : Fin 2) (f : VFields) (e : Surround), s.takesBundle core (withV (bareBundle e) slot .vclt f) = true → Completes (.vceqVcltVcle core slot 1 f (bareBundle e)) s fun t =>
      (t.core core).pc = (s.core core).pc + 64#48 ∧ (t.core core).sregs = (s.core core).sregs ∧ (t.core core).vregs = (s.core core).vregs ∧
      ((f.vd.setWidth 3) = 0#3 → (t.core core).mregs = (s.core core).mregs) ∧ ∀ i : Fin 256, i.val < laneCount f.ty.toNat → (f.vd.setWidth 3) ≠ 0#3 → ((t.core core).m (f.vd.setWidth 3)).getLsbD (i * (laneBits f.ty.toNat / 8)) =
      (if laneOn ((s.core core).m f.msk) f.ty.toNat i = true then (if f.ty.toNat ≤ 1 then decide ((decodeF (if f.ty = 1#3 then bf16 else fp32) (lane ((s.core core).v f.va) f.ty.toNat i)).cmp (decodeF (if f.ty = 1#3 then bf16 else fp32) ((s.core core).vLaneB f i)) = some .lt) else decide (sext (laneBits f.ty.toNat) (lane ((s.core core).v f.va) f.ty.toNat i) < sext (laneBits f.ty.toNat) ((s.core core).vLaneB f i)))
      else !f.mz && ((s.core core).m (f.vd.setWidth 3)).getLsbD (i * (laneBits f.ty.toNat / 8)))) ∧
  (∀ (core : Fin 512) (slot : Fin 2) (f : VFields) (e : Surround), s.takesBundle core (withV (bareBundle e) slot .vcle f) = true → Completes (.vceqVcltVcle core slot 2 f (bareBundle e)) s fun t =>
      (t.core core).pc = (s.core core).pc + 64#48 ∧ (t.core core).sregs = (s.core core).sregs ∧ (t.core core).vregs = (s.core core).vregs ∧
      ((f.vd.setWidth 3) = 0#3 → (t.core core).mregs = (s.core core).mregs) ∧ ∀ i : Fin 256, i.val < laneCount f.ty.toNat → (f.vd.setWidth 3) ≠ 0#3 → ((t.core core).m (f.vd.setWidth 3)).getLsbD (i * (laneBits f.ty.toNat / 8)) =
      (if laneOn ((s.core core).m f.msk) f.ty.toNat i = true then (if f.ty.toNat ≤ 1 then decide ((decodeF (if f.ty = 1#3 then bf16 else fp32) (lane ((s.core core).v f.va) f.ty.toNat i)).cmp (decodeF (if f.ty = 1#3 then bf16 else fp32) ((s.core core).vLaneB f i)) = some .lt ∨ (decodeF (if f.ty = 1#3 then bf16 else fp32) (lane ((s.core core).v f.va) f.ty.toNat i)).cmp (decodeF (if f.ty = 1#3 then bf16 else fp32) ((s.core core).vLaneB f i)) = some .eq) else decide (sext (laneBits f.ty.toNat) (lane ((s.core core).v f.va) f.ty.toNat i) ≤ sext (laneBits f.ty.toNat) ((s.core core).vLaneB f i)))
      else !f.mz && ((s.core core).m (f.vd.setWidth 3)).getLsbD (i * (laneBits f.ty.toNat / 8)))) ∧
  (∀ (core : Fin 512) (slot : Fin 2) (f : VFields) (e : Surround), s.takesBundle core (withV (bareBundle e) slot .vrsum f) = true → Completes (.vrsumVrmaxVrmin core slot 0 f (bareBundle e)) s fun t =>
      s.retiresS t core f.vd (if f.ty.toNat ≤ 1 then BitVec.ofNat 64 ((treeFold (fun x y => encodeF fp32 ((decodeF fp32 x).add (decodeF fp32 y)) (Config.free (s.slotDraw core (1 + slot)) 0).toNat) ((List.range (laneCount f.ty.toNat)).map fun i => if laneOn ((s.core core).m f.msk) f.ty.toNat i then some (widenF f.ty.toNat (lane ((s.core core).v f.va) f.ty.toNat i)) else none)).getD 0)
      else BitVec.ofInt 64 (((List.range (laneCount f.ty.toNat)).filter fun i => laneOn ((s.core core).m f.msk) f.ty.toNat i).map fun i => sext (laneBits f.ty.toNat) (lane ((s.core core).v f.va) f.ty.toNat i)).sum)) ∧
  (∀ (core : Fin 512) (slot : Fin 2) (f : VFields) (e : Surround), s.takesBundle core (withV (bareBundle e) slot .vrmax f) = true → Completes (.vrsumVrmaxVrmin core slot 1 f (bareBundle e)) s fun t =>
      (if f.ty.toNat ≤ 1 then ∃ v ∈ (treeFold (fun x y => minMaxF fp32 false x y (Config.free (s.slotDraw core (1 + slot)) 0).toNat) ((List.range (laneCount f.ty.toNat)).map fun i => if laneOn ((s.core core).m f.msk) f.ty.toNat i then some (widenF f.ty.toNat (lane ((s.core core).v f.va) f.ty.toNat i)) else none)).toList ++ [(Config.free (s.slotDraw core (1 + slot)) 1).toNat % 2 ^ 32], s.retiresS t core f.vd (BitVec.ofNat 64 v)
      else (t.core core).pc = (s.core core).pc + 64#48 ∧ (∀ x ∈ (((List.range (laneCount f.ty.toNat)).filter fun i => laneOn ((s.core core).m f.msk) f.ty.toNat i).map fun i => sext (laneBits f.ty.toNat) (lane ((s.core core).v f.va) f.ty.toNat i)), f.vd ≠ 0#5 → x ≤ ((t.core core).s f.vd).toInt ∧ ∃ y ∈ (((List.range (laneCount f.ty.toNat)).filter fun i => laneOn ((s.core core).m f.msk) f.ty.toNat i).map fun i => sext (laneBits f.ty.toNat) (lane ((s.core core).v f.va) f.ty.toNat i)), ((t.core core).s f.vd).toInt = y))) ∧
  (∀ (core : Fin 512) (slot : Fin 2) (f : VFields) (e : Surround), s.takesBundle core (withV (bareBundle e) slot .vrmin f) = true → Completes (.vrsumVrmaxVrmin core slot 2 f (bareBundle e)) s fun t =>
      (if f.ty.toNat ≤ 1 then ∃ v ∈ (treeFold (fun x y => minMaxF fp32 true x y (Config.free (s.slotDraw core (1 + slot)) 0).toNat) ((List.range (laneCount f.ty.toNat)).map fun i => if laneOn ((s.core core).m f.msk) f.ty.toNat i then some (widenF f.ty.toNat (lane ((s.core core).v f.va) f.ty.toNat i)) else none)).toList ++ [(Config.free (s.slotDraw core (1 + slot)) 1).toNat % 2 ^ 32], s.retiresS t core f.vd (BitVec.ofNat 64 v)
      else (t.core core).pc = (s.core core).pc + 64#48 ∧ (∀ x ∈ (((List.range (laneCount f.ty.toNat)).filter fun i => laneOn ((s.core core).m f.msk) f.ty.toNat i).map fun i => sext (laneBits f.ty.toNat) (lane ((s.core core).v f.va) f.ty.toNat i)), f.vd ≠ 0#5 → ((t.core core).s f.vd).toInt ≤ x ∧ ∃ y ∈ (((List.range (laneCount f.ty.toNat)).filter fun i => laneOn ((s.core core).m f.msk) f.ty.toNat i).map fun i => sext (laneBits f.ty.toNat) (lane ((s.core core).v f.va) f.ty.toNat i)), ((t.core core).s f.vd).toInt = y))) ∧
  (∀ (core : Fin 512) (slot : Fin 2) (f : VFields) (e : Surround), s.takesBundle core (withV (bareBundle e) slot .mand f) = true → Completes (.mandMorMxorMnot core slot 0 f (bareBundle e)) s fun t =>
      s.passes t core ∧ (t.core core).m (f.vd.setWidth 3) = (if (f.vd.setWidth 3) = 0#3 then BitVec.allOnes 256 else ((s.core core).m (f.va.setWidth 3)) &&& ((s.core core).m (f.vb.setWidth 3))) ∧ (∀ r : BitVec 3, r ≠ (f.vd.setWidth 3) → (t.core core).m r = (s.core core).m r) ∧ (t.core core).sregs = (s.core core).sregs ∧ (t.core core).vregs = (s.core core).vregs) ∧
  (∀ (core : Fin 512) (slot : Fin 2) (f : VFields) (e : Surround), s.takesBundle core (withV (bareBundle e) slot .mor f) = true → Completes (.mandMorMxorMnot core slot 1 f (bareBundle e)) s fun t =>
      s.passes t core ∧ (t.core core).m (f.vd.setWidth 3) = (if (f.vd.setWidth 3) = 0#3 then BitVec.allOnes 256 else ((s.core core).m (f.va.setWidth 3)) ||| ((s.core core).m (f.vb.setWidth 3))) ∧ (∀ r : BitVec 3, r ≠ (f.vd.setWidth 3) → (t.core core).m r = (s.core core).m r) ∧ (t.core core).sregs = (s.core core).sregs ∧ (t.core core).vregs = (s.core core).vregs) ∧
  (∀ (core : Fin 512) (slot : Fin 2) (f : VFields) (e : Surround), s.takesBundle core (withV (bareBundle e) slot .mxor f) = true → Completes (.mandMorMxorMnot core slot 2 f (bareBundle e)) s fun t =>
      s.passes t core ∧ (t.core core).m (f.vd.setWidth 3) = (if (f.vd.setWidth 3) = 0#3 then BitVec.allOnes 256 else ((s.core core).m (f.va.setWidth 3)) ^^^ ((s.core core).m (f.vb.setWidth 3))) ∧ (∀ r : BitVec 3, r ≠ (f.vd.setWidth 3) → (t.core core).m r = (s.core core).m r) ∧ (t.core core).sregs = (s.core core).sregs ∧ (t.core core).vregs = (s.core core).vregs) ∧
  (∀ (core : Fin 512) (slot : Fin 2) (f : VFields) (e : Surround), s.takesBundle core (withV (bareBundle e) slot .mnot f) = true → Completes (.mandMorMxorMnot core slot 3 f (bareBundle e)) s fun t =>
      s.passes t core ∧ (t.core core).m (f.vd.setWidth 3) = (if (f.vd.setWidth 3) = 0#3 then BitVec.allOnes 256 else ~~~((s.core core).m (f.va.setWidth 3))) ∧ (∀ r : BitVec 3, r ≠ (f.vd.setWidth 3) → (t.core core).m r = (s.core core).m r) ∧ (t.core core).sregs = (s.core core).sregs ∧ (t.core core).vregs = (s.core core).vregs)

/-- LDN, STN and AMO enter their pair's sequence; a form that takes data waits at commit and retires with its value
or traps, a posted form retires at once. RS1 gives the node in bits 51 to 40 and the offset below. A misaligned
offset traps; an address that no import or route allows is refused without a request. -/
def Obligations.NodeOperationCommands : Prop := ∀ s : State,
  (∀ (core : Fin 512) (rd rs1 : BitVec 5) (size : BitVec 2) (sx : Bool) (off : BitVec 32) (e : Surround), s.takesBundle core (withS (bareBundle e) (.ldn rd rs1 size sx off)) = true → Completes (.ldn core rd rs1 size sx off (bareBundle e)) s fun t =>
      (if ((((((s.core core).s rs1).toNat % 2 ^ 40 : Nat) : Int) + off.toInt) % 2 ^ 40).toNat % 2 ^ size.toNat ≠ 0 then s.traps t core 3 0 ((((s.core core).s rs1).toNat / 2 ^ 40 % 4096) * 2 ^ 40 + ((((((s.core core).s rs1).toNat % 2 ^ 40 : Nat) : Int) + off.toInt) % 2 ^ 40).toNat)
      else if (s.core core).nodeAns.isSome = true then ∀ v ∈ (s.core core).nodeAns.toList, (v.1 = 0 → s.retiresS t core rd v.2) ∧ (v.1 ≠ 0 → s.traps t core 6 0 ((((s.core core).s rs1).toNat / 2 ^ 40 % 4096) * 2 ^ 40 + ((((((s.core core).s rs1).toNat % 2 ^ 40 : Nat) : Int) + off.toInt) % 2 ^ 40).toNat))
      else if ((s.slotStart core).nodeCheck (s.ctxOf core) (((s.core core).s rs1).toNat / 2 ^ 40 % 4096) ((((((s.core core).s rs1).toNat % 2 ^ 40 : Nat) : Int) + off.toInt) % 2 ^ 40).toNat (2 ^ size.toNat)).2.isNone = true then s.traps t core 6 0 ((((s.core core).s rs1).toNat / 2 ^ 40 % 4096) * 2 ^ 40 + ((((((s.core core).s rs1).toNat % 2 ^ 40 : Nat) : Int) + off.toInt) % 2 ^ 40).toNat)
      else if 64 ≤ (s.pair (((s.core core).s rs1).toNat / 2 ^ 40 % 4096)).open_.length ∨ s.postedOpen core = true then s.waitsOn t core ∧ t.rack = s.rack
      else s.waitsOn t core ∧ (t.core core).nodeWait = s.rack.tickets + 1 ∧ (t.pair (((s.core core).s rs1).toNat / 2 ^ 40 % 4096)).open_.length = (s.pair (((s.core core).s rs1).toNat / 2 ^ 40 % 4096)).open_.length + 1)) ∧
  (∀ (core : Fin 512) (rs2 rs1 : BitVec 5) (size : BitVec 2) (off : BitVec 32) (e : Surround), s.takesBundle core (withS (bareBundle e) (.stn rs2 rs1 size false off)) = true → Completes (.stn core rs2 rs1 size off (bareBundle e)) s fun t =>
      (if ((((((s.core core).s rs1).toNat % 2 ^ 40 : Nat) : Int) + off.toInt) % 2 ^ 40).toNat % 2 ^ size.toNat ≠ 0 then s.traps t core 3 0 ((((s.core core).s rs1).toNat / 2 ^ 40 % 4096) * 2 ^ 40 + ((((((s.core core).s rs1).toNat % 2 ^ 40 : Nat) : Int) + off.toInt) % 2 ^ 40).toNat)
      else if (s.core core).nodeAns.isSome = true then ∀ v ∈ (s.core core).nodeAns.toList, (v.1 = 0 → (t.core core).pc = (s.core core).pc + 64#48) ∧ (v.1 ≠ 0 → s.traps t core 6 0 ((((s.core core).s rs1).toNat / 2 ^ 40 % 4096) * 2 ^ 40 + ((((((s.core core).s rs1).toNat % 2 ^ 40 : Nat) : Int) + off.toInt) % 2 ^ 40).toNat))
      else if ((s.slotStart core).nodeCheck (s.ctxOf core) (((s.core core).s rs1).toNat / 2 ^ 40 % 4096) ((((((s.core core).s rs1).toNat % 2 ^ 40 : Nat) : Int) + off.toInt) % 2 ^ 40).toNat (2 ^ size.toNat)).2.isNone = true then s.retires t core
      else if 64 ≤ (s.pair (((s.core core).s rs1).toNat / 2 ^ 40 % 4096)).open_.length then s.waitsOn t core ∧ t.rack = s.rack
      else s.retires t core ∧ (t.pair (((s.core core).s rs1).toNat / 2 ^ 40 % 4096)).open_.length = (s.pair (((s.core core).s rs1).toNat / 2 ^ 40 % 4096)).open_.length + 1)) ∧
  (∀ (core : Fin 512) (rd rs1 rs2 rs3 : BitVec 5) (aop : AOp) (e : Surround), s.takesBundle core (withS (bareBundle e) (.amo rd rs1 rs2 rs3 aop true)) = true → Completes (.amo core rd rs1 rs2 rs3 aop true (bareBundle e)) s fun t =>
      (if ((((((s.core core).s rs1).toNat % 2 ^ 40 : Nat) : Int) + 0) % 2 ^ 40).toNat % 2 ^ 3 ≠ 0 then s.traps t core 3 0 ((((s.core core).s rs1).toNat / 2 ^ 40 % 4096) * 2 ^ 40 + ((((((s.core core).s rs1).toNat % 2 ^ 40 : Nat) : Int) + 0) % 2 ^ 40).toNat)
      else if (s.core core).nodeAns.isSome = true then ∀ v ∈ (s.core core).nodeAns.toList, (v.1 = 0 → s.retiresS t core rd v.2) ∧ (v.1 ≠ 0 → s.traps t core 6 0 ((((s.core core).s rs1).toNat / 2 ^ 40 % 4096) * 2 ^ 40 + ((((((s.core core).s rs1).toNat % 2 ^ 40 : Nat) : Int) + 0) % 2 ^ 40).toNat))
      else if ((s.slotStart core).nodeCheck (s.ctxOf core) (((s.core core).s rs1).toNat / 2 ^ 40 % 4096) ((((((s.core core).s rs1).toNat % 2 ^ 40 : Nat) : Int) + 0) % 2 ^ 40).toNat (2 ^ 3)).2.isNone = true then s.traps t core 6 0 ((((s.core core).s rs1).toNat / 2 ^ 40 % 4096) * 2 ^ 40 + ((((((s.core core).s rs1).toNat % 2 ^ 40 : Nat) : Int) + 0) % 2 ^ 40).toNat)
      else if 64 ≤ (s.pair (((s.core core).s rs1).toNat / 2 ^ 40 % 4096)).open_.length ∨ s.postedOpen core = true then s.waitsOn t core ∧ t.rack = s.rack
      else s.waitsOn t core ∧ (t.core core).nodeWait = s.rack.tickets + 1 ∧ (t.pair (((s.core core).s rs1).toNat / 2 ^ 40 % 4096)).open_.length = (s.pair (((s.core core).s rs1).toNat / 2 ^ 40 % 4096)).open_.length + 1)) ∧
  (∀ (core : Fin 512) (rd rs1 rs2 rs3 : BitVec 5) (aop : AOp) (e : Surround), s.takesBundle core (withS (bareBundle e) (.amo rd rs1 rs2 rs3 aop false)) = true → Completes (.amo core rd rs1 rs2 rs3 aop false (bareBundle e)) s fun t =>
      (if ((((((s.core core).s rs1).toNat % 2 ^ 40 : Nat) : Int) + 0) % 2 ^ 40).toNat % 2 ^ 3 ≠ 0 then s.traps t core 3 0 ((((s.core core).s rs1).toNat / 2 ^ 40 % 4096) * 2 ^ 40 + ((((((s.core core).s rs1).toNat % 2 ^ 40 : Nat) : Int) + 0) % 2 ^ 40).toNat)
      else if (s.core core).nodeAns.isSome = true then ∀ v ∈ (s.core core).nodeAns.toList, (v.1 = 0 → (t.core core).pc = (s.core core).pc + 64#48) ∧ (v.1 ≠ 0 → s.traps t core 6 0 ((((s.core core).s rs1).toNat / 2 ^ 40 % 4096) * 2 ^ 40 + ((((((s.core core).s rs1).toNat % 2 ^ 40 : Nat) : Int) + 0) % 2 ^ 40).toNat))
      else if ((s.slotStart core).nodeCheck (s.ctxOf core) (((s.core core).s rs1).toNat / 2 ^ 40 % 4096) ((((((s.core core).s rs1).toNat % 2 ^ 40 : Nat) : Int) + 0) % 2 ^ 40).toNat (2 ^ 3)).2.isNone = true then s.retires t core
      else if 64 ≤ (s.pair (((s.core core).s rs1).toNat / 2 ^ 40 % 4096)).open_.length then s.waitsOn t core ∧ t.rack = s.rack
      else s.retires t core ∧ (t.pair (((s.core core).s rs1).toNat / 2 ^ 40 % 4096)).open_.length = (s.pair (((s.core core).s rs1).toNat / 2 ^ 40 % 4096)).open_.length + 1))

/-- An X-slot transfer, copy, mark, wait, snapshot, walk or message with good spans and addresses takes its tag and
retires, and traps otherwise. As a bundle's only operation. A tag is BUSY till its operation completes; an operation
that ends at once leaves it with status 0. X_GSNAP's record and X_ASEL's are in the scratchpad when the tag
completes. -/
def Obligations.TransferSlotCommands : Prop := ∀ s : State,
  (∀ (core : Fin 512) (tag : BitVec 6) (toUnified : Bool) (rs : BitVec 5) (saddr len : BitVec 14) (e : Surround), s.takesBundle core (withX (bareBundle e) (.xfer tag toUnified rs saddr len)) = true → Completes (.xXfer core tag toUnified rs saddr len (bareBundle e)) s fun t =>
      (if ((s.core core).s rs).toNat % 64 ≠ 0 then s.traps t core 3 5 ((s.core core).s rs).toNat else if 0xC0000 < saddr.toNat * 64 + len.toNat * 64 then s.traps t core 4 5 (saddr.toNat * 64)
      else if ((s.slotStart core).rangeXlat core ((s.core core).s rs).toNat (len.toNat * 64) (if toUnified then 2 else 1)).1 = .wait then s.waitsOn t core else if ((s.slotStart core).rangeXlat core ((s.core core).s rs).toNat (len.toNat * 64) (if toUnified then 2 else 1)).1.failAt.isSome = true then s.traps t core 5 5 (((s.slotStart core).rangeXlat core ((s.core core).s rs).toNat (len.toNat * 64) (if toUnified then 2 else 1)).1.failAt.getD 0)
      else s.retires t core ∧ t.tagOut core tag.toNat 0x30 ∧ ∃ x ∈ (t.core core).xops, x.tag = tag.toNat ∧ x.a = ((s.core core).s rs).toNat ∧ x.b = saddr.toNat * 64 ∧ x.c = len.toNat * 64 ∧ x.d = b2n toUnified ∧ ((s.slotStart core).rangeXlat core ((s.core core).s rs).toNat (len.toNat * 64) (if toUnified then 2 else 1)).1 = .ok x.sel)) ∧
  (∀ (core : Fin 512) (tag : BitVec 6) (src dst len : BitVec 14) (e : Surround), s.takesBundle core (withX (bareBundle e) (.scopy tag src dst len)) = true → Completes (.xScopy core tag src dst len (bareBundle e)) s fun t =>
      (if 0xC0000 < src.toNat * 64 + len.toNat * 64 then s.traps t core 4 5 (src.toNat * 64) else if 0xC0000 < dst.toNat * 64 + len.toNat * 64 then s.traps t core 4 5 (dst.toNat * 64)
      else s.retires t core ∧ t.tagOut core tag.toNat 0x31)) ∧
  (∀ (core : Fin 512) (tag : BitVec 6) (layer : BitVec 8) (e : Surround), s.takesBundle core (withX (bareBundle e) (.lmark tag layer)) = true → Completes (.xLmark core tag layer (bareBundle e)) s fun t =>
      s.retires t core ∧ t.tagDone0 core tag.toNat) ∧
  (∀ (core : Fin 512) (tag : BitVec 6) (layer : BitVec 8) (e : Surround), s.takesBundle core (withX (bareBundle e) (.lwait tag layer)) = true → Completes (.xLwait core tag layer (bareBundle e)) s fun t =>
      s.retires t core ∧ (if s.fld R.SLUICE_LST_COUNT.COUNT (s.ctxOf core) ≤ layer.toNat then t.tagDone0 core tag.toNat else t.tagOut core tag.toNat 0x45)) ∧
  (∀ (core : Fin 512) (tag : BitVec 6) (dst : BitVec 14) (e : Surround), s.takesBundle core (withX (bareBundle e) (.gsnap tag dst)) = true → Completes (.xGsnap core tag dst (bareBundle e)) s fun t =>
      (if 0xC0000 < dst.toNat * 64 + 128 then s.traps t core 4 5 (dst.toNat * 64) else s.retires t core ∧ t.tagDone0 core tag.toNat ∧
      ∀ g : Fin 16, (t.core core).scrRead (dst.toNat * 64 + 8 * g) 8 = leBytes (if bit (s.fld R.GAUGE_USER_EN.EN) (s.ctxOf core) = true then (s.core core).gaugeWord g else 0) 8)) ∧
  (∀ (core : Fin 512) (tag : BitVec 6) (dst : BitVec 14) (layer : BitVec 8) (obase : BitVec 16) (e : Surround), s.takesBundle core (withX (bareBundle e) (.asel tag dst layer obase)) = true → Completes (.xAsel core tag dst layer obase (bareBundle e)) s fun t =>
      (if 0xC0000 < dst.toNat * 64 + 64 then s.traps t core 4 5 (dst.toNat * 64) else s.retires t core ∧ t.tagDone0 core tag.toNat ∧
      ∀ i : Fin 512, bit (ofLe ((t.core core).scrRead (dst.toNat * 64) 64)) i = s.sampled (s.ctxOf core) layer.toNat (obase.toNat * 512 + i))) ∧
  (∀ (core : Fin 512) (tag : BitVec 6) (nsrc rsrc : BitVec 14) (rowsM1 : BitVec 4) (layer : BitVec 8) (ord : BitVec 25) (e : Surround), s.takesBundle core (withX (bareBundle e) (.assay tag nsrc rsrc rowsM1 layer ord)) = true → Completes (.xAssay core tag nsrc rsrc rowsM1 layer ord (bareBundle e)) s fun t =>
      (if 0xC0000 < nsrc.toNat * 64 + 1024 then s.traps t core 4 5 (nsrc.toNat * 64) else if 0xC0000 < rsrc.toNat * 64 + 1024 then s.traps t core 4 5 (rsrc.toNat * 64)
      else s.retires t core ∧ (if (s.slotStart core).assayOn (s.ctxOf core) layer.toNat = true then t.tagOut core tag.toNat 0x40 else t.tagDone0 core tag.toNat))) ∧
  (∀ (core : Fin 512) (tag : BitVec 6) (desc dst : BitVec 14) (e : Surround), s.takesBundle core (withX (bareBundle e) (.awalk tag desc dst)) = true → Completes (.xAwalk core tag desc dst (bareBundle e)) s fun t =>
      (if 0xC0000 < desc.toNat * 64 + 64 then s.traps t core 4 5 (desc.toNat * 64) else if 0xC0000 < dst.toNat * 64 + (walkDesc ((s.core core).scrRead (desc.toNat * 64) 64)).npages * 65536 + 64 then s.traps t core 4 5 (dst.toNat * 64)
      else if 0xC0000 < (walkDesc ((s.core core).scrRead (desc.toNat * 64) 64)).qvec * 64 + 256 then s.traps t core 4 5 ((walkDesc ((s.core core).scrRead (desc.toNat * 64) 64)).qvec * 64) else s.retires t core ∧ t.tagOut core tag.toNat 0x48)) ∧
  (∀ (core : Fin 512) (tag : BitVec 6) (desc dst : BitVec 14) (e : Surround), s.takesBundle core (withX (bareBundle e) (.xsamp tag desc dst)) = true → Completes (.xXsamp core tag desc dst (bareBundle e)) s fun t =>
      (if 0xC0000 < desc.toNat * 64 + 64 then s.traps t core 4 5 (desc.toNat * 64) else if 0xC0000 < dst.toNat * 64 + 64 then s.traps t core 4 5 (dst.toNat * 64)
      else s.retires t core ∧ t.tagOut core tag.toNat 0x50))

/-- The X-slot operations of the Rake, the barge engine and the message engine: a post, a record send, a wait, a
return, a message. As a bundle's only operation, with its spans in the scratchpad. -/
def Obligations.EngineSlotCommands : Prop := ∀ s : State,
  (∀ (core : Fin 512) (tag : BitVec 6) (src : BitVec 14) (slot : BitVec 10) (gen : BitVec 8) (pair : BitVec 12) (pos : BitVec 20) (countM1 : BitVec 8) (e : Surround), s.takesBundle core (withX (bareBundle e) (.rkpost tag src slot gen pair pos countM1)) = true → Completes (.xRkpost core tag src slot gen pair pos countM1 (bareBundle e)) s fun t =>
      (if 0xC0000 < src.toNat * 64 + (countM1.toNat + 1) * 256 then s.traps t core 4 5 (src.toNat * 64) else s.retires t core ∧
      (if (s.slotStart core).stepOpen (s.ctxOf core) = true then t.ended (s.ctxOf core) = true ∨ t.tagOut core tag.toNat 0x49 else t.tagDone0 core tag.toNat ∧ t.fld R.RAKE_LATE_POSTS.COUNT (s.ctxOf core) = (s.fld R.RAKE_LATE_POSTS.COUNT (s.ctxOf core) + 1) % 2 ^ 32))) ∧
  (∀ (core : Fin 512) (tag : BitVec 6) (src : BitVec 14) (layer : BitVec 8) (half : Bool) (rowbase : BitVec 10) (count : BitVec 7) (total : BitVec 10) (e : Surround), s.takesBundle core (withX (bareBundle e) (.bsend tag src layer half rowbase count total)) = true → Completes (.xBsend core tag src layer half rowbase count total (bareBundle e)) s fun t =>
      (if 0xC0000 < src.toNat * 64 + count.toNat * 64 then s.traps t core 4 5 (src.toNat * 64) else s.retires t core ∧ t.tagDone0 core tag.toNat)) ∧
  (∀ (core : Fin 512) (tag : BitVec 6) (dst : BitVec 14) (layer : BitVec 8) (half side : Bool) (host : BitVec 12) (e : Surround), s.takesBundle core (withX (bareBundle e) (.bwait tag dst layer half side host)) = true → Completes (.xBwait core tag dst layer half side host (bareBundle e)) s fun t =>
      (if 0xC0000 < dst.toNat * 64 + 64 then s.traps t core 4 5 (dst.toNat * 64) else s.retires t core ∧ (s.on R.BARGE_CTRL.EN (s.ctxOf core) = false → t.tagDone0 core tag.toNat))) ∧
  (∀ (core : Fin 512) (tag : BitVec 6) (host : BitVec 12) (half : Bool) (e : Surround), s.takesBundle core (withX (bareBundle e) (.bret tag host half)) = true → Completes (.xBret core tag host half (bareBundle e)) s fun t =>
      s.retires t core ∧ (s.on R.BARGE_CTRL.EN (s.ctxOf core) = false → t.tagDone0 core tag.toNat)) ∧
  (∀ (core : Fin 512) (tag : BitVec 6) (desc : BitVec 14) (e : Surround), s.takesBundle core (withX (bareBundle e) (.msg tag desc)) = true → Completes (.xMsg core tag desc (bareBundle e)) s fun t =>
      (if 0xC0000 < desc.toNat * 64 + 64 then s.traps t core 4 5 (desc.toNat * 64) else if (msgDesc ((s.core core).scrRead (desc.toNat * 64) 64)).unified = false ∧ 0xC0000 < (msgDesc ((s.core core).scrRead (desc.toNat * 64) 64)).laddr + (msgDesc ((s.core core).scrRead (desc.toNat * 64) 64)).len then s.traps t core 4 5 (msgDesc ((s.core core).scrRead (desc.toNat * 64) 64)).laddr
      else if (msgDesc ((s.core core).scrRead (desc.toNat * 64) 64)).unified = true ∧ ((s.slotStart core).rangeXlat core (msgDesc ((s.core core).scrRead (desc.toNat * 64) 64)).laddr (msgDesc ((s.core core).scrRead (desc.toNat * 64) 64)).len (if (msgDesc ((s.core core).scrRead (desc.toNat * 64) 64)).op = 2 then 2 else 1)).1 = .wait then s.waitsOn t core else if (msgDesc ((s.core core).scrRead (desc.toNat * 64) 64)).unified = true ∧ ((s.slotStart core).rangeXlat core (msgDesc ((s.core core).scrRead (desc.toNat * 64) 64)).laddr (msgDesc ((s.core core).scrRead (desc.toNat * 64) 64)).len (if (msgDesc ((s.core core).scrRead (desc.toNat * 64) 64)).op = 2 then 2 else 1)).1.failAt.isSome = true then s.traps t core 5 5 (((s.slotStart core).rangeXlat core (msgDesc ((s.core core).scrRead (desc.toNat * 64) 64)).laddr (msgDesc ((s.core core).scrRead (desc.toNat * 64) 64)).len (if (msgDesc ((s.core core).scrRead (desc.toNat * 64) 64)).op = 2 then 2 else 1)).1.failAt.getD 0)
      else s.retires t core ∧ (((t.core core).tag tag.toNat).busy = true ∨ ((t.core core).tag tag.toNat).status ≠ 0)))

/-- The matrix engine executes the head of its queue: configuration, load, multiplication by weights or a B operand,
read-out and the flags record. A command refused by the mode sets MODE_ERR and leaves every accumulator; an
accumulator takes the exact sum of a slab's or chunk's products, placed at PAN_BP, and saturates. -/
def Obligations.MatrixEngineCommands : Prop := ∀ s : State,
  (∀ (core : Fin 512) (clrAcc clrFlags : Bool) (mode : BitVec 2) (bp : BitVec 8), s.mxHead core = some (.cfg clrAcc clrFlags mode bp) → Completes (.mxCfg core) s fun t =>
      (s.core core).takesCommand (t.core core) ∧ (t.core core).engine.mode = mode.toNat ∧ (t.core core).engine.bp = bp.toNat ∧
      (t.core core).engine.acc = (if clrAcc = true ∨ mode.toNat ≠ (s.core core).engine.mode then [] else (s.core core).engine.acc) ∧ (t.core core).engine.bad = (if clrAcc = true ∨ mode.toNat ≠ (s.core core).engine.mode then 0 else (s.core core).engine.bad) ∧
      (t.core core).engine.flags = (if clrFlags = true then 0 else (s.core core).engine.flags) ∧ (t.core core).engine.abuf = (s.core core).engine.abuf ∧ (t.core core).engine.scales = (s.core core).engine.scales ∧ (t.core core).engine.afmt = (s.core core).engine.afmt) ∧
  (∀ (core : Fin 512) (ecc : Ecc) (src : BitVec 14) (rowsM1 : BitVec 4) (fmt : BitVec 2) (kuM1 : BitVec 9) (stride scaleSrc : BitVec 14) (en : Bool), mLegal (.lda src rowsM1 fmt kuM1 stride scaleSrc en) = true → s.mxHead core = some (.lda src rowsM1 fmt kuM1 stride scaleSrc en) → ecc ≠ .uncorrectable → Completes (.mxLda core ecc) s fun t =>
      (s.core core).takesCommand (t.core core) ∧ (t.core core).engine.afmt = fmt.toNat ∧ (t.core core).engine.holdsRows (s.core core) (src.toNat * 64) (rowsM1.toNat + 1) ((kuM1.toNat + 1) * 32 * fmtBytes fmt.toNat) (if stride = 0#14 then ceil64 ((kuM1.toNat + 1) * 32 * fmtBytes fmt.toNat) else stride.toNat * 64) ∧ (t.core core).engine.acc = (s.core core).engine.acc ∧
      ∀ r : Fin 16, tget 0x3F800000 (t.core core).engine.scales r = (if en = true then ofLe ((s.core core).scrRead (scaleSrc.toNat * 64 + 4 * r) 4) else 0x3F800000)) ∧
  (∀ (core : Fin 512) (ecc : Ecc) (wsrc len : BitVec 14) (slabsM1 koff : BitVec 7), s.mxHead core = some (.mmw wsrc len slabsM1 koff) → Completes (.mxMmw core ecc) s fun t =>
      (if (s.core core).engine.mmwOk = false then t.fld R.MX_FLAGS.MODE_ERR (core / 64) (core % 64) = 1 ∧ (t.core core).engine.acc = (s.core core).engine.acc
      else if ecc = .uncorrectable then t.coreState core = coreFenced else (s.core core).takesCommand (t.core core) ∧ (t.core core).engine.abuf = (s.core core).engine.abuf ∧ (t.core core).engine.mode = (s.core core).engine.mode ∧
      (slabsM1 = 0#7 → ∀ r : Fin 16, ∀ n : Fin 16, r.val < (s.core core).engine.rows → tget 0 (t.core core).engine.acc (16 * r + n) = clampS (if (s.core core).engine.mode = 2 then 256 else 128) (tget 0 (s.core core).engine.acc (16 * r + n) +
      ((s.core core).engine.slabUnit (readSlab ((s.core core).scrRead (wsrc.toNat * 64) (len.toNat * 64))).blocks (koff.toNat * 128) r n).sum)))) ∧
  (∀ (core : Fin 512) (ecc : Ecc) (bsrc : BitVec 14) (bfmt : BitVec 2) (chM1 koff : BitVec 10), s.mxHead core = some (.mma bsrc bfmt chM1 koff) → Completes (.mxMma core ecc) s fun t =>
      (if (s.core core).engine.mmaOk bfmt.toNat = false then t.fld R.MX_FLAGS.MODE_ERR (core / 64) (core % 64) = 1 ∧ (t.core core).engine.acc = (s.core core).engine.acc
      else if ecc = .uncorrectable then t.coreState core = coreFenced else (s.core core).takesCommand (t.core core) ∧ (t.core core).engine.abuf = (s.core core).engine.abuf ∧ (t.core core).engine.mode = (s.core core).engine.mode ∧
      (chM1 = 0#10 → (s.core core).engine.mode ≠ 1 → ∀ r : Fin 16, ∀ n : Fin 16, r.val < (s.core core).engine.rows → tget 0 (t.core core).engine.acc (16 * r + n) = clampS (if (s.core core).engine.mode = 2 then 256 else 128) (tget 0 (s.core core).engine.acc (16 * r + n) +
      ((s.core core).engine.chunkUnit bfmt.toNat ((s.core core).scrRead (bsrc.toNat * 64) 256) (koff.toNat * (if bfmt = 3#2 then 8 else 16)) r n).sum)))) ∧
  (∀ (core : Fin 512) (drop : List Nat) (dst : BitVec 14) (ofmt : BitVec 2) (tscale clr : Bool) (oshift : BitVec 8) (stride : BitVec 14), s.mxHead core = some (.rd dst ofmt tscale clr oshift stride) → Completes (.mxRd core drop) s fun t =>
      (s.core core).takesCommand (t.core core) ∧
      (∀ w ∈ drop, ∀ i : Fin 64, tget 0#8 (t.core core).scr (64 * w + i) = tget 0#8 (s.core core).scr (64 * w + i)) ∧
      (drop = [] → ∀ r : Fin 16, r.val < (s.core core).engine.rows → (t.core core).scrRead (dst.toNat * 64 + r * (if stride = 0#14 then (if ofmt = 0#2 then 32 else if ofmt = 1#2 then 64 else 16) else stride.toNat * 64)) (if ofmt = 0#2 then 32 else if ofmt = 1#2 then 64 else 16) =
      ((s.core core).engine.rowOut ofmt.toNat r tscale oshift.toInt).1) ∧ (t.core core).engine.acc = (if clr = true then [] else (s.core core).engine.acc) ∧ (t.core core).engine.mode = (s.core core).engine.mode) ∧
  (∀ (core : Fin 512) (drop : List Nat) (dst : BitVec 14) (clr : Bool), s.mxHead core = some (.stf dst clr) → Completes (.mxStf core drop) s fun t =>
      (s.core core).takesCommand (t.core core) ∧
      (∀ w ∈ drop, ∀ i : Fin 64, tget 0#8 (t.core core).scr (64 * w + i) = tget 0#8 (s.core core).scr (64 * w + i)) ∧ (drop = [] → (t.core core).scrRead (dst.toNat * 64) 64 =
      leBytes ((s.core core).engine.flags % 256) 4 ++ leBytes ((s.core core).engine.mode % 4 + 4 * ((s.core core).engine.bp % 256) + 1024 * ((s.core core).engine.afmt % 4)) 4 ++ List.replicate 24 0 ++ leBytes (if (s.core core).engine.mode = 2 then (s.core core).engine.bad % 2 ^ 128 else (s.core core).engine.bad) 32) ∧
      (t.core core).engine.flags = (if clr = true then 0 else if dst.toNat ∈ drop then setBit (s.core core).engine.flags 5 else (s.core core).engine.flags) ∧ (t.core core).engine.acc = (s.core core).engine.acc)

/-- What reaches a core from outside its bundles: the end of a HALT, of a transfer, of a load and of a wait for a
layer, the entry into run-ahead and its limits. A transfer that ends with status 0 has its bytes in place when its
tag clears; run-ahead keeps its registers apart, so that no architectural register changes. -/
def Obligations.CoreEventCommands : Prop := ∀ s : State,
  (∀ (core : Fin 512), Completes (.haltComplete core) s fun t =>
      (if (s.core core).halting = true ∧ (s.core core).engine.queue = [] ∧ (s.core core).xops = [] then
      t.coreState core = coreReady ∧ (t.core core).halting = false ∧ (t.core core).src = .none else t = s)) ∧
  (∀ (core : Fin 512) (rd : BitVec 5) (data : List Byte), Completes (.lduDataReturn core rd data) s fun t =>
      (∀ p, ((s.core core).pend.find? fun p => decide (p.rd = rd)) = some p → (t.core core).s rd = (if rd = 0#5 then 0#64 else (p.arrived data s.free).1) ∧
      (∀ r : BitVec 5, r ≠ rd → (t.core core).s r = (s.core core).s r) ∧ (t.core core).pend = (s.core core).pend.erase p) ∧
      ((∀ p ∈ (s.core core).pend, p.rd ≠ rd) → t = s)) ∧
  (∀ (core : Fin 512) (w : Bundle), s.atPc core w = true → (s.core core).ra = none → Completes (.runaheadEntry core w) s fun t =>
      (if s.fld R.CORE_CFG.RUNAHEAD_THRESH core ≠ 0 ∧ (s.core core).pendFor w ≠ [] ∧ (∀ p ∈ (s.core core).pendFor w, p.t3 = false) then
      t.fld R.CORE_STATE.RA_ACTIVE core = 1 ∧ (t.core core).ra.isSome = true ∧ (s.core core).keepsRegs (t.core core) ∧ (t.core core).pc = (s.core core).pc ∧ (t.core core).pend = (s.core core).pend else t = s)) ∧
  (∀ (core : Fin 512), Completes (.runaheadLimit core) s fun t =>
      (∀ a, (s.core core).ra = some a → (t.core core).ra = some (if a.limit ≤ a.issued ∨ 32 ≤ a.stores.length then { a with stopped := true } else a)) ∧
      ((s.core core).ra = none → t = s)) ∧
  (∀ (core : Fin 512) (tag : BitVec 6) (data : List Byte) (failed : Bool) (drop : List Nat) (x : XPend), (s.core core).xop tag.toNat 0x31 = some x → (s.core core).xop tag.toNat 0x30 = none → Completes (.transferComplete core tag data failed drop .ok) s fun t =>
      (t.core core).tag tag.toNat = ⟨false, 0, decide (lostWords x.b x.c drop ≠ [])⟩ ∧ (s.core core).sregs = (t.core core).sregs ∧
      (drop = [] → (t.core core).scrRead x.b x.c = (s.core core).scrRead x.a x.c)) ∧
  (∀ (core : Fin 512) (tag : BitVec 6) (data : List Byte) (drop : List Nat) (x : XPend), (s.core core).xop tag.toNat 0x30 = some x → s.xferHeld core x = false → Completes (.transferComplete core tag data false drop .ok) s fun t =>
      (x.d = 0 → ∀ bs, (s.rangeRead (s.ctxOf core) x.a x.c x.sel data).1 = some bs → ((t.core core).tag tag.toNat = ⟨false, 0, decide (lostWords x.b bs.length drop ≠ [])⟩ ∧
      (drop = [] → (t.core core).scrRead x.b bs.length = bs))) ∧
      (x.d ≠ 0 → ((t.core core).tag tag.toNat = ⟨false, 0, false⟩ ∧ (∀ e ∈ x.sel, x.sel.length = 1 → leafTier e < 2 → x.a % 65536 + x.c ≤ 65536 → t.physRead (leafTier e) (leafLoc e) x.a x.c = (s.core core).scrRead x.b x.c)))) ∧
  (∀ (core : Fin 512) (tag : BitVec 6), Completes (.lwaitComplete core tag) s fun t =>
      (∀ x, (s.core core).xop tag.toNat 0x45 = some x → (if s.layerReady (s.ctxOf core) x.a = true then t.tagDone0 core tag.toNat else t = s)) ∧
      ((s.core core).xop tag.toNat 0x45 = none → t = s)) ∧
  (∀ (core : Fin 512) (w : Bundle), Completes (.illegalBundle core w) s fun t =>
      (s.executes core = true → (s.core core).ra = none → (s.fetch core).1 ≠ .wait → (s.fetch core).1 ≠ .fail → s.atPc core w = true →
      illegalBundle w (s.core core) = true → s.traps t core 2 7 0) ∧ (illegalBundle w (s.core core) = false → t = s)) ∧
  (∀ (core : Fin 512) (w : Bundle), s.executes core = true → (s.core core).ra = none → (s.fetch core).1 = .fail → Completes (.fetchXlat core w) s fun t =>
      s.traps t core 1 7 0)

/-- A detector fences its core: the core stops, leaves its context's set and holds the cause, and its scratchpad is
cleared; the ends of clears and the patrol scrub. A fenced core keeps nothing of its engine, tags and operations; a
clear that fails leaves the core, or the slice's subpages, unavailable until a die reset. -/
def Obligations.FenceAndClearCommands : Prop := ∀ s : State,
  (∀ (core : Fin 512), Completes (.pipelineParityError core) s fun t =>
      (t.coreState core = coreFenced ∧ t.fld R.CORE_FENCE.PARITY core = 1 ∧
      (s.coreState core ≠ coreFenced → (t.core core).engine = Engine.reset ∧ (t.core core).tags = [] ∧ (t.core core).xops = [] ∧ (t.core core).clearing = true ∧ t.fld R.CORE_STATE.CTX core = 0 ∧
      (t.core core).scr = (s.core core).scr))) ∧
  (∀ (core : Fin 512), Completes (.coreWatchdogExpiry core) s fun t =>
      (if s.coreState core = coreRunning ∧ (s.core core).lastRetire + s.fld R.CORE_WDOG.LIMIT core ≤ s.tick ∧ s.waitsOutside core = false then
      (t.coreState core = coreFenced ∧ t.fld R.CORE_FENCE.WDOG core = 1 ∧
      (s.coreState core ≠ coreFenced → (t.core core).engine = Engine.reset ∧ (t.core core).tags = [] ∧ (t.core core).xops = [] ∧ (t.core core).clearing = true ∧ t.fld R.CORE_STATE.CTX core = 0 ∧
      (t.core core).scr = (s.core core).scr))
      else t = s)) ∧
  (∀ (core : Fin 512) (failed : Bool), Completes (.fenceClearDone core failed) s fun t =>
      (if s.coreState core = coreFenced then (if (s.core core).clearing = true then (t.core core).clearing = false ∧ (if failed = true then (t.core core).clearBad = true else (t.core core).scr = []) ∧ t.coreState core = s.coreState core else t = s) else t = s)) ∧
  (∀ (die : Fin 8) (i : Fin 64) (failed : Bool), Completes (.clearDone die (some i) failed) s fun t =>
      (if s.coreState (64 * die + i) ≠ coreFenced then (if (s.core (64 * die + i)).clearing = true then (t.core (64 * die + i)).clearing = false ∧ (if failed = true then (t.core (64 * die + i)).clearBad = true else (t.core (64 * die + i)).scr = []) ∧ t.coreState (64 * die + i) = s.coreState (64 * die + i) else t = s) else t = s)) ∧
  (∀ (die : Fin 8) (failed : Bool), Completes (.clearDone die none failed) s fun t =>
      (if s.on R.BASIN_STATUS.CLEAR_BUSY die = true then t.on R.BASIN_STATUS.CLEAR_BUSY die = false ∧ (if failed = true then bit t.basinBad die = true ∧ t.basin = s.basin else t.basinBad = s.basinBad ∧
      ∀ o : Fin 300, tget 0#8 t.basin (die * 2 ^ 25 + o * 111847) = 0#8 ∧ t.hbm = s.hbm) else t = s)) ∧
  (∀ (die : Fin 8) (line : BitVec 18) (ecc : Ecc) (again : Bool), Completes (.basinScrubRead die line ecc again) s fun t =>
      (if s.on R.BASIN_CTRL.SCRUB_EN die = false ∨ s.on R.BASIN_STATUS.CLEAR_BUSY die = true then t = s
      else t.fld R.BASIN_STATUS.SCRUB_ACTIVE die = (if line.toNat = 262143 then 0 else 1) ∧ (ecc ≠ .uncorrectable → t.fld R.BASIN_SCRUB_PASSES.COUNT die =
      (if line.toNat = 262143 then (s.fld R.BASIN_SCRUB_PASSES.COUNT die + 1) % 2 ^ 32 else s.fld R.BASIN_SCRUB_PASSES.COUNT die))))

/-- The ends of the Sluice's transfers, the release of copies, and the late layers, late pages and stuck write-backs
of a context. A fill that no write has overtaken leaves the bytes of its source at its copy, which waits for its
switch; a write-back leaves a clean copy, and its bytes at the home. -/
def Obligations.SluiceEventCommands : Prop := ∀ s : State,
  (∀ (ctx : Fin 16) (sub : BitVec 32) (data : List Byte) (failed ue : Bool) (k : Copy) (o : Fin 65536), s.halted = false → (s.ctx ctx).copy sub.toNat = k → (s.ctx ctx).move sub.toNat = Copy.none → k.state = 0 → k ≠ Copy.none → k.written = false → k.immediate = false → leafTier (s.leaf ctx sub.toNat) < 2 → k.tier < 2 → leafTier k.home < 2 → ue = false → Completes (.sluiceTransferDone ctx sub data failed ue) s fun t =>
      (t.ctx ctx).copy sub.toNat = { k with state := 1 } ∧ t.fld R.SLUICE_STAGED.COUNT ctx = (s.fld R.SLUICE_STAGED.COUNT ctx + 1) % 2 ^ 64 ∧
      t.physRead k.tier k.loc o 1 = s.physRead (leafTier (s.leaf ctx sub.toNat)) (leafLoc (s.leaf ctx sub.toNat)) o 1 ∧ (t.ctx ctx).queue.length = (s.ctx ctx).queue.length + 1) ∧
  (∀ (ctx : Fin 16) (sub : BitVec 32) (data : List Byte) (failed ue : Bool) (k : Copy) (o : Fin 65536), s.halted = false → (s.ctx ctx).copy sub.toNat = k → (s.ctx ctx).move sub.toNat = Copy.none → k.state = 3 → k.written = false → k.back = false → k.tier < 2 → leafTier k.home < 2 → ue = false → Completes (.sluiceTransferDone ctx sub data failed ue) s fun t =>
      (t.ctx ctx).copy sub.toNat = { k with state := 2, dirty := false, stuck := false } ∧ t.fld R.SLUICE_WRITTEN_BACK.COUNT ctx = (s.fld R.SLUICE_WRITTEN_BACK.COUNT ctx + 1) % 2 ^ 64 ∧
      t.physRead (leafTier k.home) (leafLoc k.home) o 1 = s.physRead k.tier k.loc o 1) ∧
  (∀ (ctx : Fin 16) (sub : BitVec 32) (data : List Byte) (failed ue : Bool), s.halted = true ∨ (s.ctx ctx).inFlight sub.toNat = false → Completes (.sluiceTransferDone ctx sub data failed ue) s fun t =>
      t = s) ∧
  (∀ (ctx : Fin 16), (s.ctx ctx).waiting 0 = [] → (s.ctx ctx).waiting 1 = [] → (s.ctx ctx).cmd = none → Completes (.copyRelease ctx) s fun t =>
      ((t.ctx ctx).releases = (s.ctx ctx).releases.filter fun r => !(decide (r.epoch ≤ s.oldest ctx) && !s.locInUse ctx r.tier r.loc))) ∧
  (∀ (ctx : Fin 16) (layer : BitVec 8), Completes (.sluiceLate ctx layer) s fun t =>
      (if (∃ n ∈ s.coresOf ctx, ∃ x ∈ (s.core n).xops, x.kind = 0x45 ∧ x.a = layer.toNat) ∧ s.layerReady ctx layer.toNat = false ∧ layer.toNat ∉ (s.ctx ctx).member.lateTold then
      t.fld R.SLUICE_LATE.COUNT ctx = (s.fld R.SLUICE_LATE.COUNT ctx + 1) % 2 ^ 32 ∧ (t.ctx ctx).member.lateTold = (s.ctx ctx).member.lateTold ++ [layer.toNat] else t = s)) ∧
  (∀ (ctx : Fin 16) (sub : BitVec 32), Completes (.tierWaitExpiry ctx sub) s fun t =>
      (if 2 ≤ leafTier (s.homeLeaf ctx sub.toNat) ∧ (((s.ctx ctx).move sub.toNat ≠ Copy.none ∧ ((s.ctx ctx).move sub.toNat).state = 0 ∧ ((s.ctx ctx).move sub.toNat).tier = 1) ∨ s.walkRuns ctx = true) ∧
      s.kvMaps ctx (leafTier (s.homeLeaf ctx sub.toNat)) (leafLoc (s.homeLeaf ctx sub.toNat)) ≠ [] then t.fld R.SLUICE_TIER_FAULTS.COUNT ctx = (s.fld R.SLUICE_TIER_FAULTS.COUNT ctx + 1) % 2 ^ 32 else t = s)) ∧
  (∀ (ctx : Fin 16) (sub : BitVec 32), tableWf Copy.none 0 (s.ctx ctx).copies = true → Completes (.writebackRetry ctx) s fun t =>
      (t.ctx ctx).copy sub.toNat = (if ((s.ctx ctx).copy sub.toNat).stuck = true ∧ ((s.ctx ctx).copy sub.toNat).state = 2 then { (s.ctx ctx).copy sub.toNat with state := 3, written := false, retries := 0 } else (s.ctx ctx).copy sub.toNat))

/-- A page-table walk, the acknowledgement of an immediate invalidation, a pending advance, the retirement of an
epoch, and the end of an Assay comparison. A walk installs the leaf table of its 2 MiB page in the die's TLB; an
advance applies the queue when no core of the context runs and no older epoch is live. -/
def Obligations.TranslationEventCommands : Prop := ∀ s : State,
  (∀ (ctx : Fin 16), Completes (.invNowAcknowledged ctx) s fun t =>
      (if s.on (hdrDutyMode .xlat) ctx = true then t.on R.XLAT_UQ_RESULT.DONE ctx = true else t = s)) ∧
  (∀ (ctx : Fin 16), Completes (.advanceApply ctx) s fun t =>
      (if s.on R.XLAT_STATUS.ADV_PENDING ctx = false ∨ (∃ n ∈ s.coresOf ctx, s.coreState n = coreRunning) then t = s
      else if s.oldest ctx ≠ s.epoch ctx then t.on R.XLAT_STATUS.EPOCH_WAIT ctx = true ∧ t.on R.XLAT_STATUS.ADV_PENDING ctx = true ∧ t.epoch ctx = s.epoch ctx
      else t.on R.XLAT_STATUS.ADV_PENDING ctx = false ∧ t.on R.XLAT_STATUS.EPOCH_WAIT ctx = false ∧ t.epoch ctx = (s.epoch ctx + 1) % 2 ^ 32)) ∧
  (∀ (ctx : Fin 16), Completes (.epochRetire ctx) s fun t =>
      (if s.oldest ctx ≠ s.epoch ctx ∧ s.epochHeld ctx (s.oldest ctx) = false then t.oldest ctx = (s.oldest ctx + 1) % 2 ^ 32 else t = s)) ∧
  (∀ (die : Fin 8) (ctx : Fin 16) (page : BitVec 27) (w : Walk), (s.walks.find? fun w => decide (w.die = die.val ∧ w.ctx = ctx.val ∧ w.page = page.toNat) && !w.failed && !w.host) = some w → Completes (.pageWalkDone die ctx page .ok) s fun t =>
      (w.stale = true → t.dieTlb = s.dieTlb ∧ t.walks = s.walks.erase w) ∧
      (w.stale = false → s.on (hdrDutyMode .xlat) ctx = false → t.walks = s.walks.erase w ∧ tget [] t.dieTlb (tlbKey die ctx page.toNat) = s.leafTable ctx page.toNat)) ∧
  (∀ (die : Fin 8) (x : XPend), Completes (.assayCompareDone die .ok) s fun t =>
      (if tget 0 s.assayUnit die = 0 then t = s else ((s.core (tget 0 s.assayUnit die - 1)).xops.find? fun x => decide (x.kind = 0x40) && x.granted) = some x →
      ((t.core (tget 0 s.assayUnit die - 1)).tag x.tag = ⟨false, 0, false⟩ ∧ (t.core (tget 0 s.assayUnit die - 1)).scr = (s.core (tget 0 s.assayUnit die - 1)).scr)))

/-- A die's walker grants a waiting walk and delivers it, a post's copy ends, the Rakes scatter once a step is
committed, and the boundary follows the scatter. A walk that failed as it was granted completes with its tag, counted
as a walk and as a fault. A boundary advances the epoch unless an older epoch is live. -/
def Obligations.AttentionEventCommands : Prop := ∀ s : State,
  (∀ (die : Fin 8) (far : List Byte) (ecc : Ecc), 32 ≤ s.walksOn die ∨ rotPick 64 (tget 0 s.walkPtr die) (fun i => s.walkWaits (64 * die + i)) = none → Completes (.awalkGrant die far ecc) s fun t =>
      t = s) ∧
  (∀ (die : Fin 8) (far : List Byte) (ecc : Ecc) (i : Fin 64), s.walksOn die < 32 → rotPick 64 (tget 0 s.walkPtr die) (fun i => s.walkWaits (64 * die + i)) = some i.val → Completes (.awalkGrant die far ecc) s fun t =>
      (if ecc = .uncorrectable then t.coreState (64 * die + i) = coreFenced
      else ((t.core (64 * die + i)).xops.any fun x => decide (x.kind = 0x48 ∧ x.granted = true ∧ x.data = (s.core (64 * die + i)).scrRead x.a 64)) = true)) ∧
  (∀ (core : Fin 512) (tag : BitVec 6) (far : List Byte) (k : Fin 8) (off : BitVec 16) (ecc : Ecc) (drop : List Nat) (x : XPend), (s.core core).xop tag.toNat 0x48 = some x → Completes (.awalkComplete core tag far k off ecc drop) s fun t =>
      (if x.granted = false then t = s else x.c ≠ 0 →
      (((t.core core).tag tag.toNat).busy = false ∧ ((t.core core).tag tag.toNat).status = 0 ∧ t.fld R.ATTN_WALKS.COUNT (s.ctxOf core) = (s.fld R.ATTN_WALKS.COUNT (s.ctxOf core) + 1) % 2 ^ 64 ∧ t.fld R.ATTN_WALK_FAULTS.COUNT (s.ctxOf core) = (s.fld R.ATTN_WALK_FAULTS.COUNT (s.ctxOf core) + 1) % 2 ^ 32))) ∧
  (∀ (core : Fin 512) (tag : BitVec 6) (far : List Byte) (k : Fin 8) (off : BitVec 16) (drop : List Nat), Completes (.awalkComplete core tag far k off .ok drop) s fun t =>
      ((s.core core).xop tag.toNat 0x48 = none → t = s) ∧ (((t.core core).tag tag.toNat = (s.core core).tag tag.toNat) ∨ (((t.core core).tag tag.toNat).busy = false ∧ t.fld R.ATTN_WALKS.COUNT (s.ctxOf core) = (s.fld R.ATTN_WALKS.COUNT (s.ctxOf core) + 1) % 2 ^ 64))) ∧
  (∀ (core : Fin 512) (tag : BitVec 6) (ecc : Ecc), Completes (.rkpostCopyDone core tag ecc) s fun t =>
      (if (s.core core).xop tag.toNat 0x49 = none then t = s else if ecc = .uncorrectable then t.coreState core = coreFenced
      else t.tagDone0 core tag.toNat ∧ (t.core core).scr = (s.core core).scr)) ∧
  (∀ (ctx : Fin 16), Completes (.scatterComplete ctx) s fun t =>
      (if (s.ctx ctx).member.active = true ∧ (s.ctx ctx).member.committed = true ∧ (s.ctx ctx).member.scattered = false then (t.ctx ctx).member.scattered = true ∧ (t.ctx ctx).posts = [] ∧ t.fld R.STEP_STATUS.PHASE ctx = 3 else t = s)) ∧
  (∀ (ctx : Fin 16) (far : List Byte), Completes (.stepBoundary ctx far) s fun t =>
      (if (s.ctx ctx).member.scattered = false ∨ s.ended ctx = true then t = s
      else if s.oldest ctx ≠ s.epoch ctx then t.on R.XLAT_STATUS.EPOCH_WAIT ctx = true ∧ t.epoch ctx = s.epoch ctx ∧ (t.ctx ctx).member = (s.ctx ctx).member else t.epoch ctx = (s.epoch ctx + 1) % 2 ^ 32))

/-- A half closes when full and a tag is free; parts of no barge of the module change nothing; waits, drains and
replicas end; a rebalance epoch counts. A part that arrives late for its step is counted as stale. -/
def Obligations.BargeEventCommands : Prop := ∀ s : State,
  (∀ (ctx : Fin 16) (layer : BitVec 8) (half : Bool) (far : List Byte), Completes (.bargeClose ctx layer half far) s fun t =>
      (if ((s.ctx ctx).half (halfKey layer.toNat half)).full = false ∨ ((s.ctx ctx).half (halfKey layer.toNat half)).tag.isSome = true then t = s
      else if (s.ctx ctx).freeTag = none then ((t.ctx ctx).half (halfKey layer.toNat half)).waited = true ∧ (((s.ctx ctx).half (halfKey layer.toNat half)).waited = false → t.fld R.BARGE_TAG_WAITS.COUNT ctx = (s.fld R.BARGE_TAG_WAITS.COUNT ctx + 1) % 2 ^ 32)
      else ((t.ctx ctx).half (halfKey layer.toNat half)).tag = (s.ctx ctx).freeTag)) ∧
  (∀ (p : Part), Completes (.dispatchPart p) s fun t =>
      (partKind p.bytes ≠ 1 → t = s) ∧ (s.partCtx p.bytes = none → t = s) ∧ (∀ ctx : Fin 16, s.partCtx p.bytes = some ctx.val → s.ended ctx = false → partKind p.bytes = 1 → partOk (s.dModel ctx) p.bytes = true →
      ((partStep p.bytes < s.fld R.STEP_NUMBER.STEP ctx → t.fld R.BARGE_RX_STALE.COUNT ctx = (s.fld R.BARGE_RX_STALE.COUNT ctx + 1) % 2 ^ 32) ∧ (s.fld R.STEP_NUMBER.STEP ctx < partStep p.bytes → (t.ctx ctx).member.heldParts = (s.ctx ctx).member.heldParts ++ [p])))) ∧
  (∀ (p : Part), Completes (.returnPart p) s fun t =>
      (partKind p.bytes ≠ 2 → t = s) ∧ (s.partCtx p.bytes = none → t = s) ∧ (∀ ctx : Fin 16, s.partCtx p.bytes = some ctx.val → partKind p.bytes = 2 → partOk (s.dModel ctx) p.bytes = true →
      (((s.ctx ctx).barge (partTag p.bytes)).answers (s.dModel ctx) p.src p.bytes).isNone = true → t.fld R.BARGE_RET_STALE.COUNT ctx = (s.fld R.BARGE_RET_STALE.COUNT ctx + 1) % 2 ^ 32 ∧ (t.ctx ctx).member.staleTold = true)) ∧
  (∀ (core : Fin 512) (tag : BitVec 6) (drop : List Nat) (x : XPend), (s.core core).xop tag.toNat 0x4D = some x → Completes (.bwaitComplete core tag drop) s fun t =>
      (if (s.ctx (s.ctxOf core)).waitMet x = true then ((t.core core).tag tag.toNat).busy = false ∧ ((t.core core).tag tag.toNat).status = 0 ∧
      (drop = [] → (t.core core).scrRead (x.a * 64) 64 = (s.ctx (s.ctxOf core)).waitRecord x) else t = s)) ∧
  (∀ (ctx : Fin 16) (layer : BitVec 8) (half side : Bool), Completes (.bargeRetTimeout ctx layer half side) s fun t =>
      (if (s.ctx ctx).missingNodes (halfKey layer.toNat half) (b2n side) = [] ∨ (side = true ∧ ∀ n ∈ s.coresOf ctx, ∀ x ∈ (s.core n).xops, x.waitsFor (halfKey layer.toNat half) 1 = false) then t = s else t.fld R.BARGE_TIMEOUTS.COUNT ctx = (s.fld R.BARGE_TIMEOUTS.COUNT ctx + 1) % 2 ^ 32)) ∧
  (∀ (ctx : Fin 16) (tag : BitVec 12), Completes (.bargeDrainMax ctx tag) s fun t =>
      (if ((s.ctx ctx).barge tag.toNat).draining = true then (t.ctx ctx).barge tag.toNat = Barge.none else t = s)) ∧
  (∀ (ctx : Fin 16) (others spares : List (Nat × Nat × Nat)), Completes (.rebalanceEpoch ctx others spares) s fun t =>
      (if (s.ctx ctx).commits < s.fld R.BARGE_REBAL.STEPS ctx then t = s else (t.ctx ctx).commits = 0 ∧ t.fld R.BARGE_EPOCH.COUNT ctx = (s.fld R.BARGE_EPOCH.COUNT ctx + 1) % 2 ^ 32)) ∧
  (∀ (ctx : Fin 16) (layer : BitVec 8) (expert : BitVec 12) (index : Fin 8) (data : List Byte) (failed : Bool) (p : Placement), ((s.ctx ctx).placements.find? fun p => decide (p.layer = layer.toNat ∧ p.expert = expert.toNat ∧ p.index = index.val ∧ p.kind = 2) && !p.ready) = some p → Completes (.replicaCopyDone ctx layer expert index data failed) s fun t =>
      (failed = true → (t.ctx ctx).placements = (s.ctx ctx).placements.filter fun q => decide (q ≠ p)) ∧ (failed = false → (t.ctx ctx).placements = (s.ctx ctx).placements.map fun q => if q = p then { q with ready := true } else q))

/-- A step message is taken by the context whose convoy it names and is for the step and instance in flight; every
other changes nothing. A broadcast starts a member's instance, a COMMIT settles it, the last SCATTERED ends the step
at the helm, a REPLAY is counted, and CONVOY_END ends the context. -/
def Obligations.StepMessageCommands : Prop := ∀ s : State,
  (∀ (m : StepMsg), s.stepTarget 1 m = none → Completes (.bcast m) s fun t =>
      t = s) ∧
  (∀ (m : StepMsg) (ctx : Fin 16), s.stepTarget 1 m = some ctx.val → Completes (.bcast m) s fun t =>
      (if s.ended ctx = true ∨ s.ctxInReset ctx = true then t = s else if (s.ctx ctx).member.active = false then
      (if s.fld R.STEP_NUMBER.STEP ctx < m.step ∨ (s.helm ctx = true ∧ s.isCurrent ctx m = true ∧ s.fld R.STEP_STATUS.PHASE ctx = 1) then
      (t.ctx ctx).member.active = true ∧ (t.ctx ctx).member.inst = m.inst ∧ (t.ctx ctx).member.work.length = m.count1 ∧ (t.ctx ctx).member.launched = false ∧ t.fld R.STEP_NUMBER.STEP ctx = m.step % 2 ^ 64 ∧ t.fld R.STEP_STATUS.PHASE ctx = 1 else t = s)
      else if s.fld R.STEP_NUMBER.STEP ctx < m.step then (t.ctx ctx).member = { (s.ctx ctx).member with held := some m } else m.inst ≤ (s.ctx ctx).member.inst → t = s)) ∧
  (∀ (m : StepMsg), s.stepTarget 2 m = none → Completes (.ready m) s fun t =>
      t = s) ∧
  (∀ (m : StepMsg) (ctx : Fin 16), s.stepTarget 2 m = some ctx.val → Completes (.ready m) s fun t =>
      (if s.isCurrent ctx m = true ∧ s.fld R.STEP_STATUS.PHASE ctx = 1 ∧ m.node ∉ (s.ctx ctx).helm.ready then (t.ctx ctx).helm.ready = (s.ctx ctx).helm.ready ++ [m.node] else t = s)) ∧
  (∀ (m : StepMsg), s.stepTarget 3 m = none → Completes (.commit m) s fun t =>
      t = s) ∧
  (∀ (m : StepMsg) (ctx : Fin 16), s.stepTarget 3 m = some ctx.val → Completes (.commit m) s fun t =>
      (if (s.ctx ctx).member.active = true ∧ s.isCurrent ctx m = true ∧ (s.ctx ctx).member.committed = false ∧ s.ended ctx = false then (t.ctx ctx).member.committed = true ∧ t.fld R.STEP_STATUS.PHASE ctx = 2 ∧ (t.ctx ctx).loadPend = [] ∧ (t.ctx ctx).commits = (s.ctx ctx).commits + 1 ∧
      (t.ctx ctx).member.settled.length = m.count1 ∧ (t.ctx ctx).member.admitted.length = m.count2 ∧ (s.helm ctx = false → t.fld R.STEP_STEPS.COUNT ctx = (s.fld R.STEP_STEPS.COUNT ctx + 1) % 2 ^ 64) else t = s)) ∧
  (∀ (m : StepMsg) (resident failed : List Nat), s.stepTarget 4 m = none → Completes (.scattered m resident failed) s fun t =>
      t = s) ∧
  (∀ (m : StepMsg) (resident failed : List Nat) (ctx : Fin 16), s.stepTarget 4 m = some ctx.val → Completes (.scattered m resident failed) s fun t =>
      ((s.isCurrent ctx m = false ∨ s.fld R.STEP_STATUS.PHASE ctx < 2 ∨ m.node ∈ (s.ctx ctx).helm.scattered) → t = s) ∧
      ((s.isCurrent ctx m = true ∧ 2 ≤ s.fld R.STEP_STATUS.PHASE ctx ∧ m.node ∉ (s.ctx ctx).helm.scattered ∧ (∃ n ∈ s.members ctx, n ≠ m.node ∧ n ∉ (s.ctx ctx).helm.scattered)) → (t.ctx ctx).helm.scattered = (s.ctx ctx).helm.scattered ++ [m.node])) ∧
  (∀ (m : StepMsg), s.stepTarget 5 m = none → Completes (.replay m) s fun t =>
      t = s) ∧
  (∀ (m : StepMsg) (ctx : Fin 16), s.stepTarget 5 m = some ctx.val → Completes (.replay m) s fun t =>
      (if s.isCurrent ctx m = true ∧ s.fld R.STEP_STATUS.PHASE ctx = 1 then t.ended ctx = true ∨ (t.fld R.STEP_REPLAYS.COUNT ctx = (s.fld R.STEP_REPLAYS.COUNT ctx + 1) % 2 ^ 32 ∧ t.fld R.STEP_STATUS.INSTANCE ctx = (s.fld R.STEP_STATUS.INSTANCE ctx + 1) % 2 ^ 8) else t = s)) ∧
  (∀ (m : StepMsg), s.stepTarget 6 m = none → Completes (.convoyEnd m) s fun t =>
      t = s) ∧
  (∀ (m : StepMsg) (ctx : Fin 16), s.stepTarget 6 m = some ctx.val → Completes (.convoyEnd m) s fun t =>
      (if s.ended ctx = true ∨ s.ctxInReset ctx = true then t.ended ctx = s.ended ctx else t.ended ctx = true ∧ t.fld R.FAULT_CTX.CODE 0 ctx = 0x4801))

/-- A member launches and reports its step, the helm commits when every READY is in and the rings have room, a held
builder runs again, stalls are counted. -/
def Obligations.StepProgressCommands : Prop := ∀ s : State,
  (∀ (ctx : Fin 16), Completes (.stepLaunch ctx) s fun t =>
      (if (s.ctx ctx).member.active = true ∧ (s.ctx ctx).member.launched = false ∧ (s.ctx ctx).member.replaying = false ∧ s.ctxRuns ctx = true ∧ (∀ n ∈ s.coresOf ctx, s.coreState n = coreReady) then (t.ctx ctx).member.launched = true ∧
      (t.ended ctx = false → ∀ n ∈ s.coresOf ctx, t.coreState n = coreRunning ∧ (t.core n).pc.toNat = s.addr R.STEP_ENTRY_PC.PC ctx) else t = s)) ∧
  (∀ (ctx : Fin 16), Completes (.memberReady ctx) s fun t =>
      (if (s.ctx ctx).member.active = true ∧ (s.ctx ctx).member.launched = true ∧ (s.ctx ctx).member.helmSent = false ∧ (s.ctx ctx).member.replaying = false ∧ s.ended ctx = false ∧ (∀ n ∈ s.coresOf ctx, (s.core n).src ≠ .step) then t.ended ctx = true ∨ (t.ctx ctx).member.helmSent = true else t = s)) ∧
  (∀ (ctx : Fin 16) (far : List Byte), Completes (.helmCommit ctx far) s fun t =>
      (if s.helm ctx = true ∧ s.fld R.STEP_STATUS.PHASE ctx = 1 ∧ s.ended ctx = false ∧ (∀ n ∈ s.members ctx, n ∈ (s.ctx ctx).helm.ready) then
      (if s.ringRoom ctx 1 < (s.commitNeeds ctx).1 ∨ s.ringRoom ctx 0 < (s.commitNeeds ctx).2 then (t.ctx ctx).helm.ringTold = true ∧ t.fld R.STEP_STATUS.PHASE ctx = 1 ∧ ((s.ctx ctx).helm.ringTold = false → t.fld R.LD_RING_WAITS.COUNT ctx = (s.fld R.LD_RING_WAITS.COUNT ctx + 1) % 2 ^ 32)
      else t.fld R.STEP_STATUS.PHASE ctx = 2 ∨ t.ended ctx = true) else t = s)) ∧
  (∀ (ctx : Fin 16), (s.ctx ctx).helm.held = false → Completes (.buildRetry ctx) s fun t =>
      t = s) ∧
  (∀ (ctx : Fin 16), (s.ctx ctx).helm.held = true → s.stepsRun ctx = false → Completes (.buildRetry ctx) s fun t =>
      t = s.refill ctx) ∧
  (∀ (ctx : Fin 16), Completes (.readyTimeout ctx) s fun t =>
      (if s.helm ctx = true ∧ s.fld R.STEP_STATUS.PHASE ctx = 1 ∧ (∃ n ∈ s.members ctx, n ∉ (s.ctx ctx).helm.ready) then t.fld R.STEP_STALLS.COUNT ctx = (s.fld R.STEP_STALLS.COUNT ctx + 1) % 2 ^ 32 ∧ (t.ctx ctx).helm = (s.ctx ctx).helm else t = s))

/-- A die's arbiter gives a waiting sample request its descriptor, and a lane's draw completes its tag with a 64-byte
record. A request away from the helm, or while the Crystalliser is off, completes at once with status 4. -/
def Obligations.CrystalliserCommands : Prop := ∀ s : State,
  (∀ (die : Fin 8), 2 ≤ s.lanesUsed die → Completes (.xsampGrant die) s fun t =>
      t = s) ∧
  (∀ (die : Fin 8), (∀ i : Fin 64, (s.core (64 * die + i)).xsamps.all fun x => x.granted) = true → Completes (.xsampGrant die) s fun t =>
      ∀ i : Fin 64, t.core (64 * die + i) = s.core (64 * die + i)) ∧
  (∀ (die : Fin 8) (ctx : Fin 16) (i : Fin 64) (x : XPend), s.lanesUsed die < 2 → (s.xtalPick die).1 = some ctx.val → rotPick 64 (tget 0 s.xtalPtr (16 * die + ctx)) (s.xsampWaits die ctx) = some i.val → ((s.core (64 * die + i)).xsamps.find? fun x => !x.granted) = some x → Completes (.xsampGrant die) s fun t =>
      (if s.helm ctx = false ∨ s.on R.XTAL_CTRL.EN ctx = false then ((t.core (64 * die + i)).tag x.tag).busy = false ∧ (t.core (64 * die + i)).scrRead (x.b + 4) 1 = [4]
      else ((s.entry ctx (sampDesc ((s.core (64 * die + i)).scrRead x.a 64)).slot).state = 0 → ((t.core (64 * die + i)).tag x.tag).busy = false ∧ (t.core (64 * die + i)).scrRead (x.b + 4) 1 = [7]) ∧
      ((s.entry ctx (sampDesc ((s.core (64 * die + i)).scrRead x.a 64)).slot).state ≠ 0 → (s.entry ctx (sampDesc ((s.core (64 * die + i)).scrRead x.a 64)).slot).gen = (sampDesc ((s.core (64 * die + i)).scrRead x.a 64)).gen →
      ((t.core (64 * die + i)).xops.any fun y => decide (y.tag = x.tag ∧ y.granted = true)) = true))) ∧
  (∀ (core : Fin 512) (tag : BitVec 6) (faults : Nat) (far : List Byte) (drop : List Nat) (x : XPend), (s.core core).xop tag.toNat 0x50 = some x → Completes (.xsampDrawDone core tag faults far drop) s fun t =>
      (if x.granted = true ∧ x.d % 2 = 1 then ((t.core core).tag tag.toNat).busy = false ∧ ((t.core core).tag tag.toNat).status = 0 ∧
      (0 < faults → t.fld R.XTAL_LANE_RERUNS.COUNT (s.ctxOf core) = (s.fld R.XTAL_LANE_RERUNS.COUNT (s.ctxOf core) + 1) % 2 ^ 32) ∧ (2 ≤ faults → drop = [] → ((t.core core).scrRead (x.b + 4) 1) = [6]) else t = s))

/-- An LD's submission queue: a doorbell, the fetch of an entry, and the start and end of a command. A command that
is not the next to start changes nothing; one that ends leaves the queue with its completion, which the CQ takes if
it has room. -/
def Obligations.QueueCommands : Prop := ∀ s : State,
  (∀ (ld : Fin 16) (k : Fin 4) (v : Word32) (size : BitVec 4), Completes (.doorbellWrite ld k v size) s fun t =>
      (if s.trafficHeld = true then t = s else if s.ldServes ld = false then t = s.emit (.unsupported ld)
      else if s.ldInReset ld = true ∨ s.ctxInReset ld = true ∨ s.on R.LD_CTRL.RINGS_EN ld = false ∨ s.halted = true then t = s
      else if size ≠ 4#4 then t.on R.LD_STATUS.DB_ERR ld = true ∧ t.wharf.doorbells = s.wharf.doorbells
      else s.asleep = true ∨ t.doorbell ld k = v.toNat ∨ (t.on R.LD_STATUS.DB_ERR ld = true ∧ t.doorbell ld k = s.doorbell ld k))) ∧
  (∀ (ld : Fin 16) (entry : List Byte), Completes (.sqFetch ld entry) s fun t =>
      (if s.sqServed ld = true ∧ s.doorbell ld 0 ≠ s.fld R.LD_SQ_HEAD.INDEX ld ∧ (s.outstandingCmds ld).length < 64 ∧ (s.outstandingCmds ld).length + 1 ≤ s.ringRoom ld 0 then
      t.fld R.LD_SQ_HEAD.INDEX ld = (s.fld R.LD_SQ_HEAD.INDEX ld + 1) % 2 ^ 32 ∧ (sqOk entry = true → s.outstandingCmds ld = [] → t.outstandingCmds ld = [sqDecode ld (s.fld R.LD_SQ_HEAD.INDEX ld) entry]) else t = s)) ∧
  (∀ (ld : Fin 16) (cid : BitVec 16) (q : SqCmd), s.nextCmd ld cid.toNat 0 = some q → Completes (.nop ld cid) s fun t =>
      (t.outstandingCmds ld).length < (s.outstandingCmds ld).length ∧ (s.outstandingCmds ld = [q] → t.outstandingCmds ld = [] ∧ t.fld R.LD_CMDS.COUNT ld = (s.fld R.LD_CMDS.COUNT ld + 1) % 2 ^ 64 ∧ (s.ringRoom ld 0 ≠ 0 → t.fld R.LD_CQ_TAIL.INDEX ld = (s.fld R.LD_CQ_TAIL.INDEX ld + 1) % 2 ^ 32))) ∧
  (∀ (ld : Fin 16) (cid : BitVec 16), s.nextCmd ld cid.toNat 0 = none → Completes (.nop ld cid) s fun t =>
      t = s) ∧
  (∀ (ld : Fin 16) (cid : BitVec 16) (rec far : List Byte) (q : SqCmd), s.nextCmd ld cid.toNat 1 = some q → Completes (.sqAdmit ld cid rec far true) s fun t =>
      (t.outstandingCmds ld).length < (s.outstandingCmds ld).length ∧ (s.outstandingCmds ld = [q] → t.outstandingCmds ld = [] ∧ t.fld R.LD_CMDS.COUNT ld = (s.fld R.LD_CMDS.COUNT ld + 1) % 2 ^ 64 ∧ (s.ringRoom ld 0 ≠ 0 → t.fld R.LD_CQ_TAIL.INDEX ld = (s.fld R.LD_CQ_TAIL.INDEX ld + 1) % 2 ^ 32))) ∧
  (∀ (ld : Fin 16) (cid : BitVec 16) (rec far : List Byte) (q : SqCmd), s.nextCmd ld cid.toNat 1 = some q → Completes (.sqAdmit ld cid rec far false) s fun t =>
      (t.outstandingCmds ld).length < (s.outstandingCmds ld).length ∧
      (s.admitStatus ld rec ≠ 0 → t.fld R.MANI_ADMIT_REFUSED.COUNT ld = (s.fld R.MANI_ADMIT_REFUSED.COUNT ld + 1) % 2 ^ 32) ∧ (s.admitStatus ld rec = 0 → t.fld R.MANI_ADMITTED.COUNT ld = (s.fld R.MANI_ADMITTED.COUNT ld + 1) % 2 ^ 64 ∧ (t.entry ld (field (wordAt rec 8 4) 0 10)).gen = field (wordAt rec 8 4) 10 8)) ∧
  (∀ (ld : Fin 16) (cid : BitVec 16) (q : SqCmd), s.nextCmd ld cid.toNat 2 = some q → Completes (.sqCancel ld cid) s fun t =>
      (t.outstandingCmds ld).length < (s.outstandingCmds ld).length ∧ ((s.helm ld = true ∧ s.stepsRun ld = false ∧ ((s.entry ld (field q.arg0 0 10)).state = 1 ∨ (s.entry ld (field q.arg0 0 10)).state = 2) ∧ (s.entry ld (field q.arg0 0 10)).gen = field q.arg0 10 8) →
      (t.entry ld (field q.arg0 0 10)).cancel = true)) ∧
  (∀ (ld : Fin 16) (cid : BitVec 16) (q : SqCmd), s.nextCmd ld cid.toNat 3 = some q → Completes (.sqLaunch ld cid) s fun t =>
      (if s.inSet ld (q.arg0 % 512) = true ∧ s.coreState (q.arg0 % 512) = coreReady ∧ s.ctxRuns ld = true then
      t.coreState (q.arg0 % 512) = coreRunning ∧ (t.core (q.arg0 % 512)).pc = BitVec.ofNat 48 q.arg1 ∧ (t.core (q.arg0 % 512)).src = .command ld q.cid ∧ (t.outstandingCmds ld).length = (s.outstandingCmds ld).length
      else (t.outstandingCmds ld).length < (s.outstandingCmds ld).length ∧ (s.outstandingCmds ld = [q] → t.outstandingCmds ld = [] ∧ t.fld R.LD_CMDS.COUNT ld = (s.fld R.LD_CMDS.COUNT ld + 1) % 2 ^ 64 ∧ (s.ringRoom ld 0 ≠ 0 → t.fld R.LD_CQ_TAIL.INDEX ld = (s.fld R.LD_CQ_TAIL.INDEX ld + 1) % 2 ^ 32)))) ∧
  (∀ (ld : Fin 16) (cid : BitVec 16) (q : SqCmd), s.nextCmd ld cid.toNat 4 = some q → Completes (.copy ld cid) s fun t =>
      (t.outstandingCmds ld) = (s.outstandingCmds ld).map fun r => if r.index = q.index then { r with started := true } else r) ∧
  (∀ (ld : Fin 16) (cid : BitVec 16) (data : List Byte) (ecc : Ecc) (q : SqCmd), s.runningCopy ld cid.toNat = some q → Completes (.copyDone ld cid data ecc) s fun t =>
      (if s.sqServed ld = true then (t.outstandingCmds ld).length < (s.outstandingCmds ld).length else t = s)) ∧
  (∀ (ld : Fin 16) (uio : Bool) (sub : BitVec 32) (cid : BitVec 16), Completes (.completionTimeout ld uio sub cid) s fun t =>
      ((s.ldInReset ld = true ∨ s.ctxInReset ld = true) → t = s) ∧ (s.ldInReset ld = false → s.ctxInReset ld = false → (uio = true → t.fld R.WHARF_UIO_ERRORS.COUNT 0 = (s.fld R.WHARF_UIO_ERRORS.COUNT 0 + 1) % 2 ^ 32) ∧
      (uio = false → s.nextCmd ld cid.toNat 1 = none → s.runningCopy ld cid.toNat = none → t = s) ∧ (uio = false → (s.nextCmd ld cid.toNat 1).isSome = true → (t.outstandingCmds ld).length < (s.outstandingCmds ld).length)))

/-- CXL.mem reads and writes through an LD's window, configuration requests, Unordered I/O completions, interrupts
and the training of the host link. A read of a disabled LD, or one that the LD may not make, returns all ones; a
write that is served is what a read then gives. -/
def Obligations.HostMemoryCommands : Prop := ∀ s : State,
  (∀ (ld : Fin 16) (dpa : BitVec 40) (k : BitVec 7) (ecc : Ecc), Completes (.cxlMemRead ld dpa k ecc) s fun t =>
      (if s.trafficHeld = true then t = s else if s.ldEnabled ld = false then t = s.emit (.memData ld (List.replicate k.toNat 0xFF#8)) else if s.hdmMaps ld dpa.toNat k.toNat = false then t = s
      else if s.ldInReset ld = true ∨ s.memReach ld dpa.toNat = false then t.fld R.LD_MEM_REFUSED.COUNT ld = (s.fld R.LD_MEM_REFUSED.COUNT ld + 1) % 2 ^ 32 ∧ t.out.getLast? = some (.memData ld (List.replicate k.toNat 0xFF#8)) ∧ t.hbm = s.hbm
      else (ecc = .ok → t.out = s.out ++ [.memData ld (s.hbmRead dpa.toNat k.toNat)] ∧ t.hbm = s.hbm) ∧ (ecc = .uncorrectable → t.out.getLast? = some (.memData ld (List.replicate k.toNat 0xFF#8))))) ∧
  (∀ (ld : Fin 16) (dpa : BitVec 40) (data : List Byte), Completes (.cxlMemWrite ld dpa data) s fun t =>
      (if s.trafficHeld = true ∨ s.ldEnabled ld = false ∨ s.hdmMaps ld dpa.toNat data.length = false then t = s
      else if s.ldInReset ld = true ∨ s.memReach ld dpa.toNat = false then t.fld R.LD_MEM_REFUSED.COUNT ld = (s.fld R.LD_MEM_REFUSED.COUNT ld + 1) % 2 ^ 32 ∧ t.hbm = s.hbm
      else t.hbmRead dpa.toNat data.length = data ∧ t.basin = s.basin)) ∧
  (∀ (ctx : Fin 16) (sub : BitVec 32) (write : Bool) (n : BitVec 17) (data : List Byte) (ok last : Bool), Completes (.uioCompletion ctx sub write n data ok last) s fun t =>
      (if s.trafficHeld = true ∨ s.ldInReset ctx = true ∨ s.ctxInReset ctx = true then t = s else if ok = false then t.fld R.WHARF_UIO_ERRORS.COUNT 0 = (s.fld R.WHARF_UIO_ERRORS.COUNT 0 + 1) % 2 ^ 32
      else (if write = true then t.fld R.WHARF_UIO_WR_BYTES.COUNT = (s.fld R.WHARF_UIO_WR_BYTES.COUNT + n.toNat) % 2 ^ 64 ∧ t.fld R.WHARF_UIO_RD_BYTES.COUNT = s.fld R.WHARF_UIO_RD_BYTES.COUNT
      else t.fld R.WHARF_UIO_RD_BYTES.COUNT = (s.fld R.WHARF_UIO_RD_BYTES.COUNT + n.toNat) % 2 ^ 64 ∧ t.fld R.WHARF_UIO_WR_BYTES.COUNT = s.fld R.WHARF_UIO_WR_BYTES.COUNT))) ∧
  (∀ (ld : Fin 16) (ring : Fin 4), Completes (.irqTimer ld ring) s fun t =>
      (if s.on (irqEn ring) ld = true ∧ s.on (irqTime ring) ld = true ∧ tget 0 s.wharf.irqSince (4 * ld + ring) ≠ 0 then tget 0 t.wharf.irqSince (4 * ld + ring) = 0 ∧
      (bit s.wharf.msixEn ld = true → tget false s.wharf.msixOpen (64 * ld + s.fld (irqVector ring) ld) = true → t.out = s.out ++ [.msix ld (s.fld (irqVector ring) ld)]) else t = s)) ∧
  (∀ (ld : Fin 16), Completes (.evqOverflowRecord ld) s fun t =>
      (if tget 0 s.wharf.evqLost ld ≠ 0 ∧ 0 < s.ringRoom ld 2 then tget 0 t.wharf.evqLost ld = 0 ∧ t.fld R.LD_EVQ_TAIL.INDEX ld = (s.fld R.LD_EVQ_TAIL.INDEX ld + 1) % 2 ^ 32 else t = s)) ∧
  (∀ (ld : Fin 16), Completes (.configurationRequest ld .read) s fun t =>
      t = (if s.trafficHeld = true then s else if s.power.retryStatus = true then s.emit (.cfg ld 0) else if s.ldEnabled ld = false then s.emit (.cfg ld 1) else s.emit (.cfg ld 2))) ∧
  (∀ (ld : Fin 16) (on : Bool), (s.trafficHeld = false ∧ s.power.retryStatus = false ∧ s.ldEnabled ld = true) → Completes (.configurationRequest ld (.msixEnable on)) s fun t =>
      bit t.wharf.msixEn ld = on ∧ t.out.getLast? = some (.cfg ld 2)) ∧
  (∀ (ld : Fin 16) (v : Fin 64) (masked : Bool), (s.trafficHeld = false ∧ s.ldServes ld = true) → Completes (.configurationRequest ld (.msixMask v masked)) s fun t =>
      tget false t.wharf.msixOpen (64 * ld + v) = !masked) ∧
  (∀ (ld : Fin 16) (b : Nat) (ways : Nat), (s.trafficHeld = false ∧ s.ldServes ld = true) → Completes (.configurationRequest ld (.hdmCommit b ways)) s fun t =>
      tget 0 t.wharf.hdm ld = (if ways = 1 ∧ b % 2 ^ 28 = 0 ∧ 0 < b ∧ b ≤ 3 * 2 ^ 38 then b / 2 ^ 28 else tget 0 s.wharf.hdm ld)) ∧
  (∀ (offers : BitVec 4) (lopt uio reversed : Bool), Completes (.hostLinkTrain offers lopt uio reversed) s fun t =>
      (if s.power.inReset = true ∨ s.board.perst = true ∨ s.nearLoop = true then t = s else t.wharf.training = false ∧ (offers = 0#4 → t.wharf.up = false ∧ t.fld R.WHARF_LINK.RATE = 0 ∧ t.fld R.WHARF_LINK.WIDTH = 0) ∧
      (offers ≠ 0#4 → t.wharf.up = true ∧ t.fld R.WHARF_LINK.RATE = (if offers.toNat % 4 ≠ 0 then 2 else 1) ∧ t.fld R.WHARF_LINK.WIDTH = (if offers.toNat % 2 = 1 ∨ offers.toNat % 8 = 4 then 8 else 4) ∧
      t.on R.WHARF_LINK.UIO = (uio && s.on R.WHARF_CTRL.UIO_EN))))

/-- The training of a link, the detectors that bring it down, a flit, and the management packets of its neighbour. A
detector acts on a link that is UP or MISCABLED. The retries of R341 train an enabled link whose light may be
emitted; every other command leaves the states of the other links as they are. -/
def Obligations.LinkCommands : Prop := ∀ s : State,
  (∀ (k : Fin 32) (light : BitVec 8) (node : BitVec 12) (slice : BitVec 8) (member : BitVec 3) (plane : Bool) (plan : BitVec 2) (peerLink : BitVec 5), Completes (.linkTrainingDone k light node slice member plane plan peerLink) s fun t =>
      (if s.linkState k = 1 then t.linkState k = (if s.miscabled k ⟨node.toNat, slice.toNat, member.toNat, plane, plan.toNat, peerLink.toNat⟩ = true then 3 else 2) ∧ t.fld R.LINK_STATE.LIGHT (k / 16) (k % 16) = light.toNat ∧ t.peerIs k node.toNat slice.toNat member.toNat plane peerLink.toNat ∧
      ∀ j : Fin 32, j ≠ k → t.linkState j = s.linkState j else t = s)) ∧
  (∀ (k : Fin 32) (light : BitVec 8), Completes (.linkTrainingTimeout k light) s fun t =>
      (if s.linkState k = 1 then t.linkState k = 4 ∧ (t.linkLayer k).trainFailed = true ∧ t.fld R.LINK_STATE.LIGHT (k / 16) (k % 16) = light.toNat ∧
      ∀ j : Fin 32, j ≠ k → t.linkState j = s.linkState j else t = s)) ∧
  (∀ (k : Fin 32), Completes (.linkTrainingRetry k) s fun t =>
      (if s.linkState k = 4 ∧ (s.linkLayer k).trainFailed = true then s.trains t k else t = s)) ∧
  (∀ (k : Fin 32), Completes (.retrainDelayExpiry k) s fun t =>
      (if s.linkState k = 4 ∧ (s.linkLayer k).trainFailed = false ∧ s.on R.LINK_CFG.AUTO_RETRAIN (k / 16) = true ∧ s.fld R.LINK_STATE.DOWN_CAUSE (k / 16) (k % 16) < 7 then s.trains t k else t = s)) ∧
  (∀ (k : Fin 32) (light : BitVec 8), Completes (.lossOfLight k light) s fun t =>
      (if s.linkTalks k = true then s.downs t k 1 ∧ t.fld R.LINK_STATE.LIGHT (k / 16) (k % 16) = light.toNat else t = s)) ∧
  (∀ (k : Fin 32), Completes (.fecUeThreshold k) s fun t =>
      (if s.linkTalks k = true then s.downs t k 2 else t = s)) ∧
  (∀ (k : Fin 32), Completes (.replayThreshold k) s fun t =>
      (if s.linkTalks k = true then s.downs t k 3 else t = s)) ∧
  (∀ (k : Fin 32), Completes (.ackProgressTimeout k) s fun t =>
      (if s.linkTalks k = true ∧ ((s.linkLayer k).acked + 1) % 4096 ≠ (s.linkLayer k).txNext then s.downs t k 4 else t = s)) ∧
  (∀ (k : Fin 32) (cause : BitVec 4), Completes (.downNotice k cause) s fun t =>
      (if s.linkTalks k = true then s.downs t k cause.toNat else t = s)) ∧
  (∀ (k : Fin 32), Completes (.retrainRequest k) s fun t =>
      (if s.linkState k = 4 ∧ s.on R.LINK_CFG.AUTO_RETRAIN (k / 16) = true then s.trains t k else t = s)) ∧
  (∀ (k : Fin 32) (hdr : Word64) (data : List Byte) (crc : Word64) (ce ue : BitVec 8), Completes (.flitReceive k hdr data crc ce ue) s fun t =>
      (if s.linkTalks k = false then t = s else t.fld R.LINK_FEC_CE.COUNT (k / 16) (k % 16) = (s.fld R.LINK_FEC_CE.COUNT (k / 16) (k % 16) + ce.toNat) % 2 ^ 32 ∧ t.fld R.LINK_FEC_UE.COUNT (k / 16) (k % 16) = (s.fld R.LINK_FEC_UE.COUNT (k / 16) (k % 16) + ue.toNat) % 2 ^ 32 ∧
      (if (crc64 (leBytes hdr.toNat 8 ++ data) = crc.toNat ∧ field hdr.toNat 0 12 = (s.linkLayer k).rxNext) then (t.linkLayer k).rxNext = ((s.linkLayer k).rxNext + 1) % 4096 ∧ (t.linkLayer k).discarding = false ∧ (t.linkLayer k).acked = field hdr.toNat 12 12 ∧
      t.fld R.LINK_REPLAYS.COUNT (k / 16) (k % 16) = (s.fld R.LINK_REPLAYS.COUNT (k / 16) (k % 16) + b2n (bit hdr.toNat 24)) % 2 ^ 32
      else (t.linkLayer k).rxNext = (s.linkLayer k).rxNext ∧ (t.linkLayer k).discarding = true ∧ (t.linkLayer k).acked = (s.linkLayer k).acked ∧ t.fld R.LINK_REPLAYS.COUNT (k / 16) (k % 16) = s.fld R.LINK_REPLAYS.COUNT (k / 16) (k % 16)))) ∧
  (∀ (k : Fin 32)  (node : BitVec 12) (slice : BitVec 8) (member : BitVec 3) (plane : Bool) (plan : BitVec 2) (peerLink : BitVec 5), Completes (.ident k node slice member plane plan peerLink) s fun t =>
      (if s.linkTalks k = true then t.peerIs k node.toNat slice.toNat member.toNat plane peerLink.toNat ∧ t.linkState k = s.linkState k ∧ t.fabric = s.fabric else t = s))

/-- A packet that arrives on a link, the transit queries between neighbours, and the time exchange. A packet whose
checks hold goes to its unit or on to a port that its route offers; one that fails a check is dropped and recorded.
-/
def Obligations.PacketCommands : Prop := ∀ s : State,
  (∀ (k : Fin 32) (p : Packet) (env : Surround) (sub2 sub3 : BitVec 4), s.linkTalks k = false → Completes (.packetArrival k p env sub2 sub3) s fun t =>
      t = s) ∧
  (∀ (k : Fin 32) (p : Packet) (env : Surround) (sub2 sub3 : BitVec 4), s.linkState k = linkUp → p.type < 0xF0 → p.payload.length ≤ 4096 → (s.peerPlane k = false ∧ (p.vc ≠ 7 ∧ p.slice ≠ s.peerSlice k ∨ p.vc = 7 ∧ p.slice = s.peerSlice k)) → Completes (.packetArrival k p env sub2 sub3) s fun t =>
      s.lockDropped t 1 k p) ∧
  (∀ (k : Fin 32) (p : Packet) (env : Surround) (sub2 sub3 : BitVec 4), s.linkState k = linkUp → p.type < 0xF0 → p.payload.length ≤ 4096 → ¬(s.peerPlane k = false ∧ (p.vc ≠ 7 ∧ p.slice ≠ s.peerSlice k ∨ p.vc = 7 ∧ p.slice = s.peerSlice k)) → p.dst = s.node → Completes (.packetArrival k p env sub2 sub3) s fun t =>
      (if p.slice ≠ s.slice ∨ s.slice = 0 then s.lockDropped t 2 k p
      else if s.asleep = true ∧ s.on R.DEV_PWR.AUTO_WAKE = false then t.power.heldPackets = s.power.heldPackets ++ [(k.val, p)] ∧ t.rack = s.rack
      else s.asleep = false → t = s.deliver p env)) ∧
  (∀ (k : Fin 32) (p : Packet) (env : Surround) (sub2 sub3 : BitVec 4), s.linkState k = linkUp → p.type < 0xF0 → p.payload.length ≤ 4096 → ¬(s.peerPlane k = false ∧ (p.vc ≠ 7 ∧ p.slice ≠ s.peerSlice k ∨ p.vc = 7 ∧ p.slice = s.peerSlice k)) → p.dst ≠ s.node → Completes (.packetArrival k p env sub2 sub3) s fun t =>
      (if p.vc = 7 ∧ (p.slice = s.slice ∨ p.hop = true ∨ s.granted p.slice p.dst = false) then s.lockDropped t 4 k p
      else if p.vc ≠ 7 ∧ (p.slice ≠ s.slice ∨ s.slice = 0) then s.lockDropped t 3 k p
      else if p.hop = true then t.fld R.ROUTE_MISROUTED.COUNT 0 = (s.fld R.ROUTE_MISROUTED.COUNT 0 + 1) % 2 ^ 32 ∧ t.fabric = s.fabric
      else if (s.route p.dst).v = false ∨ s.routeSet p.dst = 0 then t.fld R.ROUTE_UNREACHABLE.COUNT 0 = (s.fld R.ROUTE_UNREACHABLE.COUNT 0 + 1) % 2 ^ 32 ∧ t.fabric = s.fabric
      else ∃ j : Fin 32, bit (s.routeSet p.dst) j = true ∧ s.handed t j { p with hop := true, vc := nextVc p.vc })) ∧
  (∀ (k : Fin 32) (qid : BitVec 16) (slice : BitVec 8) (ranges : List (BitVec 12 × BitVec 12)), Completes (.transitQuery k qid slice ranges) s fun t =>
      (if s.linkTalks k = false then t = s else t.out = s.out ++ [.ctl k 0xF3 (leBytes qid.toNat 2 ++ leBytes (if (ranges ≠ [] ∧ ranges.length ≤ 16 ∧ (ranges.all fun r => decide (r.1.toNat ≤ r.2.toNat) && (List.range (r.2.toNat + 1 - r.1.toNat)).all fun i => s.granted slice.toNat (r.1.toNat + i)) = true) then 0 else 1) 1 ++ List.replicate 21 0)] ∧
      (¬(ranges ≠ [] ∧ ranges.length ≤ 16 ∧ (ranges.all fun r => decide (r.1.toNat ≤ r.2.toNat) && (List.range (r.2.toNat + 1 - r.1.toNat)).all fun i => s.granted slice.toNat (r.1.toNat + i)) = true) → t.fabric = s.fabric) ∧ ∀ g : Fin 16, ((ranges ≠ [] ∧ ranges.length ≤ 16 ∧ (ranges.all fun r => decide (r.1.toNat ≤ r.2.toNat) && (List.range (r.2.toNat + 1 - r.1.toNat)).all fun i => s.granted slice.toNat (r.1.toNat + i)) = true) ∧ ranges.any fun r => (List.range (r.2.toNat + 1 - r.1.toNat)).any fun i => grantCovers (s.grant g) slice.toNat (r.1.toNat + i)) → (k.val, qid.toNat, g.val) ∈ t.fabric.pins)) ∧
  (∀ (k : Fin 32) (qid : BitVec 16) (yes : Bool), (s.fabric.queries.find? fun q => decide (q.link = k.val ∧ q.qid = qid.toNat)) = none → Completes (.transitAnswer k qid yes) s fun t =>
      t = s) ∧
  (∀ (k : Fin 32) (qid : BitVec 16) (yes : Bool) (q : Query), (s.fabric.queries.find? fun q => decide (q.link = k.val ∧ q.qid = qid.toNat)) = some q → Completes (.transitAnswer k qid yes) s fun t =>
      (if q.load = true then t.fabric.granted = s.fabric.granted ∧ ∀ x ∈ t.fabric.queries, x.link = k.val → x.qid = qid.toNat → x.answer = some yes
      else t.fabric.granted = (if yes = true then s.fabric.granted ++ [⟨k, qid.toNat, q.slice, q.ranges⟩] else s.fabric.granted) ∧ ∀ x ∈ t.fabric.queries, ¬(x.link = k.val ∧ x.qid = qid.toNat))) ∧
  (∀ (k : Fin 32) (qid : BitVec 16), Completes (.pinRelease k qid) s fun t =>
      t.fabric.granted = s.fabric.granted ∧ (∀ p ∈ t.fabric.pins, ¬(p.1 = k.val ∧ p.2.1 = qid.toNat)) ∧ ∀ p ∈ s.fabric.pins, ¬(p.1 = k.val ∧ p.2.1 = qid.toNat) → p ∈ t.fabric.pins) ∧
  (∀ (p : Packet) (sub2 sub3 : BitVec 4), Completes (.timeReq p sub2 sub3) s fun t =>
      (if p.slice ≠ s.slice ∨ s.slice = 0 then s.lockDropped t 2 32 p else if s.on R.LINK_TIME_CFG.MASTER = false then t = s
      else s.sends t { dst := p.src, src := 0, slice := 0, vc := 6, hop := false, type := 0xF6, head := leBytes (p.h 8 2) 2 ++ List.replicate 6 0 ++ leBytes (p.h 16 8) 8 ++ leBytes (s.tick * 16 + sub2.toNat) 8, payload := leBytes (s.tick * 16 + sub3.toNat) 8 })) ∧
  (∀ (p : Packet) (sub : BitVec 4) (seq t1 : Nat), p.slice = s.slice → s.slice ≠ 0 → s.fabric.timeSent = some (seq, t1) → Completes (.timeResp p sub) s fun t =>
      (if p.h 8 2 = seq ∧ p.h 16 8 = t1 ∧ p.src = s.fld R.LINK_TIME_CFG.SOURCE then
      t.fabric.timeSent = none ∧ t.fabric.silent = 0 ∧ t.fabric.exchanges = (List.cons ((((((p.h 24 8 : Nat) : Int) - t1) - ((s.tick * 16 + sub.toNat : Nat) - (ofLe (p.payload.take 8) : Int))) / 2), ((((s.tick * 16 + sub.toNat : Nat) : Int) - t1) - ((ofLe (p.payload.take 8) : Int) - (p.h 24 8 : Nat)))) s.fabric.exchanges).take 8 ∧
      t.fld R.LINK_TIME_OFFSET.THETA = twos 32 (bestExchange ((List.cons ((((((p.h 24 8 : Nat) : Int) - t1) - ((s.tick * 16 + sub.toNat : Nat) - (ofLe (p.payload.take 8) : Int))) / 2), ((((s.tick * 16 + sub.toNat : Nat) : Int) - t1) - ((ofLe (p.payload.take 8) : Int) - (p.h 24 8 : Nat)))) s.fabric.exchanges).take 8)).1 ∧ t.fld R.LINK_TIME_DELAY.DELTA = twos 32 (bestExchange ((List.cons ((((((p.h 24 8 : Nat) : Int) - t1) - ((s.tick * 16 + sub.toNat : Nat) - (ofLe (p.payload.take 8) : Int))) / 2), ((((s.tick * 16 + sub.toNat : Nat) : Int) - t1) - ((ofLe (p.payload.take 8) : Int) - (p.h 24 8 : Nat)))) s.fabric.exchanges).take 8)).2 ∧ t.on R.LINK_TIME_STATUS.ALIGNED = decide ((bestExchange ((List.cons ((((((p.h 24 8 : Nat) : Int) - t1) - ((s.tick * 16 + sub.toNat : Nat) - (ofLe (p.payload.take 8) : Int))) / 2), ((((s.tick * 16 + sub.toNat : Nat) : Int) - t1) - ((ofLe (p.payload.take 8) : Int) - (p.h 24 8 : Nat)))) s.fabric.exchanges).take 8)).1.natAbs ≤ 160)
      else t = s)) ∧
  (∀ (p : Packet) (sub : BitVec 4), Completes (.timeResp p sub) s fun t =>
      (if p.slice ≠ s.slice ∨ s.slice = 0 then s.lockDropped t 2 32 p else s.fabric.timeSent = none → t = s)) ∧
  (∀ (sub : BitVec 4), Completes (.timeExchangePeriod sub) s fun t =>
      (if s.on R.LINK_TIME_CFG.EN = true ∧ s.on R.LINK_TIME_CFG.MASTER = false then t.on R.LINK_TIME_STATUS.NO_PATH = s.onlyTransit ∧ t.fabric.silent = min (s.fabric.silent + 1) 16 ∧ (s.fabric.silent = 15 → t.on R.LINK_TIME_STATUS.ALIGNED = false) ∧
      (if s.onlyTransit = true then t.fabric.timeSent = none else t.fabric.timeSent = some (s.fabric.timeSeq, s.tick * 16 + sub.toNat) ∧ t.fabric.timeSeq = (s.fabric.timeSeq + 1) % 65536) else t = s))

/-- The end of a Lock configuration load. The load ends with the first of checks 9 and 10 that fails and nothing
committed, or the new configuration replaces the old one whole. -/
def Obligations.LockCommands : Prop := ∀ s : State,
  (s.fabric.image = none → Completes .lockCommit s fun t =>
      t = s) ∧
  (∀ (i : LockImage) (n : Nat) (r : List Nat), s.fabric.image = some i → ((s.fabric.queries.filter fun q => q.load && decide (q.answer ≠ some true)).map fun q => (q.ranges.head?.map Prod.fst).getD 0) = List.cons n r → Completes .lockCommit s fun t =>
      t.fld R.LOCK_RESULT.RESULT = 9 ∧ t.fld R.LOCK_RESULT.INDEX = r.foldl min n % 2 ^ 12 ∧ t.on R.LOCK_RESULT.BUSY = false ∧ t.fabric.image = none ∧ t.fabric.routes = s.fabric.routes ∧ t.fld R.LOCK_SELF.CFGGEN = s.fld R.LOCK_SELF.CFGGEN) ∧
  (∀ (i : LockImage) (g : Nat), s.fabric.image = some i → ((s.fabric.queries.filter fun q => q.load && decide (q.answer ≠ some true)).map fun q => (q.ranges.head?.map Prod.fst).getD 0) = [] → ((List.range 16).find? fun g => (s.fabric.pins.any fun p => decide (p.2.2 = g)) && (keptGrant i.grants (s.grant g)).isNone) = some g → Completes .lockCommit s fun t =>
      t.fld R.LOCK_RESULT.RESULT = 10 ∧ t.fld R.LOCK_RESULT.INDEX = g % 2 ^ 12 ∧ t.on R.LOCK_RESULT.BUSY = false ∧ t.fabric.image = none ∧ t.fabric.routes = s.fabric.routes ∧ t.fld R.LOCK_SELF.CFGGEN = s.fld R.LOCK_SELF.CFGGEN) ∧
  (∀ (i : LockImage), s.fabric.image = some i → ((s.fabric.queries.filter fun q => q.load && decide (q.answer ≠ some true)).map fun q => (q.ranges.head?.map Prod.fst).getD 0) = [] → ((List.range 16).find? fun g => (s.fabric.pins.any fun p => decide (p.2.2 = g)) && (keptGrant i.grants (s.grant g)).isNone) = none → Completes .lockCommit s fun t =>
      t.fld R.LOCK_RESULT.RESULT = 0 ∧ t.on R.LOCK_RESULT.BUSY = false ∧ t.fabric.image = none ∧ t.fabric.routes = i.routes ∧ t.fabric.expects = i.expects ∧ t.fld R.LOCK_SELF.CFGGEN = (s.fld R.LOCK_SELF.CFGGEN + 1) % 2 ^ 7 ∧
      t.node = i.node % 2 ^ 12 ∧ t.slice = i.slice % 2 ^ 8 ∧ t.fld R.LOCK_SELF.GRANTS = i.inUse % 2 ^ 5 ∧ ∀ g : Fin 16, t.grant g = (i.grants[g.val]?).getD 0 % 2 ^ 64)

/-- Memory-semantic requests and their answers: numbering and duplicates at both ends, the resynchronisation of a
pair, and one slot of a home agent. A packet of another TYPE changes nothing, and one of another slice fails the
destination check. -/
def Obligations.NodeRequestCommands : Prop := ∀ s : State,
  (∀ (p : Packet) (env : Surround), [1, 2, 3].contains p.type = false → Completes (.nodeRequest p env) s fun t =>
      t = s) ∧
  (∀ (p : Packet) (env : Surround), [1, 2, 3].contains p.type = true → (p.slice ≠ s.slice ∨ s.slice = 0) → Completes (.nodeRequest p env) s fun t =>
      s.lockDropped t 2 32 p) ∧
  (∀ (p : Packet) (env : Surround), s.admits [1, 2, 3] p = true → Completes (.nodeRequest p env) s fun t =>
      (if reqOk p = false then t.fld R.ROUTE_MISROUTED.COUNT 0 = (s.fld R.ROUTE_MISROUTED.COUNT 0 + 1) % 2 ^ 32 ∧ t.rack = s.rack
      else if (s.pairIn p.src).v = false then s.sends t (respPacket p 12 false []) ∧ t.rack = s.rack
      else if p.h 14 2 = (s.pairIn p.src).expected then t.rack.homeQ = s.rack.homeQ ++ [⟨p.src, p, 0, [], false⟩] ∧ (t.pairIn p.src).expected = ((s.pairIn p.src).expected + 1) % 65536 ∧ (t.pairIn p.src).responses.head? = some (p.h 14 2, none)
      else if ((s.pairIn p.src).expected + 65536 - p.h 14 2) % 65536 ≤ 64 then t.rack = s.rack else t = s)) ∧
  (∀ (p r : Packet) (env : Surround), s.admits [1, 2, 3] p = true → reqOk p = true → (s.pairIn p.src).v = true → p.h 14 2 ≠ (s.pairIn p.src).expected → ((s.pairIn p.src).expected + 65536 - p.h 14 2) % 65536 ≤ 64 → ((s.pairIn p.src).responses.find? fun (x : Nat × Option Packet) => decide (x.1 = p.h 14 2)) = some (p.h 14 2, some r) → Completes (.nodeRequest p env) s fun t =>
      s.sends t r) ∧
  (∀ (line : BitVec 34) (env : Surround), s.lineHeads line.toNat = [] → Completes (.homeAgentSlot line env) s fun t =>
      t = s) ∧
  (∀ (line : BitVec 34) (env : Surround) (q : HomeReq), s.lineHeads line.toNat = [q] → s.homeHeld q = true → Completes (.homeAgentSlot line env) s fun t =>
      t = s) ∧
  (∀ (line : BitVec 34) (env : Surround) (q : HomeReq), s.lineHeads line.toNat = [q] → s.homeHeld q = false → s.homeCheck q.pkt ≠ 0 → Completes (.homeAgentSlot line env) s fun t =>
      q ∉ t.rack.homeQ ∧ (s.homeCheck q.pkt ≠ 4 → s.sends t (respPacket q.pkt (s.homeCheck q.pkt) q.wcoll q.data)) ∧ t.cores = s.cores ∧ t.hbm = s.hbm ∧ t.basin = s.basin ∧
      ((s.region (q.pkt.h 13 1)).isSet = true → t.fld R.MSF_REFUSED_IN.COUNT (s.region (q.pkt.h 13 1)).owner = (s.fld R.MSF_REFUSED_IN.COUNT (s.region (q.pkt.h 13 1)).owner + 1) % 2 ^ 32)) ∧
  (∀ (line : BitVec 34) (env : Surround) (q : HomeReq), s.lineHeads line.toNat = [q] → s.homeHeld q = false → s.homeCheck q.pkt = 0 → (s.region (q.pkt.h 13 1)).kind = 1 → s.regionFenced (s.region (q.pkt.h 13 1)) = false → (s.region (q.pkt.h 13 1)).core < 512 → q.pkt.type = 2 → Completes (.homeAgentSlot line env) s fun t =>
      (s.core (s.region (q.pkt.h 13 1)).core).storesScr (t.core (s.region (q.pkt.h 13 1)).core) ((s.region (q.pkt.h 13 1)).scrBase + (q.pkt.h 8 5 + 64 * q.lines - (s.region (q.pkt.h 13 1)).base)) (((reqData q.pkt).drop (64 * q.lines)).take (if q.pkt.h 21 1 ≤ 3 then 2 ^ q.pkt.h 21 1 else 64)) (lostWords ((s.region (q.pkt.h 13 1)).scrBase + (q.pkt.h 8 5 + 64 * q.lines - (s.region (q.pkt.h 13 1)).base)) (((reqData q.pkt).drop (64 * q.lines)).take (if q.pkt.h 21 1 ≤ 3 then 2 ^ q.pkt.h 21 1 else 64)).length env.drop) ∧ ∀ m : Fin 512, m.val ≠ (s.region (q.pkt.h 13 1)).core → t.core m = s.core m) ∧
  (∀ (line : BitVec 34) (env : Surround) (q : HomeReq), s.lineHeads line.toNat = [q] → s.homeHeld q = false → s.homeCheck q.pkt = 0 → (s.region (q.pkt.h 13 1)).kind = 1 → s.regionFenced (s.region (q.pkt.h 13 1)) = false → (s.region (q.pkt.h 13 1)).core < 512 → q.pkt.type = 1 → Completes (.homeAgentSlot line env) s fun t =>
      (t.core (s.region (q.pkt.h 13 1)).core).scr = (s.core (s.region (q.pkt.h 13 1)).core).scr ∧ t.hbm = s.hbm ∧ t.basin = s.basin) ∧
  (∀ (line : BitVec 34) (env : Surround) (q : HomeReq), s.lineHeads line.toNat = [q] → s.homeHeld q = false → s.homeCheck q.pkt = 0 → (s.region (q.pkt.h 13 1)).kind = 1 → s.regionFenced (s.region (q.pkt.h 13 1)) = false → (s.region (q.pkt.h 13 1)).core < 512 → q.pkt.type = 3 → Completes (.homeAgentSlot line env) s fun t =>
      (if isUe env.scr = true then (t.core (s.region (q.pkt.h 13 1)).core).scr = (s.core (s.region (q.pkt.h 13 1)).core).scr
      else (s.core (s.region (q.pkt.h 13 1)).core).storesScr (t.core (s.region (q.pkt.h 13 1)).core) ((s.region (q.pkt.h 13 1)).scrBase + (q.pkt.h 8 5 + 64 * q.lines - (s.region (q.pkt.h 13 1)).base)) (bytesOf (amoResult (q.pkt.h 20 1 % 16) (wordOf ((s.core (s.region (q.pkt.h 13 1)).core).scrRead ((s.region (q.pkt.h 13 1)).scrBase + (q.pkt.h 8 5 + 64 * q.lines - (s.region (q.pkt.h 13 1)).base)) 8)) (wordOf ((reqData q.pkt).take 8)) (wordOf (((reqData q.pkt).drop 8).take 8)))) (lostWords ((s.region (q.pkt.h 13 1)).scrBase + (q.pkt.h 8 5 + 64 * q.lines - (s.region (q.pkt.h 13 1)).base)) 8 env.drop))) ∧
  (∀ (p : Packet) (env : Surround), Completes (.resp p env) s fun t =>
      ([4].contains p.type = false → t = s) ∧ ([4].contains p.type = true → (p.slice ≠ s.slice ∨ s.slice = 0) → s.lockDropped t 2 32 p)) ∧
  (∀ (p : Packet) (env : Surround), s.admits [4] p = true → p.h 16 1 % 16 = 12 → Completes (.resp p env) s fun t =>
      (if (s.pair p.src).resyncing = true then t = s else (t.pair p.src).resyncing = true ∧ (t.pair p.src).synced = false ∧ (t.pair p.src).base = ((s.pair p.src).next + 32768) % 65536 ∧ (t.pair p.src).open_ = (s.pair p.src).open_)) ∧
  (∀ (p : Packet) (env : Surround), s.admits [4] p = true → p.h 16 1 % 16 ≠ 12 → ((s.pair p.src).open_.find? fun x => decide (x.seq = p.h 14 2) && x.sent) = none → Completes (.resp p env) s fun t =>
      t = s) ∧
  (∀ (p : Packet) (env : Surround) (o : NodeOp), s.admits [4] p = true → p.h 16 1 % 16 ≠ 12 → ((s.pair p.src).open_.find? fun x => decide (x.seq = p.h 14 2) && x.sent) = some o → Completes (.resp p env) s fun t =>
      (t.pair p.src).open_ = (s.pair p.src).open_.filter (fun x => decide (x.ticket ≠ o.ticket)) ∧
      (tget 0 s.rack.coreGen o.core ≠ o.gen → t.cores = s.cores) ∧ (tget 0 s.rack.coreGen o.core = o.gen → o.ret = true → o.core < 512 → (s.core o.core).nodeWait = o.ticket → (t.core o.core).nodeAns = some (p.h 16 1 % 16, o.value p) ∧ (t.core o.core).nodeWait = 0) ∧
      (tget 0 s.rack.coreGen o.core = o.gen → p.h 16 1 % 16 ≠ 0 → t.fld R.MSF_REFUSED_OUT.COUNT o.ctx = (s.fld R.MSF_REFUSED_OUT.COUNT o.ctx + 1) % 2 ^ 32)) ∧
  (∀ (p : Packet) (env : Surround), s.admits [5] p = true → Completes (.resync p env) s fun t =>
      s.sends t (resyncPacket p.src 6 2 (p.h 14 2)) ∧ (if (s.pairIn p.src).v = true ∧ (s.pairIn p.src).base = p.h 14 2 then (t.pairIn p.src) = (s.pairIn p.src) else (t.pairIn p.src) = ⟨true, p.h 14 2, p.h 14 2, []⟩)) ∧
  (∀ (p : Packet) (env : Surround), Completes (.resync p env) s fun t =>
      ([5].contains p.type = false → t = s) ∧ ([5].contains p.type = true → (p.slice ≠ s.slice ∨ s.slice = 0) → s.lockDropped t 2 32 p)) ∧
  (∀ (p : Packet) (env : Surround), Completes (.resyncAck p env) s fun t =>
      ([6].contains p.type = false → t = s) ∧ (s.admits [6] p = true → (if (s.pair p.src).resyncing = true ∧ (s.pair p.src).base = p.h 14 2 then (t.pair p.src).synced = true ∧ (t.pair p.src).resyncing = false ∧ (t.pair p.src).open_ = markSent (renumber (s.pair p.src).base (s.pair p.src).open_) ∧ (t.pair p.src).next = ((s.pair p.src).base + (s.pair p.src).open_.length) % 65536
      else t = s))) ∧
  (∀ (node : BitVec 12), Completes (.msfReqTimeout node) s fun t =>
      (if (s.pair node.toNat).open_ = [] then t = s else if (s.pair node.toNat).retries < s.fld R.MSF_RETRY.COUNT (((s.pair node.toNat).open_.head?.map NodeOp.ctx).getD 0) then (t.pair node.toNat) = { (s.pair node.toNat) with retries := (s.pair node.toNat).retries + 1 } ∧ t.cores = s.cores
      else (t.pair node.toNat).open_ = [] ∧ (t.pair node.toNat).synced = false ∧ (t.pair node.toNat).resyncing = false))

/-- Messages: the packets of a use at its destination, the answers at its source, and the time-outs at both. A packet
is judged against the record of its source and identifier: late, a duplicate, of the use in progress, or a new use.
-/
def Obligations.MessageCommands : Prop := ∀ s : State,
  (∀ (p : Packet) (env : Surround), Completes (.put p env) s fun t =>
      ([0x10].contains p.type = false → t = s) ∧ ([0x10].contains p.type = true → (p.slice ≠ s.slice ∨ s.slice = 0) → s.lockDropped t 2 32 p) ∧
      (s.admits [0x10] p = true → (judge (s.record (recordKey p)) (p.h 12 2) (p.h 10 1)) = 1 → t.rack = s.rack ∧ t.cores = s.cores ∧ t.fld R.MSG_LATE.COUNT (s.lateOwner (p.h 29 1)) = (s.fld R.MSG_LATE.COUNT (s.lateOwner (p.h 29 1)) + 1) % 2 ^ 32) ∧
      (s.admits [0x10] p = true → (judge (s.record (recordKey p)) (p.h 12 2) (p.h 10 1)) = 3 → t.rack = s.rack ∧ t.cores = s.cores ∧ t.fld R.MSG_LATE.COUNT (s.lateOwner (p.h 29 1)) = s.fld R.MSG_LATE.COUNT (s.lateOwner (p.h 29 1)))) ∧
  (∀ (p : Packet) (env : Surround), Completes (.send p env) s fun t =>
      ([0x13].contains p.type = false → t = s) ∧ ([0x13].contains p.type = true → (p.slice ≠ s.slice ∨ s.slice = 0) → s.lockDropped t 2 32 p) ∧
      (s.admits [0x13] p = true → (judge (s.record (recordKey p)) (p.h 12 2) (p.h 10 1)) = 1 → t.rack = s.rack ∧ t.cores = s.cores ∧ t.fld R.MSG_LATE.COUNT (s.lateOwner (p.h 29 1)) = (s.fld R.MSG_LATE.COUNT (s.lateOwner (p.h 29 1)) + 1) % 2 ^ 32) ∧
      (s.admits [0x13] p = true → (judge (s.record (recordKey p)) (p.h 12 2) (p.h 10 1)) = 3 → t.rack = s.rack ∧ t.cores = s.cores ∧ t.fld R.MSG_LATE.COUNT (s.lateOwner (p.h 29 1)) = s.fld R.MSG_LATE.COUNT (s.lateOwner (p.h 29 1)))) ∧
  (∀ (p : Packet) (env : Surround), Completes (.get p env) s fun t =>
      ([0x11].contains p.type = false → t = s) ∧ ([0x11].contains p.type = true → (p.slice ≠ s.slice ∨ s.slice = 0) → s.lockDropped t 2 32 p) ∧
      (s.admits [0x11] p = true → (judge (s.record (recordKey p)) (p.h 12 2) (p.h 10 1)) = 1 → t.rack = s.rack ∧ t.cores = s.cores ∧ t.fld R.MSG_LATE.COUNT (s.lateOwner (p.h 29 1)) = (s.fld R.MSG_LATE.COUNT (s.lateOwner (p.h 29 1)) + 1) % 2 ^ 32) ∧
      (s.admits [0x11] p = true → (judge (s.record (recordKey p)) (p.h 12 2) (p.h 10 1)) = 3 → t.rack = s.rack ∧ t.cores = s.cores ∧ t.fld R.MSG_LATE.COUNT (s.lateOwner (p.h 29 1)) = s.fld R.MSG_LATE.COUNT (s.lateOwner (p.h 29 1)))) ∧
  (∀ (p : Packet) (env : Surround), s.admits [0x10] p = true → (judge (s.record (recordKey p)) (p.h 12 2) (p.h 10 1)) = 0 → ((s.record (recordKey p)).valid = false ∨ (s.record (recordKey p)).done = true) → s.msgCheck p ≠ 0 → Completes (.put p env) s fun t =>
      (t.record (recordKey p)) = { (⟨true, p.h 12 2, p.h 10 1, false, 0, false, [], p.h 29 1, none, []⟩ : MsgRecord) with done := true, status := s.msgCheck p } ∧ t.cores = s.cores ∧ t.hbm = s.hbm ∧ t.basin = s.basin ∧ ((s.region (p.h 29 1)).isSet = true → t.fld R.MSF_REFUSED_IN.COUNT (s.region (p.h 29 1)).owner = (s.fld R.MSF_REFUSED_IN.COUNT (s.region (p.h 29 1)).owner + 1) % 2 ^ 32)) ∧
  (∀ (p : Packet) (env : Surround), s.admits [0x13] p = true → (judge (s.record (recordKey p)) (p.h 12 2) (p.h 10 1)) = 0 → ((s.record (recordKey p)).valid = false ∨ (s.record (recordKey p)).done = true) → s.msgCheck p ≠ 0 → Completes (.send p env) s fun t =>
      (t.record (recordKey p)) = { (⟨true, p.h 12 2, p.h 10 1, false, 0, false, [], p.h 29 1, none, []⟩ : MsgRecord) with done := true, status := s.msgCheck p } ∧ t.cores = s.cores ∧ t.hbm = s.hbm ∧ t.basin = s.basin ∧ ((s.region (p.h 29 1)).isSet = true → t.fld R.MSF_REFUSED_IN.COUNT (s.region (p.h 29 1)).owner = (s.fld R.MSF_REFUSED_IN.COUNT (s.region (p.h 29 1)).owner + 1) % 2 ^ 32)) ∧
  (∀ (p : Packet) (env : Surround), s.admits [0x11] p = true → (judge (s.record (recordKey p)) (p.h 12 2) (p.h 10 1)) = 0 → ((s.record (recordKey p)).valid = false ∨ (s.record (recordKey p)).done = true) → s.msgCheck p ≠ 0 → Completes (.get p env) s fun t =>
      (t.record (recordKey p)) = { (⟨true, p.h 12 2, p.h 10 1, false, 0, false, [], p.h 29 1, none, []⟩ : MsgRecord) with done := true, status := s.msgCheck p } ∧ t.cores = s.cores ∧ t.hbm = s.hbm ∧ t.basin = s.basin ∧ ((s.region (p.h 29 1)).isSet = true → t.fld R.MSF_REFUSED_IN.COUNT (s.region (p.h 29 1)).owner = (s.fld R.MSF_REFUSED_IN.COUNT (s.region (p.h 29 1)).owner + 1) % 2 ^ 32)) ∧
  (∀ (p : Packet) (env : Surround), s.admits [0x10] p = true → (judge (s.record (recordKey p)) (p.h 12 2) (p.h 10 1)) = 0 → ((s.record (recordKey p)).valid = false ∨ (s.record (recordKey p)).done = true) → s.msgCheck p = 0 → (s.region (p.h 29 1)).kind = 1 → s.regionFenced (s.region (p.h 29 1)) = false → (s.region (p.h 29 1)).core < 512 → (p.h 16 4 % 2 ^ 25) ≤ 4096 → p.h 14 2 % 4096 = 0 → Completes (.put p env) s fun t =>
      (t.record (recordKey p)).done = true ∧ (t.record (recordKey p)).status = 0 ∧ t.fld R.MSG_RECEIVED.COUNT (s.region (p.h 29 1)).owner = (s.fld R.MSG_RECEIVED.COUNT (s.region (p.h 29 1)).owner + 1) % 2 ^ 64 ∧
      (s.core (s.region (p.h 29 1)).core).storesScr (t.core (s.region (p.h 29 1)).core) ((s.region (p.h 29 1)).scrBase + p.h 24 5) (p.payload.take (p.h 16 4 % 2 ^ 25)) (lostWords ((s.region (p.h 29 1)).scrBase + p.h 24 5) (p.payload.take (p.h 16 4 % 2 ^ 25)).length env.drop)) ∧
  (∀ (p : Packet) (env : Surround), s.admits [0x13] p = true → (judge (s.record (recordKey p)) (p.h 12 2) (p.h 10 1)) = 0 → ((s.record (recordKey p)).valid = false ∨ (s.record (recordKey p)).done = true) → s.msgCheck p = 0 → 2 ≤ p.h 29 1 → (p.h 16 4 % 2 ^ 25) ≤ 4096 → p.h 14 2 % 4096 = 0 → Completes (.send p env) s fun t =>
      (t.record (recordKey p)).done = true ∧ (t.record (recordKey p)).slot = none ∧ t.cores = s.cores ∧ ((t.record (recordKey p)).status = 0 → t.fld R.MSG_RECEIVED.COUNT (s.region (p.h 29 1)).owner = (s.fld R.MSG_RECEIVED.COUNT (s.region (p.h 29 1)).owner + 1) % 2 ^ 64) ∧ ((t.record (recordKey p)).status = 9 → t.fld R.MSG_QFULL.COUNT (s.region (p.h 29 1)).owner = (s.fld R.MSG_QFULL.COUNT (s.region (p.h 29 1)).owner + 1) % 2 ^ 32)) ∧
  (∀ (p : Packet) (env : Surround), s.admits [0x11] p = true → (judge (s.record (recordKey p)) (p.h 12 2) (p.h 10 1)) = 0 → ((s.record (recordKey p)).valid = false ∨ (s.record (recordKey p)).done = true) → s.msgCheck p = 0 → (s.region (p.h 29 1)).kind = 1 → s.regionFenced (s.region (p.h 29 1)) = false → isUe env.scr = false → Completes (.get p env) s fun t =>
      (t.record (recordKey p)) = (⟨true, p.h 12 2, p.h 10 1, false, 0, false, [], p.h 29 1, none, []⟩ : MsgRecord) ∧ (t.core (s.region (p.h 29 1)).core).scr = (s.core (s.region (p.h 29 1)).core).scr) ∧
  (∀ (p : Packet) (env : Surround), Completes (.msgAck p env) s fun t =>
      ([0x14].contains p.type = false → t = s) ∧ ([0x14].contains p.type = true → (p.slice ≠ s.slice ∨ s.slice = 0) → s.lockDropped t 2 32 p) ∧ (s.admits [0x14] p = true → s.answered p = none → t = s)) ∧
  (∀ (p : Packet) (env : Surround) (m : Message), s.admits [0x14] p = true → s.answered p = some m → m.who = 0 → s.rack.waiting = [] → Completes (.msgAck p env) s fun t =>
      (t.message (p.h 8 2 % 4096)).busy = false ∧
      (p.h 11 1 % 16 = 0 → t.fld R.MSG_SENT.COUNT m.ctx = (s.fld R.MSG_SENT.COUNT m.ctx + 1) % 2 ^ 64 ∧ t.fld R.MSG_BYTES_OUT.COUNT m.ctx = (s.fld R.MSG_BYTES_OUT.COUNT m.ctx + m.len) % 2 ^ 64) ∧ (p.h 11 1 % 16 ≠ 0 → t.fld R.MSG_FAILS.COUNT m.ctx = (s.fld R.MSG_FAILS.COUNT m.ctx + 1) % 2 ^ 32 ∧ t.fld R.MSG_LAST_FAIL.STATUS m.ctx = p.h 11 1 % 16) ∧
      ∀ x ∈ (s.core m.core).xop m.tag 0x54, x.b = m.note → m.core < 512 → m.tag < 64 → (t.core m.core).tag m.tag = ⟨false, p.h 11 1 % 16, bit (p.h 11 1) 4⟩) ∧
  (∀ (p : Packet) (env : Surround), Completes (.getData p env) s fun t =>
      ([0x12].contains p.type = false → t = s) ∧ ([0x12].contains p.type = true → (p.slice ≠ s.slice ∨ s.slice = 0) → s.lockDropped t 2 32 p) ∧ (s.admits [0x12] p = true → s.answered p = none → t = s)) ∧
  (∀ (p : Packet) (env : Surround) (m : Message), s.admits [0x12] p = true → s.answered p = some m → (m.op ≠ 2 ∨ packetsOf m.len ≤ (p.h 14 2 % 4096) ∨ m.got.contains (p.h 14 2 % 4096) = true) → Completes (.getData p env) s fun t =>
      t = s) ∧
  (∀ (p : Packet) (env : Surround) (m : Message), s.admits [0x12] p = true → s.answered p = some m → m.op = 2 → m.got = [] → (p.h 14 2 % 4096) < packetsOf m.len → 1 < packetsOf m.len → m.unified = false → s.coreState m.core ≠ coreFenced → m.core < 512 → Completes (.getData p env) s fun t =>
      (t.message (p.h 8 2 % 4096)).got = [(p.h 14 2 % 4096)] ∧ (t.message (p.h 8 2 % 4096)).busy = true ∧
      (s.core m.core).storesScr (t.core m.core) (m.laddr + 4096 * (p.h 14 2 % 4096)) (p.payload.take (m.len - 4096 * (p.h 14 2 % 4096))) (lostWords (m.laddr + 4096 * (p.h 14 2 % 4096)) (p.payload.take (m.len - 4096 * (p.h 14 2 % 4096))).length env.drop)) ∧
  (∀ (p : Packet) (env : Surround) (m : Message), s.admits [0x12] p = true → s.answered p = some m → m.op = 2 → m.got = [] → (p.h 14 2 % 4096) = 0 → packetsOf m.len = 1 → m.who = 0 → s.rack.waiting = [] → Completes (.getData p env) s fun t =>
      (t.message (p.h 8 2 % 4096)).busy = false ∧ t.fld R.MSG_SENT.COUNT m.ctx = (s.fld R.MSG_SENT.COUNT m.ctx + 1) % 2 ^ 64) ∧
  (∀ (id : BitVec 12), Completes (.msgTimeout id) s fun t =>
      ((s.message id.toNat).busy = false → t = s) ∧ ((s.message id.toNat).busy = true → (s.message id.toNat).resends < s.fld R.MSG_RETRY.COUNT (s.message id.toNat).ctx → (t.message id.toNat).resends = (s.message id.toNat).resends + 1 ∧ (t.message id.toNat).busy = true ∧ t.fld R.MSG_RETRANSMITS.COUNT (s.message id.toNat).ctx = (s.fld R.MSG_RETRANSMITS.COUNT (s.message id.toNat).ctx + 1) % 2 ^ 32 ∧ t.cores = s.cores) ∧
      ((s.message id.toNat).busy = true → s.fld R.MSG_RETRY.COUNT (s.message id.toNat).ctx ≤ (s.message id.toNat).resends → (s.message id.toNat).who = 0 → s.rack.waiting = [] → (t.message id.toNat).busy = false ∧ t.fld R.MSG_FAILS.COUNT (s.message id.toNat).ctx = (s.fld R.MSG_FAILS.COUNT (s.message id.toNat).ctx + 1) % 2 ^ 32 ∧ t.fld R.MSG_LAST_FAIL.STATUS (s.message id.toNat).ctx = 10)) ∧
  (∀ (node id : BitVec 12), Completes (.msgUseAbandon node id) s fun t =>
      (if (s.record (4096 * node.toNat + id.toNat)).valid = true ∧ (s.record (4096 * node.toNat + id.toNat)).done = false then (t.record (4096 * node.toNat + id.toNat)).done = true ∧ (t.record (4096 * node.toNat + id.toNat)).status = 11 ∧ t.cores = s.cores else t = s))

/-- The end of a quiesce, the posting and the time-out of duty requests, the items of a built-in self-test, and the
ends of loop-backs. A command whose condition does not hold changes nothing. -/
def Obligations.DutyTestAndLoopCommands : Prop := ∀ s : State,
  (∀ (ctx : Fin 16), Completes (.ctxQuiesced ctx) s fun t =>
      (if s.fld R.CTX_STATUS.STATE ctx = 2 ∧ s.ctxIdle ctx = true then t.fld R.CTX_STATUS.STATE ctx = 3 ∧ t.cores = s.cores ∧ t.ctxs = s.ctxs else t = s)) ∧
  (∀ (ctx : Fin 16), Completes (.dutyRequestPost ctx) s fun t =>
      (if ((s.ctx ctx).duties.any fun r => !r.posted) = true ∧ s.dutyRoom ctx ≠ 0 then t.fld R.DUTY_REQ_TAIL.INDEX ctx = (s.fld R.DUTY_REQ_TAIL.INDEX ctx + 1) % 2 ^ 32 ∧ t.fld R.DUTY_POSTED.COUNT ctx = (s.fld R.DUTY_POSTED.COUNT ctx + 1) % 2 ^ 64 ∧ (t.ctx ctx).duties.length = (s.ctx ctx).duties.length ∧
      ((t.ctx ctx).duties.filter fun r => r.posted).length = ((s.ctx ctx).duties.filter fun r => r.posted).length + 1 else t = s)) ∧
  (∀ (ctx : Fin 16) (k : BitVec 13), Completes (.dutyTimeout ctx k) s fun t =>
      (if (s.ctx ctx).duties.length ≤ k.toNat then t = s else t.fld R.DUTY_TIMEOUTS.COUNT ctx = (s.fld R.DUTY_TIMEOUTS.COUNT ctx + 1) % 2 ^ 32 ∧ (t.ctx ctx).duties.length ≤ (s.ctx ctx).duties.length)) ∧
  (s.bist.todo = [] → Completes .bistItemStart s fun t =>
      t = s) ∧
  (∀ (it : BistItem) (rest : List BistItem), s.bist.todo = List.cons it rest → Completes .bistItemStart s fun t =>
      (if s.on R.BIST_STATUS.BUSY = true ∧ s.bistRoom it = true ∧ s.bistPower it = true then t.bist.todo = rest ∧ t.bist.running = List.cons it s.bist.running ∧ t.fld R.BIST_STATUS.RUNNING = (s.bist.running.length + 1) % 2 ^ 4 ∧
      (it.cls = 6 → it.inst < 32 → t.linkState it.inst = 6) ∧ t.cores = s.cores ∧ t.hbm = s.hbm ∧ t.basin = s.basin else t = s)) ∧
  (∀ (it : BistItem) (rest : List BistItem), s.bist.todo = List.cons it rest → Completes .bistPowerSkip s fun t =>
      (if s.on R.BIST_STATUS.BUSY = true ∧ s.bistRoom it = true ∧ s.bistPower it = false then t.bist.todo = rest ∧ t.bist.running = s.bist.running ∧ (rest ≠ [] → t.on R.BIST_STATUS.BUSY = true ∧ t.fld R.BIST_STATUS.DONE = (s.fld R.BIST_STATUS.DONE + 1) % 2 ^ 8) ∧ t.fld R.BIST_STATUS.FAILED = s.fld R.BIST_STATUS.FAILED else t = s)) ∧
  (s.bist.todo = [] → Completes .bistPowerSkip s fun t =>
      t = s) ∧
  (∀ (cls : BitVec 4) (inst : BitVec 5) (fail : BitVec 64) (subs : List (Fin 512)) (sig stored : BitVec 64), (s.bist.running.find? fun q => decide (q.cls = cls.toNat ∧ q.inst = inst.toNat)) = none → Completes (.bistItemEnd cls inst fail subs sig stored) s fun t =>
      t = s) ∧
  (∀ (cls : BitVec 4) (inst : BitVec 5) (fail : BitVec 64) (subs : List (Fin 512)) (sig stored : BitVec 64) (it : BistItem), (s.bist.running.find? fun q => decide (q.cls = cls.toNat ∧ q.inst = inst.toNat)) = some it → Completes (.bistItemEnd cls inst fail subs sig stored) s fun t =>
      (s.bist.todo ≠ [] → t.bist.running = (s.bist.running.filter fun q => !decide (q.cls = it.cls ∧ q.inst = it.inst)) ∧ t.fld R.BIST_STATUS.DONE = (s.fld R.BIST_STATUS.DONE + 1) % 2 ^ 8) ∧
      (cls.toNat ≠ 2 → s.bist.todo ≠ [] → t.fld R.BIST_STATUS.FAILED = (s.fld R.BIST_STATUS.FAILED + b2n (decide (fail.toNat % 2 ^ maskWidth cls.toNat ≠ 0))) % 2 ^ 8) ∧
      (cls.toNat = 1 → inst.toNat < 8 → ∀ i : Fin 64, (t.core (64 * inst.toNat + i)).scr = [] ∧ (bit fail.toNat i = true → t.coreState (64 * inst.toNat + i) = coreFenced))) ∧
  (∀ (errs : List (BitVec 16)) (light dark : BitVec 8) (pass : Bool), s.bist.loop = none → Completes (.loopEnd errs light dark pass) s fun t =>
      t = s) ∧
  (∀ (errs : List (BitVec 16)) (light dark : BitVec 8) (pass : Bool) (l : Nat × Nat × Nat), s.bist.loop = some l → Completes (.loopEnd errs light dark pass) s fun t =>
      t.bist.loop = none ∧ t.on R.LOOP_STATUS.BUSY = false ∧ t.fld R.LOOP_STATUS.RESULT = (if (if l.1 = 2 ∧ l.2.2 = 3 then pass else (List.range 8).all fun w => decide (loopErrors l (errs.map BitVec.toNat) dark.toNat w ≤ s.fld R.LOOP_CFG.ERR_MAX)) = true then 0 else 5) ∧ t.fld R.LOOP_STATUS.LIGHT = (if l.1 = 0 then light.toNat else 0) ∧
      (∀ w : Fin 8, t.fld R.LOOP_ERR.ERR 0 w = loopErrors l (errs.map BitVec.toNat) dark.toNat w) ∧ t.cores = s.cores) ∧
  (Completes .pcsLoopbackFollower s fun t =>
      (if s.wharf.up = true ∧ s.on R.LOOP_CXL.FOLLOW_DIS = false ∧ s.bist.follower = false then t.bist.follower = true ∧ t.wharf.heldLds = true ∧ t.fld R.LOOP_CXL.ENTRIES = (s.fld R.LOOP_CXL.ENTRIES + 1) % 2 ^ 16 else t = s)) ∧
  (Completes .pcsLoopbackExit s fun t =>
      t.bist.follower = false ∧ t.wharf.heldLds = false ∧ t.regs = s.regs ∧ t.cores = s.cores)

/-- What the writes of CLK_CTRL, DEV_PWR, RST_*, LD_RESET, BOOT_CTRL and BOOT_MBOX_CMD by a writer with the right do.
-/
def Obligations.PowerAndResetRegisterCommands : Prop := ∀ s : State,
  (∀ (req : Fin 18) (v : Word32), s.takesWrite req .clk 0 0x100 = true → Completes (.clkCtrlWrite req v) s fun t =>
      t.fld R.CLK_CTRL.FIXED_FREQ = field v.toNat 0 1 ∧ t.fld R.CLK_CTRL.BOOST_EN = field v.toNat 1 1 ∧
      t.fld R.CLK_CTRL.BOOST_MARGIN = (if field v.toNat 8 12 ≤ 2000 then field v.toNat 8 12 else s.fld R.CLK_CTRL.BOOST_MARGIN)) ∧
  (∀ (req : Fin 18) (aw : Bool), s.takesWrite req .dev 0 0x100 = true → Completes (.devPwrTargetP0 req aw) s fun t =>
      t = if s.on R.BIST_STATUS.BUSY then { (s.put R.DEV_PWR.AUTO_WAKE 0 (b2n aw)).put R.DEV_PWR.TARGET 0 0 with
      power := { s.power with heldTarget := some 0 } }
      else ((s.put R.DEV_PWR.AUTO_WAKE 0 (b2n aw)).put R.DEV_PWR.TARGET 0 0).powerTarget 0 (reqDetail req)) ∧
  (∀ (req : Fin 18) (aw : Bool), s.takesWrite req .dev 0 0x100 = true → Completes (.devPwrTargetP1 req aw) s fun t =>
      t = if s.on R.BIST_STATUS.BUSY then { (s.put R.DEV_PWR.AUTO_WAKE 0 (b2n aw)).put R.DEV_PWR.TARGET 0 1 with
      power := { s.power with heldTarget := some 1 } }
      else ((s.put R.DEV_PWR.AUTO_WAKE 0 (b2n aw)).put R.DEV_PWR.TARGET 0 1).powerTarget 1 (reqDetail req)) ∧
  (∀ (req : Fin 18) (aw : Bool), s.takesWrite req .dev 0 0x100 = true → Completes (.devPwrTargetP2 req aw) s fun t =>
      t = if s.on R.BIST_STATUS.BUSY then { (s.put R.DEV_PWR.AUTO_WAKE 0 (b2n aw)).put R.DEV_PWR.TARGET 0 2 with
      power := { s.power with heldTarget := some 2 } }
      else if s.on R.DEV_PWR.BUSY || decide (s.fld R.DEV_PWR.CURRENT = 2) || s.allQuiesced then
      ((s.put R.DEV_PWR.AUTO_WAKE 0 (b2n aw)).put R.DEV_PWR.TARGET 0 2).powerTarget 2 (reqDetail req)
      else (s.put R.DEV_PWR.AUTO_WAKE 0 (b2n aw)).errlog .dev 0 2 0x100 0 (reqDetail req)) ∧
  (∀ (req : Fin 18) (aw : Bool), s.takesWrite req .dev 0 0x100 = true → Completes (.devPwrTargetP3 req aw) s fun t =>
      t = if s.on R.BIST_STATUS.BUSY then { (s.put R.DEV_PWR.AUTO_WAKE 0 (b2n aw)).put R.DEV_PWR.TARGET 0 3 with
      power := { s.power with heldTarget := some 3 } }
      else if s.on R.DEV_PWR.BUSY || decide (s.fld R.DEV_PWR.CURRENT = 3) || s.allQuiesced then
      ((s.put R.DEV_PWR.AUTO_WAKE 0 (b2n aw)).put R.DEV_PWR.TARGET 0 3).powerTarget 3 (reqDetail req)
      else (s.put R.DEV_PWR.AUTO_WAKE 0 (b2n aw)).errlog .dev 0 2 0x100 0 (reqDetail req)) ∧
  (∀ (req : Fin 18) (key : Word32), s.takesWrite req .rst 0 0x110 = true → Completes (.rstModuleWrite req key) s fun t =>
      t = if key = 0x0000A5E1 then s.moduleReset.maybeStartSequence else s) ∧
  (∀ (req : Fin 18) (dies : BitVec 8), s.takesWrite req .rst 0 0x108 = true → Completes (.rstDieWrite req dies) s fun t =>
      t = (bitsSet dies.toNat 8).foldl (fun (u : State) d => u.rstDie d) s) ∧
  (∀ (req : Fin 18) (links : Word32), s.takesWrite req .rst 0 0x10C = true → Completes (.rstLinkWrite req links) s fun t =>
      t = (bitsSet links.toNat 32).foldl (fun (u : State) k => u.rstLink k) s) ∧
  (∀ (req : Fin 18) (lds : BitVec 16), s.takesWrite req .rst 0 0x100 = true → Completes (.rstLdWrite req lds) s fun t =>
      t = (bitsSet lds.toNat 16).foldl (fun (u : State) n => u.ldReset 3 n) s) ∧
  (∀ (req : Fin 18) (ctxs : BitVec 16), s.takesWrite req .rst 0 0x104 = true → Completes (.rstCtxWrite req ctxs) s fun t =>
      t = (bitsSet ctxs.toNat 16).foldl (fun (u : State) n => u.ldReset 4 n) s) ∧
  (∀ (req : Fin 18) (ld : Fin 16), s.takesWrite req .ld ld 0x140 = true → Completes (.ldResetLd req ld) s fun t =>
      t = s.ldReset 3 ld) ∧
  (∀ (req : Fin 18) (ld : Fin 16), s.takesWrite req .ld ld 0x140 = true → Completes (.ldResetCtx req ld) s fun t =>
      t = s.ldReset 4 ld) ∧
  (∀ (req : Fin 18), s.takesWrite req .boot 0 0x114 = true → Completes (.load req) s fun t =>
      t = s.bootCommand 1) ∧
  (∀ (req : Fin 18), s.takesWrite req .boot 0 0x114 = true → Completes (.flashWrite req) s fun t =>
      t = s.bootCommand 2) ∧
  (∀ (req : Fin 18), s.takesWrite req .boot 0 0x104 = true → Completes (.svnCommit req) s fun t =>
      t.sec.fuses.svn = if s.power.running && decide (s.sec.fuses.svn < s.imageSvn) then min 64 s.imageSvn else s.sec.fuses.svn)

/-- What the writes of CORE_FENCE, ASSAY_LSTATE, SLUICE_CTRL, SLUICE_CMD, XLAT_CTRL, XLAT_UQ_OP, ATTN_CTRL and
RAKE_CMD do. -/
def Obligations.MemoryPathRegisterCommands : Prop := ∀ s : State,
  (∀ (req : Fin 18) (core : Fin 512), s.takesWrite req .core core 0x108 = true → Completes (.fence req core) s fun t =>
      t = s.fenceCore core 4) ∧
  (∀ (req : Fin 18) (core : Fin 512), s.takesWrite req .core core 0x108 = true → Completes (.unfence req core) s fun t =>
      t = s.unfence core (reqDetail req)) ∧
  (∀ (req : Fin 18) (ctx : Fin 16) (l : Fin 256), s.takesWrite req .assay ctx (0xC00 + 4 * l) = true → Completes (.clear req ctx l) s fun t =>
      t = s.layerCmd ctx l true false (reqDetail req)) ∧
  (∀ (req : Fin 18) (ctx : Fin 16) (l : Fin 256), s.takesWrite req .assay ctx (0xC00 + 4 * l) = true → Completes (.forceWiden req ctx l) s fun t =>
      t = s.layerCmd ctx l false true (reqDetail req)) ∧
  (∀ (req : Fin 18) (ctx : Fin 16) (far : List Byte), s.takesWrite req .sluice ctx 0x100 = true → Completes (.lstReload req ctx far) s fun t =>
      (t.ctx ctx).schedNext.isSome = true ∨ t.on (hdrErrValid .sluice) ctx = true) ∧
  (∀ (req : Fin 18) (ctx : Fin 16) (tier : BitVec 2) (pin : Bool), s.takesWrite req .sluice ctx 0x14C = true → Completes (.stage req ctx tier pin) s fun t =>
      t = if tier.toNat ≤ 1 then s.sluiceCommand ctx 1 tier.toNat pin else s.kind1 .sluice ctx 0x14C 4 req) ∧
  (∀ (req : Fin 18) (ctx : Fin 16) (tier : BitVec 2) (pin : Bool), s.takesWrite req .sluice ctx 0x14C = true → Completes (.evict req ctx tier pin) s fun t =>
      t = if tier = 0 then s.sluiceCommand ctx 2 0 pin else s.kind1 .sluice ctx 0x14C 4 req) ∧
  (∀ (req : Fin 18) (ctx : Fin 16) (tier : BitVec 2) (pin : Bool), s.takesWrite req .sluice ctx 0x14C = true → Completes (.move req ctx tier pin) s fun t =>
      t = if tier ≠ 0 then s.sluiceCommand ctx 3 tier.toNat pin else s.kind1 .sluice ctx 0x14C 4 req) ∧
  (∀ (req : Fin 18) (ctx : Fin 16) (tier : BitVec 2) (pin : Bool), s.takesWrite req .sluice ctx 0x14C = true → Completes (.writeback req ctx tier pin) s fun t =>
      t = if tier = 0 then s.sluiceCommand ctx 4 0 pin else s.kind1 .sluice ctx 0x14C 4 req) ∧
  (∀ (req : Fin 18) (ctx : Fin 16) (tier : BitVec 2) (n : BitVec 24), s.takesWrite req .xlat ctx 0x140 = true → Completes (.alloc req ctx tier n) s fun t =>
      t = (if tier = 1 ∨ tier = 3 then (if n = 0 then s.kind1 .xlat ctx 0x140 8 req else s)
      else (if n = 0 then s.kind1 .xlat ctx 0x140 8 req else s).kind1 .xlat ctx 0x140 4 req).submitEdit ctx 1 tier.toNat n.toNat) ∧
  (∀ (req : Fin 18) (ctx : Fin 16) (tier : BitVec 2) (n : BitVec 24), s.takesWrite req .xlat ctx 0x140 = true → Completes (.mapPooled req ctx tier n) s fun t =>
      t = (if tier = 2 then (if n = 0 then s.kind1 .xlat ctx 0x140 8 req else s)
      else (if n = 0 then s.kind1 .xlat ctx 0x140 8 req else s).kind1 .xlat ctx 0x140 4 req).submitEdit ctx 2 tier.toNat n.toNat) ∧
  (∀ (req : Fin 18) (ctx : Fin 16) (tier : BitVec 2) (n : BitVec 24), s.takesWrite req .xlat ctx 0x140 = true → Completes (.free req ctx tier n) s fun t =>
      t = (if tier = 0 then (if n = 0 then s.kind1 .xlat ctx 0x140 8 req else s)
      else (if n = 0 then s.kind1 .xlat ctx 0x140 8 req else s).kind1 .xlat ctx 0x140 4 req).submitEdit ctx 3 tier.toNat n.toNat) ∧
  (∀ (req : Fin 18) (ctx : Fin 16) (tier : BitVec 2) (n : BitVec 24), s.takesWrite req .xlat ctx 0x140 = true → Completes (.perm req ctx tier n) s fun t =>
      t = (if tier = 0 then (if n = 0 then s.kind1 .xlat ctx 0x140 8 req else s)
      else (if n = 0 then s.kind1 .xlat ctx 0x140 8 req else s).kind1 .xlat ctx 0x140 4 req).submitEdit ctx 4 tier.toNat n.toNat) ∧
  (∀ (req : Fin 18) (ctx : Fin 16) (tier : BitVec 2) (n : BitVec 24), s.takesWrite req .xlat ctx 0x140 = true → Completes (.seqSet req ctx tier n) s fun t =>
      t = (if tier = 0 then (if n = 0 then s.kind1 .xlat ctx 0x140 8 req else s)
      else (if n = 0 then s.kind1 .xlat ctx 0x140 8 req else s).kind1 .xlat ctx 0x140 4 req).submitEdit ctx 5 tier.toNat n.toNat) ∧
  (∀ (req : Fin 18) (ctx : Fin 16) (tier : BitVec 2) (n : BitVec 24), s.takesWrite req .xlat ctx 0x140 = true → Completes (.seqClear req ctx tier n) s fun t =>
      t = (if tier = 0 then (if n = 0 then s.kind1 .xlat ctx 0x140 8 req else s)
      else (if n = 0 then s.kind1 .xlat ctx 0x140 8 req else s).kind1 .xlat ctx 0x140 4 req).submitEdit ctx 6 tier.toNat n.toNat) ∧
  (∀ (req : Fin 18) (ctx : Fin 16) (tier : BitVec 2) (n : BitVec 24), s.takesWrite req .xlat ctx 0x140 = true → Completes (.invNow req ctx tier n) s fun t =>
      t = (if tier = 0 then (if n = 0 then s.kind1 .xlat ctx 0x140 8 req else s)
      else (if n = 0 then s.kind1 .xlat ctx 0x140 8 req else s).kind1 .xlat ctx 0x140 4 req).submitEdit ctx 7 tier.toNat n.toNat) ∧
  (∀ (req : Fin 18) (ctx : Fin 16), s.takesWrite req .xlat ctx 0x100 = true → Completes (.advance req ctx) s fun t =>
      t = if s.on R.STEP_CTRL.EN ctx then s.errlog .xlat ctx 2 0x100 0 (reqDetail req) else s.put R.XLAT_STATUS.ADV_PENDING ctx 1) ∧
  (∀ (req : Fin 18) (ctx : Fin 16) (far : List Byte), s.takesWrite req .attn ctx 0x100 = true → Completes (.mapReload req ctx far) s fun t =>
      (t.ctx ctx).pairNext.isSome = true ∨ t.on (hdrErrValid .attn) ctx = true) ∧
  (∀ (req : Fin 18) (ctx : Fin 16), s.takesWrite req .rake ctx 0x118 = true → Completes (.fork req ctx) s fun t =>
      t = s.forkCommand ctx)

/-- What the writes of the Barge, Manifest, Toll, link, Lock, MSF and host-port command registers do. -/
def Obligations.ServingAndFabricRegisterCommands : Prop := ∀ s : State,
  (∀ (req : Fin 18) (ctx : Fin 16), s.takesWrite req .barge ctx 0x100 = true → Completes (.tabReload req ctx) s fun t =>
      (t.ctx ctx).reloadTabs = true) ∧
  (∀ (req : Fin 18) (ctx : Fin 16) (b : BitVec 16), s.takesWrite req .barge ctx 0x180 = true → Completes (.bargeDownClr req ctx b) s fun t =>
      t = if b = 0 then s else if s.helm ctx then s.modCtx ctx fun x => { x with downClr := x.downClr ||| b.toNat }
      else s.errlog .barge ctx 2 0x180 0 (reqDetail req)) ∧
  (∀ (req : Fin 18) (ctx : Fin 16), s.takesWrite req .mani ctx 0x118 = true → Completes (.maniCancel req ctx) s fun t =>
      t = s.maniCommand ctx 1) ∧
  (∀ (req : Fin 18) (ctx : Fin 16), s.takesWrite req .mani ctx 0x118 = true → Completes (.draftSet req ctx) s fun t =>
      t = s.maniCommand ctx 2) ∧
  (∀ (req : Fin 18) (ctx : Fin 16) (dec : Bool) (l : Word32), s.takesWrite req .toll ctx (if dec then 0x118 else 0x10C) = true → Completes (.tollLevelWrite req ctx dec l) s fun t =>
      t = (s.modCtx ctx fun x => x.setBucket (2 * s.fld R.TOLL_SEL.TENANT ctx + b2n dec)
      { x.bucket (2 * s.fld R.TOLL_SEL.TENANT ctx + b2n dec) with level := l.toInt * 100000000 }).retryBuild ctx) ∧
  (∀ (req : Fin 18) (i : Fin 2) (v : BitVec 16), s.takesWrite req .link i 0x108 = true → Completes (.linkEnWrite req i v) s fun t =>
      t = (s.put R.LINK_EN.EN i v.toNat).linkEnWritten i (s.fld R.LINK_EN.EN i) v.toNat) ∧
  (∀ (req : Fin 18) (far : List Byte), s.takesWrite req .lock 0 0x108 = true → Completes (.lockLoad req far) s fun t =>
      t = s.lockLoad far) ∧
  (∀ (req : Fin 18), s.takesWrite req .lock 0 0x108 = true → Completes (.isolate req) s fun t =>
      t = s.isolate) ∧
  (∀ (req : Fin 18) (ctx : Fin 16) (far : List Byte), s.takesWrite req .msf ctx 0x100 = true → Completes (.impReload req ctx far) s fun t =>
      (t.ctx ctx).imports = (s.importTable ctx far).getD (s.ctx ctx).imports ∧
      (s.importTable ctx far = none → t.on (hdrErrValid .msf) ctx = true)) ∧
  (∀ (req : Fin 18) (ctx : Fin 16), s.takesWrite req .msf ctx 0x134 = true → Completes (.msfExpSet req ctx) s fun t =>
      t = s.exportSet ctx) ∧
  (∀ (req : Fin 18) (ctx : Fin 16), s.takesWrite req .msf ctx 0x134 = true → Completes (.msfExpClear req ctx) s fun t =>
      t = s.exportClear ctx) ∧
  (∀ (req : Fin 18), s.takesWrite req .wharf 0 0x100 = true → Completes (.retrain req) s fun t =>
      t.wharf.training = true) ∧
  (∀ (req : Fin 18) (en : BitVec 16), s.takesWrite req .wharf 0 0x108 = true → Completes (.wharfLdEnWrite req en) s fun t =>
      t = if s.ldEnRefused (s.fld R.WHARF_LD_EN.EN) (field en.toNat 1 15) then s.kind2 .wharf 0 0x108 req
      else s.put R.WHARF_LD_EN.EN 0 (field en.toNat 1 15))

/-- What the writes of LD_CTRL, CTX_CMD, CTX_ACCT_CTRL, DUTY_ANS_TAIL and DUTY_MODE do. -/
def Obligations.ContextRegisterCommands : Prop := ∀ s : State,
  (∀ (req : Fin 18) (ld : Fin 16) (en : Bool), s.takesWrite req .ld ld 0x100 = true → Completes (.ringsEnWrite req ld en) s fun t =>
      t = if en && !s.on R.LD_CTRL.RINGS_EN ld then (s.put R.LD_CTRL.RINGS_EN ld 1).ringsZero ld
      else s.put R.LD_CTRL.RINGS_EN ld (b2n en)) ∧
  (∀ (req : Fin 18) (ctx : Fin 16), s.takesWrite req .ctx ctx 0x100 = true → Completes (.enable req ctx) s fun t =>
      t = (if asLd0 req then s else s.kind2 .ctx ctx 0x100 req).ctxCmd req ctx 1) ∧
  (∀ (req : Fin 18) (ctx : Fin 16), s.takesWrite req .ctx ctx 0x100 = true → Completes (.quiesce req ctx) s fun t =>
      t = s.ctxCmd req ctx 2) ∧
  (∀ (req : Fin 18) (ctx : Fin 16), s.takesWrite req .ctx ctx 0x100 = true → Completes (.ctxResume req ctx) s fun t =>
      t = s.ctxCmd req ctx 3) ∧
  (∀ (req : Fin 18) (ctx : Fin 16), s.takesWrite req .ctx ctx 0x100 = true → Completes (.disable req ctx) s fun t =>
      t = (if asLd0 req then s else s.kind2 .ctx ctx 0x100 req).ctxCmd req ctx 4) ∧
  (∀ (req : Fin 18) (ctx : Fin 16), s.takesWrite req .ctx ctx 0x100 = true → Completes (.setCores req ctx) s fun t =>
      t = (if asLd0 req then s else s.kind2 .ctx ctx 0x100 req).ctxCmd req ctx 5) ∧
  (∀ (req : Fin 18) (ctx : Fin 16), s.takesWrite req .ctx ctx 0x118 = true → Completes (.snap req ctx) s fun t =>
      t.fld R.CTX_SNAP_TICK.TICK ctx = s.tick % 2 ^ 64 ∧ t.fld R.CTX_SNAP.COUNT ctx 0 = s.fld R.CTX_ACCT_BUSY.COUNT ctx % 2 ^ 64 ∧
      t.fld R.CTX_SNAP.COUNT ctx 1 = s.fld R.CTX_ACCT_BITMAC.COUNT ctx % 2 ^ 64 ∧
      t.fld R.CTX_SNAP.COUNT ctx 2 = s.fld R.CTX_ACCT_HBM.COUNT ctx % 2 ^ 64 ∧
      t.fld R.CTX_SNAP.COUNT ctx 3 = s.fld R.CTX_ACCT_FABRIC.COUNT ctx % 2 ^ 64 ∧
      t.fld R.CTX_SNAP.COUNT ctx 4 = s.fld R.CTX_ACCT_ENERGY.COUNT ctx % 2 ^ 64) ∧
  (∀ (req : Fin 18) (ctx : Fin 16) (tail : Word32) (far : List Byte), s.takesWrite req .duty ctx 0x124 = true → Completes (.dutyAnsTailWrite req ctx tail far) s fun t =>
      t = s.ansTail ctx tail.toNat far) ∧
  (∀ (req : Fin 18) (d : Fin 7) (inst : Fin 16) (b : Bool), s.takesHeader req (dutyPage (d + 1)) (if d = 5 then 0 else inst) 0x008 = true → Completes (.dutyModeWrite req d inst b) s fun t =>
      t.fld (hdrDutyMode (dutyPage (d + 1))) (if d = 5 then 0 else inst) =
      if s.hasDuty (dutyPage (d + 1)) (if d = 5 then 0 else inst) then b2n b
      else s.fld (hdrDutyMode (dutyPage (d + 1))) (if d = 5 then 0 else inst))

/-- What the writes of the Gauge pages do, and what a count does to a Gauge that is not frozen. -/
def Obligations.GaugeCommands : Prop := ∀ s : State,
  (∀ (req : Fin 18) (d : Fin 8) (b : Bool), s.takesWrite req .gauge d 0x100 = true → Completes (.gaugeFreeze req d b) s fun t =>
      t.fld R.GAUGE_CTRL.FREEZE d = b2n b) ∧
  (∀ (req : Fin 18) (d : Fin 8), s.takesWrite req .gauge d 0x100 = true → Completes (.gaugeSnap req d) s fun t =>
      t.fld R.GAUGE_SNAP_TICK.TICK d = s.tick % 2 ^ 64 ∧
      t.cores = s.cores.map fun e => (e.1, if e.1 / 64 = d.val then e.2.snapGauges else e.2)) ∧
  (∀ (req : Fin 18) (b : Bool), s.takesWrite req .gaugeM 0 0x100 = true → Completes (.gaugeMfreeze req b) s fun t =>
      t.fld R.GAUGE_MCTRL.FREEZE = b2n b) ∧
  (∀ (req : Fin 18), s.takesWrite req .gaugeM 0 0x100 = true → Completes (.gaugeMsnap req) s fun t =>
      t.fld R.GAUGE_MSNAP_TICK.TICK = s.tick % 2 ^ 64 ∧
      ∀ k : Fin 64, t.fld R.GAUGE_MSNAP.COUNT 0 k = s.fld R.GAUGE_MVAL.COUNT 0 k % 2 ^ 48) ∧
  (∀ (req : Fin 18) (b : Bool), s.takesWrite req .gaugeM 0 0x100 = true → Completes (.freezeAll req b) s fun t =>
      t.fld R.GAUGE_MCTRL.FREEZE_ALL = b2n b) ∧
  (∀ (req : Fin 18), s.takesWrite req .gaugeM 0 0x100 = true → Completes (.snapAll req) s fun t =>
      t.fld R.GAUGE_MSNAP_TICK.TICK = s.tick % 2 ^ 64 ∧
      ∀ d : Fin 8, t.fld R.GAUGE_SNAP_TICK.TICK d = s.tick % 2 ^ 64) ∧
  (∀ (req : Fin 18) (d : Fin 8) (bits : BitVec 16) (all : Bool), s.takesWrite req .gauge d 0x184 = true → Completes (.gaugeClr req d bits all) s fun t =>
      t = if all then (List.range 64).foldl (fun (u : State) c => u.modCore (64 * d + c) fun k => k.clearGauges bits.toNat) s
      else s.modCore (s.gaugeCore d) fun k => k.clearGauges bits.toNat) ∧
  (∀ (req : Fin 18) (bits : BitVec 64), s.takesWrite req .gaugeM 0 0x118 = true → Completes (.gaugeMclr req bits) s fun t =>
      ∀ k : Fin 64, t.fld R.GAUGE_MVAL.COUNT 0 k = if bits.getLsbD k then 0 else s.fld R.GAUGE_MVAL.COUNT 0 k) ∧
  (∀ (req : Fin 18) (d : Fin 8) (ev : BitVec 8) (idx : Fin 8), s.takesWrite req .gauge d 0x10C = true → Completes (.gaugeSelAll req d ev idx) s fun t =>
      t = if coreEventOk ev.toNat then (List.range 64).foldl (fun (u : State) c => u.gaugeSelect (64 * d + c) idx ev.toNat) s
      else s.kind1 .gauge d 0x10C 0 req) ∧
  (∀ (g : Fin 64) (n : BitVec 48), Completes (.gaugeWrap 8 0 g n) s fun t =>
      t.fld R.GAUGE_MVAL.COUNT 0 g =
      if s.mfrozen || decide (s.fld R.GAUGE_MSEL.EVENT 0 g = 0) then s.fld R.GAUGE_MVAL.COUNT 0 g
      else (s.fld R.GAUGE_MVAL.COUNT 0 g + n.toNat) % 2 ^ 48) ∧
  (∀ (d : Fin 9) (c g : Fin 64) (n : BitVec 48), d.val < 8 → Completes (.gaugeWrap d c g n) s fun t =>
      tget 0 (t.core (64 * d + c)).gauge (g % 16) =
      if s.frozen d || decide (8 ≤ g.val % 16 ∧ tget 0 (s.core (64 * d + c)).gaugeSel (g % 16 - 8) = 0)
      then tget 0 (s.core (64 * d + c)).gauge (g % 16) else (tget 0 (s.core (64 * d + c)).gauge (g % 16) + n.toNat) % 2 ^ 48)

/-- What the writes of SEC_CMD, the DBG page, BIST_CMD, LOOP_CMD and FAULT_CTRL do. -/
def Obligations.SecurityAndDebugRegisterCommands : Prop := ∀ s : State,
  (∀ (req : Fin 18) (far : List Byte), s.takesWrite req .sec 0 0x138 = true → Completes (.submit req far) s fun t =>
      t = s.submit far) ∧
  (∀ (req : Fin 18), s.takesWrite req .sec 0 0x138 = true → Completes (.pubkey req) s fun t =>
      t = s.pubkey) ∧
  (∀ (req : Fin 18) (far : List Byte), s.takesWrite req .sec 0 0x138 = true → Completes (.certWrite req far) s fun t =>
      t = s.certWrite far) ∧
  (∀ (req : Fin 18), s.takesWrite req .dbg 0 0x108 = true → Completes (.dbgClose req) s fun t =>
      t = if s.on R.DBG_STATUS.BUSY then s.errlog .dbg 0 4 0 0 0 else s.closeScopes) ∧
  (∀ (req : Fin 18), s.takesWrite req .dbg 0 0x110 = true → Completes (.dbgHalt req) s fun t =>
      t = s.dbgCoreCmd 1) ∧
  (∀ (req : Fin 18), s.takesWrite req .dbg 0 0x110 = true → Completes (.dbgResume req) s fun t =>
      t = s.dbgCoreCmd 2) ∧
  (∀ (req : Fin 18), s.takesWrite req .dbg 0 0x110 = true → Completes (.dbgStep req) s fun t =>
      t = s.dbgCoreCmd 3) ∧
  (∀ (req : Fin 18) (v : BitVec 64), s.takesWrite req .dbg 0 0x120 = true → Completes (.dbgRegDataAccess req true v) s fun t =>
      t.fld R.DBG_STATUS.RESULT = s.regStop % 16 ∧ t.cores = (s.regStore v.toNat).cores) ∧
  (∀ (req : Fin 18) (v : BitVec 64), s.takesHeader req .dbg 0 0x120 = true → Completes (.dbgRegDataAccess req false v) s fun t =>
      t.out = s.out ++ [.regData req 0x7120 (BitVec.ofNat 32 (s.regFetch.fld R.DBG_REG_DATA.DATA)),
      .regData req 0x7124 (BitVec.ofNat 32 (s.regFetch.fld R.DBG_REG_DATA.DATA / 2 ^ 32))]) ∧
  (∀ (req : Fin 18) (e : Ecc), s.takesWrite req .dbg 0 0x138 = true → Completes (.dbgMemRead req e) s fun t =>
      t = s.dbgRead e) ∧
  (∀ (req : Fin 18) (e : Ecc), s.takesWrite req .dbg 0 0x138 = true → Completes (.dbgMemWrite req e) s fun t =>
      t = s.dbgWrite) ∧
  (∀ (req : Fin 18), s.takesWrite req .bist 0 0x100 = true → Completes (.bistStart req) s fun t =>
      t = s.bistStart) ∧
  (∀ (req : Fin 18), s.takesWrite req .bist 0 0x100 = true → Completes (.bistAbort req) s fun t =>
      t = s.bistAbort) ∧
  (∀ (req : Fin 18), s.takesWrite req .loop 0 0x104 = true → Completes (.loopStart req) s fun t =>
      t = s.loopStart) ∧
  (∀ (req : Fin 18), s.takesWrite req .loop 0 0x104 = true → Completes (.loopStop req) s fun t =>
      t = s.loopStop) ∧
  (∀ (req : Fin 18), s.takesWrite req .fault 0 0x100 = true → Completes (.faultCtrlClear req) s fun t =>
      t = if s.on R.FAULT_STATUS.HALTED then s.kind2 .fault 0 0x100 req
      else ((s.put R.FAULT_STATUS.FAULT_L 0 0).put R.FAULT_STATUS.FATAL_VALID 0 0).put R.FAULT_STATUS.FATAL_COUNT 0 0)

/-- What an access of a page's common header, and a read or a whole write at an address of a requester's window,
does. -/
def Obligations.PageAccessCommands : Prop := ∀ s : State,
  (∀ (req : Fin 18) (page : BitVec 13) (p : Page) (i : Nat), pageAt (pageAddr page) = some (p, i) → s.takesHeader req p i 0x008 = true → Completes (.cfgLockSet req page) s fun t =>
      t.fld (hdrCfgLock p) i = 1) ∧
  (∀ (req : Fin 18) (page : BitVec 13) (b : BitVec 6) (p : Page) (i : Nat), pageAt (pageAddr page) = some (p, i) → s.takesHeader req p i 0x018 = true → Completes (.eventForce req page b) s fun t =>
      t.fld (hdrEvent p) i = (s.fld (hdrEvent p) i ||| b.toNat) % 64) ∧
  (∀ (req : Fin 18) (page : BitVec 13) (p : Page) (i : Nat), pageAt (pageAddr page) = some (p, i) → s.takesHeader req p i 0x01C = true → Completes (.errlogAddrRead req page) s fun t =>
      t.out = s.out ++ [.regData req (pageBase p i + 0x01C) (BitVec.ofNat 32 (s.headerWord p i 0x01C))] ∧
      t.errLatch = tset (0, 0) s.errLatch (2 ^ 24 * req + pageBase p i) (s.headerWord p i 0x020 - 2 ^ 4 * s.fld (hdrErrOvf p) i,
      (if s.on (hdrErrValid p) i then tget 0 s.errSeq (pageBase p i) else 0) + 1)) ∧
  (∀ (req : Fin 18) (page : BitVec 13) (p : Page) (i : Nat), pageAt (pageAddr page) = some (p, i) → s.takesHeader req p i 0x020 = true → Completes (.errlogInfoRead req page) s fun t =>
      t.out = s.out ++ [.regData req (pageBase p i + 0x020) (BitVec.ofNat 32 (s.errInfoRead p i req).1)]) ∧
  (∀ (req : Fin 18) (addr : BitVec 25) (a : Nat), windowAddr req (addr.toNat / 8 * 8) = some a → s.regReached req a = true → Completes (.reg64LowHalfRead req addr) s fun t =>
      t = (s.busRead req a).2.emit (.regData req a (BitVec.ofNat 32 (s.busRead req a).1))) ∧
  (∀ (req : Fin 18) (addr : BitVec 25) (a : Nat), windowAddr req addr.toNat = some a → s.regReached req a = true → Completes (.rcRegisterRead req addr) s fun t =>
      t = (s.busRead req a).2.emit (.regData req a (BitVec.ofNat 32 (s.busRead req a).1))) ∧
  (∀ (req : Fin 18) (addr : BitVec 25) (v : Word32) (far : List Byte) (e : Ecc) (a : Nat), windowAddr req addr.toNat = some a → s.regReached req a = true → Completes (.registerWrite req addr v 15 far e) s fun t =>
      t = s.busWrite req a v.toNat 15 far e)

/-- What becomes of a context command: the first refusal in the order of R418, or the state that R417 gives. A
command written while a self-test runs is held (R495). The result of RESUME on an ended context is the model's
reading (log entry 90). -/
def Obligations.ContextCommandResults : Prop := ∀ s : State,
  (∀ (req : Fin 18) (ctx : Fin 16), s.takesWrite req .ctx ctx 0x100 = true → s.on R.BIST_STATUS.BUSY = false → Completes (.enable req ctx) s fun t =>
      t.fld R.CTX_CMD_RESULT.RESULT ctx = (if s.on R.CTX_STATUS.BUSY ctx = true then 6 else if asLd0 req = false then 4 else if ¬(s.fld R.CTX_STATUS.STATE ctx = 0) ∨ (s.ctxInReset ctx = true ∨ s.ldInReset ctx = true) then 1 else if s.ldEnabled ctx = false then 3 else if (∃ n : Fin 512, n.val ∈ s.coresReq ctx ∧ s.inSet ctx n = false ∧ s.coreState n ≠ coreIdle) then 2 else 0) ∧ (t.fld R.CTX_CMD_RESULT.RESULT ctx = 0 → t.fld R.CTX_STATUS.STATE ctx = 1 ∧ ∀ n : Fin 512, n.val ∈ s.coresReq ctx → t.coreState n = coreReady ∧ t.inSet ctx n = true) ∧ (t.fld R.CTX_CMD_RESULT.RESULT ctx ≠ 0 → t.fld R.CTX_STATUS.STATE ctx = s.fld R.CTX_STATUS.STATE ctx ∧ t.cores = s.cores ∧ t.ctxs = s.ctxs)) ∧
  (∀ (req : Fin 18) (ctx : Fin 16), s.takesWrite req .ctx ctx 0x100 = true → s.on R.BIST_STATUS.BUSY = false → Completes (.quiesce req ctx) s fun t =>
      t.fld R.CTX_CMD_RESULT.RESULT ctx = (if s.on R.CTX_STATUS.BUSY ctx = true then 6 else if ¬(s.fld R.CTX_STATUS.STATE ctx = 1) ∨ (s.ctxInReset ctx = true ∨ s.ldInReset ctx = true) then 1 else 0) ∧ (t.fld R.CTX_CMD_RESULT.RESULT ctx = 0 → t.fld R.CTX_STATUS.STATE ctx = 2) ∧ (t.fld R.CTX_CMD_RESULT.RESULT ctx ≠ 0 → t.fld R.CTX_STATUS.STATE ctx = s.fld R.CTX_STATUS.STATE ctx ∧ t.cores = s.cores ∧ t.ctxs = s.ctxs)) ∧
  (∀ (req : Fin 18) (ctx : Fin 16), s.takesWrite req .ctx ctx 0x100 = true → s.on R.BIST_STATUS.BUSY = false → Completes (.ctxResume req ctx) s fun t =>
      t.fld R.CTX_CMD_RESULT.RESULT ctx = (if s.on R.CTX_STATUS.BUSY ctx = true then 6 else if ¬(s.fld R.CTX_STATUS.STATE ctx = 2 ∨ s.fld R.CTX_STATUS.STATE ctx = 3) ∨ (s.ctxInReset ctx = true ∨ s.ldInReset ctx = true) ∨ s.ended ctx = true then 1 else 0) ∧ (t.fld R.CTX_CMD_RESULT.RESULT ctx = 0 → t.fld R.CTX_STATUS.STATE ctx = 1) ∧ (t.fld R.CTX_CMD_RESULT.RESULT ctx ≠ 0 → t.fld R.CTX_STATUS.STATE ctx = s.fld R.CTX_STATUS.STATE ctx ∧ t.cores = s.cores ∧ t.ctxs = s.ctxs)) ∧
  (∀ (req : Fin 18) (ctx : Fin 16), s.takesWrite req .ctx ctx 0x100 = true → s.on R.BIST_STATUS.BUSY = false → Completes (.disable req ctx) s fun t =>
      t.fld R.CTX_CMD_RESULT.RESULT ctx = (if s.on R.CTX_STATUS.BUSY ctx = true then 6 else if asLd0 req = false then 4 else if ¬(s.fld R.CTX_STATUS.STATE ctx = 3) ∨ (s.ctxInReset ctx = true ∨ s.ldInReset ctx = true) then 1 else 0) ∧ (t.fld R.CTX_CMD_RESULT.RESULT ctx = 0 → (t.ctx ctx).disabling = true ∧ t.on R.CTX_STATUS.BUSY ctx = true ∨ t.fld R.CTX_STATUS.STATE ctx = 0) ∧ (t.fld R.CTX_CMD_RESULT.RESULT ctx ≠ 0 → t.fld R.CTX_STATUS.STATE ctx = s.fld R.CTX_STATUS.STATE ctx ∧ t.cores = s.cores ∧ t.ctxs = s.ctxs)) ∧
  (∀ (req : Fin 18) (ctx : Fin 16), s.takesWrite req .ctx ctx 0x100 = true → s.on R.BIST_STATUS.BUSY = false → Completes (.setCores req ctx) s fun t =>
      t.fld R.CTX_CMD_RESULT.RESULT ctx = (if s.on R.CTX_STATUS.BUSY ctx = true then 6 else if asLd0 req = false then 4 else if ¬(s.fld R.CTX_STATUS.STATE ctx = 3) ∨ (s.ctxInReset ctx = true ∨ s.ldInReset ctx = true) then 1 else if (∃ n : Fin 512, n.val ∈ s.coresReq ctx ∧ s.inSet ctx n = false ∧ s.coreState n ≠ coreIdle) then 2 else 0) ∧ (t.fld R.CTX_CMD_RESULT.RESULT ctx = 0 → t.fld R.CTX_STATUS.STATE ctx = 3 ∧ ∀ n : Fin 512, (n.val ∈ s.coresReq ctx → t.inSet ctx n = true) ∧ (n.val ∉ s.coresReq ctx → (s.ownerOf n = some ctx.val ∨ s.inSet ctx n = false) → t.inSet ctx n = false)) ∧ (t.fld R.CTX_CMD_RESULT.RESULT ctx ≠ 0 → t.fld R.CTX_STATUS.STATE ctx = s.fld R.CTX_STATUS.STATE ctx ∧ t.cores = s.cores ∧ t.ctxs = s.ctxs))

/-- What becomes of an edit written to the update queue: refused with BAD or FULL, or queued under the next sequence
number. The sequence number of a context's first edit is the model's choice (log entry 73). -/
def Obligations.UpdateQueueResults : Prop := ∀ s : State,
  (∀ (req : Fin 18) (ctx : Fin 16) (tier : BitVec 2) (n : BitVec 24), s.takesWrite req .xlat ctx 0x140 = true → Completes (.alloc req ctx tier n) s fun t =>
      (¬(((s.fld R.XLAT_UQ_ARG0.ARG ctx) % 65536 = 0 ∧ (s.fld R.XLAT_UQ_ARG0.ARG ctx) < 2 ^ 48) ∧ (tier = 1 ∨ tier = 3) ∧ (s.fld R.XLAT_UQ_ARG1.ARG ctx) < 8 ∧ n ≠ 0) → t.fld R.XLAT_UQ_RESULT.BAD ctx = 1 ∧ t.fld R.XLAT_UQ_RESULT.ACCEPTED ctx = 0 ∧ (t.ctx ctx).queue = (s.ctx ctx).queue ∧ (t.ctx ctx).seqNext = (s.ctx ctx).seqNext) ∧
      ((((s.fld R.XLAT_UQ_ARG0.ARG ctx) % 65536 = 0 ∧ (s.fld R.XLAT_UQ_ARG0.ARG ctx) < 2 ^ 48) ∧ (tier = 1 ∨ tier = 3) ∧ (s.fld R.XLAT_UQ_ARG1.ARG ctx) < 8 ∧ n ≠ 0) → 3072 ≤ (s.ctx ctx).hostEdits → t.fld R.XLAT_UQ_RESULT.FULL ctx = 1 ∧ t.fld R.XLAT_UQ_RESULT.ACCEPTED ctx = 0 ∧ (t.ctx ctx).queue = (s.ctx ctx).queue) ∧
      ((((s.fld R.XLAT_UQ_ARG0.ARG ctx) % 65536 = 0 ∧ (s.fld R.XLAT_UQ_ARG0.ARG ctx) < 2 ^ 48) ∧ (tier = 1 ∨ tier = 3) ∧ (s.fld R.XLAT_UQ_ARG1.ARG ctx) < 8 ∧ n ≠ 0) → (s.ctx ctx).hostEdits < 3072 → t.fld R.XLAT_UQ_RESULT.ACCEPTED ctx = 1 ∧ t.fld R.XLAT_UQ_RESULT.SEQNO ctx = (s.ctx ctx).seqNext % 2 ^ 32 ∧ (t.ctx ctx).seqNext = ((s.ctx ctx).seqNext + 1) % 2 ^ 32 ∧ (t.ctx ctx).queue = (s.ctx ctx).queue ++ [⟨(s.ctx ctx).seqNext, 0, 1, tier.toNat, (s.fld R.XLAT_UQ_ARG0.ARG ctx), (s.fld R.XLAT_UQ_ARG1.ARG ctx), n.toNat⟩])) ∧
  (∀ (req : Fin 18) (ctx : Fin 16) (tier : BitVec 2) (n : BitVec 24), s.takesWrite req .xlat ctx 0x140 = true → Completes (.mapPooled req ctx tier n) s fun t =>
      (¬(((s.fld R.XLAT_UQ_ARG0.ARG ctx) % 65536 = 0 ∧ (s.fld R.XLAT_UQ_ARG0.ARG ctx) < 2 ^ 48) ∧ tier = 2 ∧ (s.fld R.XLAT_UQ_ARG1.ARG ctx) - field (s.fld R.XLAT_UQ_ARG1.ARG ctx) 16 36 * 65536 < 8 ∧ n ≠ 0) → t.fld R.XLAT_UQ_RESULT.BAD ctx = 1 ∧ t.fld R.XLAT_UQ_RESULT.ACCEPTED ctx = 0 ∧ (t.ctx ctx).queue = (s.ctx ctx).queue ∧ (t.ctx ctx).seqNext = (s.ctx ctx).seqNext) ∧
      ((((s.fld R.XLAT_UQ_ARG0.ARG ctx) % 65536 = 0 ∧ (s.fld R.XLAT_UQ_ARG0.ARG ctx) < 2 ^ 48) ∧ tier = 2 ∧ (s.fld R.XLAT_UQ_ARG1.ARG ctx) - field (s.fld R.XLAT_UQ_ARG1.ARG ctx) 16 36 * 65536 < 8 ∧ n ≠ 0) → 3072 ≤ (s.ctx ctx).hostEdits → t.fld R.XLAT_UQ_RESULT.FULL ctx = 1 ∧ t.fld R.XLAT_UQ_RESULT.ACCEPTED ctx = 0 ∧ (t.ctx ctx).queue = (s.ctx ctx).queue) ∧
      ((((s.fld R.XLAT_UQ_ARG0.ARG ctx) % 65536 = 0 ∧ (s.fld R.XLAT_UQ_ARG0.ARG ctx) < 2 ^ 48) ∧ tier = 2 ∧ (s.fld R.XLAT_UQ_ARG1.ARG ctx) - field (s.fld R.XLAT_UQ_ARG1.ARG ctx) 16 36 * 65536 < 8 ∧ n ≠ 0) → (s.ctx ctx).hostEdits < 3072 → t.fld R.XLAT_UQ_RESULT.ACCEPTED ctx = 1 ∧ t.fld R.XLAT_UQ_RESULT.SEQNO ctx = (s.ctx ctx).seqNext % 2 ^ 32 ∧ (t.ctx ctx).seqNext = ((s.ctx ctx).seqNext + 1) % 2 ^ 32 ∧ (t.ctx ctx).queue = (s.ctx ctx).queue ++ [⟨(s.ctx ctx).seqNext, 0, 2, tier.toNat, (s.fld R.XLAT_UQ_ARG0.ARG ctx), (s.fld R.XLAT_UQ_ARG1.ARG ctx), n.toNat⟩])) ∧
  (∀ (req : Fin 18) (ctx : Fin 16) (tier : BitVec 2) (n : BitVec 24), s.takesWrite req .xlat ctx 0x140 = true → Completes (.free req ctx tier n) s fun t =>
      (¬(((s.fld R.XLAT_UQ_ARG0.ARG ctx) % 65536 = 0 ∧ (s.fld R.XLAT_UQ_ARG0.ARG ctx) < 2 ^ 48) ∧ tier = 0 ∧ (s.fld R.XLAT_UQ_ARG1.ARG ctx) = 0 ∧ n ≠ 0) → t.fld R.XLAT_UQ_RESULT.BAD ctx = 1 ∧ t.fld R.XLAT_UQ_RESULT.ACCEPTED ctx = 0 ∧ (t.ctx ctx).queue = (s.ctx ctx).queue ∧ (t.ctx ctx).seqNext = (s.ctx ctx).seqNext) ∧
      ((((s.fld R.XLAT_UQ_ARG0.ARG ctx) % 65536 = 0 ∧ (s.fld R.XLAT_UQ_ARG0.ARG ctx) < 2 ^ 48) ∧ tier = 0 ∧ (s.fld R.XLAT_UQ_ARG1.ARG ctx) = 0 ∧ n ≠ 0) → 3072 ≤ (s.ctx ctx).hostEdits → t.fld R.XLAT_UQ_RESULT.FULL ctx = 1 ∧ t.fld R.XLAT_UQ_RESULT.ACCEPTED ctx = 0 ∧ (t.ctx ctx).queue = (s.ctx ctx).queue) ∧
      ((((s.fld R.XLAT_UQ_ARG0.ARG ctx) % 65536 = 0 ∧ (s.fld R.XLAT_UQ_ARG0.ARG ctx) < 2 ^ 48) ∧ tier = 0 ∧ (s.fld R.XLAT_UQ_ARG1.ARG ctx) = 0 ∧ n ≠ 0) → (s.ctx ctx).hostEdits < 3072 → t.fld R.XLAT_UQ_RESULT.ACCEPTED ctx = 1 ∧ t.fld R.XLAT_UQ_RESULT.SEQNO ctx = (s.ctx ctx).seqNext % 2 ^ 32 ∧ (t.ctx ctx).seqNext = ((s.ctx ctx).seqNext + 1) % 2 ^ 32 ∧ (t.ctx ctx).queue = (s.ctx ctx).queue ++ [⟨(s.ctx ctx).seqNext, 0, 3, tier.toNat, (s.fld R.XLAT_UQ_ARG0.ARG ctx), (s.fld R.XLAT_UQ_ARG1.ARG ctx), n.toNat⟩])) ∧
  (∀ (req : Fin 18) (ctx : Fin 16) (tier : BitVec 2) (n : BitVec 24), s.takesWrite req .xlat ctx 0x140 = true → Completes (.perm req ctx tier n) s fun t =>
      (¬(((s.fld R.XLAT_UQ_ARG0.ARG ctx) % 65536 = 0 ∧ (s.fld R.XLAT_UQ_ARG0.ARG ctx) < 2 ^ 48) ∧ tier = 0 ∧ (s.fld R.XLAT_UQ_ARG1.ARG ctx) < 8 ∧ n ≠ 0) → t.fld R.XLAT_UQ_RESULT.BAD ctx = 1 ∧ t.fld R.XLAT_UQ_RESULT.ACCEPTED ctx = 0 ∧ (t.ctx ctx).queue = (s.ctx ctx).queue ∧ (t.ctx ctx).seqNext = (s.ctx ctx).seqNext) ∧
      ((((s.fld R.XLAT_UQ_ARG0.ARG ctx) % 65536 = 0 ∧ (s.fld R.XLAT_UQ_ARG0.ARG ctx) < 2 ^ 48) ∧ tier = 0 ∧ (s.fld R.XLAT_UQ_ARG1.ARG ctx) < 8 ∧ n ≠ 0) → 3072 ≤ (s.ctx ctx).hostEdits → t.fld R.XLAT_UQ_RESULT.FULL ctx = 1 ∧ t.fld R.XLAT_UQ_RESULT.ACCEPTED ctx = 0 ∧ (t.ctx ctx).queue = (s.ctx ctx).queue) ∧
      ((((s.fld R.XLAT_UQ_ARG0.ARG ctx) % 65536 = 0 ∧ (s.fld R.XLAT_UQ_ARG0.ARG ctx) < 2 ^ 48) ∧ tier = 0 ∧ (s.fld R.XLAT_UQ_ARG1.ARG ctx) < 8 ∧ n ≠ 0) → (s.ctx ctx).hostEdits < 3072 → t.fld R.XLAT_UQ_RESULT.ACCEPTED ctx = 1 ∧ t.fld R.XLAT_UQ_RESULT.SEQNO ctx = (s.ctx ctx).seqNext % 2 ^ 32 ∧ (t.ctx ctx).seqNext = ((s.ctx ctx).seqNext + 1) % 2 ^ 32 ∧ (t.ctx ctx).queue = (s.ctx ctx).queue ++ [⟨(s.ctx ctx).seqNext, 0, 4, tier.toNat, (s.fld R.XLAT_UQ_ARG0.ARG ctx), (s.fld R.XLAT_UQ_ARG1.ARG ctx), n.toNat⟩])) ∧
  (∀ (req : Fin 18) (ctx : Fin 16) (tier : BitVec 2) (n : BitVec 24), s.takesWrite req .xlat ctx 0x140 = true → Completes (.seqSet req ctx tier n) s fun t =>
      (¬(tier = 0 ∧ n = 1 ∧ field (s.fld R.XLAT_UQ_ARG0.ARG ctx) 18 3 = 0 ∧ (s.fld R.XLAT_UQ_ARG0.ARG ctx) < 2 ^ 48 ∧ field (s.fld R.XLAT_UQ_ARG1.ARG ctx) 12 4 = 0 ∧ (s.fld R.XLAT_UQ_ARG1.ARG ctx) < 2 ^ 29 ∧ 1 ≤ field (s.fld R.XLAT_UQ_ARG1.ARG ctx) 0 12 ∧ 1 ≤ field (s.fld R.XLAT_UQ_ARG1.ARG ctx) 16 13 ∧ field (s.fld R.XLAT_UQ_ARG1.ARG ctx) 16 13 ≤ 4096 ∧ n ≠ 0) → t.fld R.XLAT_UQ_RESULT.BAD ctx = 1 ∧ t.fld R.XLAT_UQ_RESULT.ACCEPTED ctx = 0 ∧ (t.ctx ctx).queue = (s.ctx ctx).queue ∧ (t.ctx ctx).seqNext = (s.ctx ctx).seqNext) ∧
      ((tier = 0 ∧ n = 1 ∧ field (s.fld R.XLAT_UQ_ARG0.ARG ctx) 18 3 = 0 ∧ (s.fld R.XLAT_UQ_ARG0.ARG ctx) < 2 ^ 48 ∧ field (s.fld R.XLAT_UQ_ARG1.ARG ctx) 12 4 = 0 ∧ (s.fld R.XLAT_UQ_ARG1.ARG ctx) < 2 ^ 29 ∧ 1 ≤ field (s.fld R.XLAT_UQ_ARG1.ARG ctx) 0 12 ∧ 1 ≤ field (s.fld R.XLAT_UQ_ARG1.ARG ctx) 16 13 ∧ field (s.fld R.XLAT_UQ_ARG1.ARG ctx) 16 13 ≤ 4096 ∧ n ≠ 0) → 3072 ≤ (s.ctx ctx).hostEdits → t.fld R.XLAT_UQ_RESULT.FULL ctx = 1 ∧ t.fld R.XLAT_UQ_RESULT.ACCEPTED ctx = 0 ∧ (t.ctx ctx).queue = (s.ctx ctx).queue) ∧
      ((tier = 0 ∧ n = 1 ∧ field (s.fld R.XLAT_UQ_ARG0.ARG ctx) 18 3 = 0 ∧ (s.fld R.XLAT_UQ_ARG0.ARG ctx) < 2 ^ 48 ∧ field (s.fld R.XLAT_UQ_ARG1.ARG ctx) 12 4 = 0 ∧ (s.fld R.XLAT_UQ_ARG1.ARG ctx) < 2 ^ 29 ∧ 1 ≤ field (s.fld R.XLAT_UQ_ARG1.ARG ctx) 0 12 ∧ 1 ≤ field (s.fld R.XLAT_UQ_ARG1.ARG ctx) 16 13 ∧ field (s.fld R.XLAT_UQ_ARG1.ARG ctx) 16 13 ≤ 4096 ∧ n ≠ 0) → (s.ctx ctx).hostEdits < 3072 → t.fld R.XLAT_UQ_RESULT.ACCEPTED ctx = 1 ∧ t.fld R.XLAT_UQ_RESULT.SEQNO ctx = (s.ctx ctx).seqNext % 2 ^ 32 ∧ (t.ctx ctx).seqNext = ((s.ctx ctx).seqNext + 1) % 2 ^ 32 ∧ (t.ctx ctx).queue = (s.ctx ctx).queue ++ [⟨(s.ctx ctx).seqNext, 0, 5, tier.toNat, (s.fld R.XLAT_UQ_ARG0.ARG ctx), (s.fld R.XLAT_UQ_ARG1.ARG ctx), n.toNat⟩])) ∧
  (∀ (req : Fin 18) (ctx : Fin 16) (tier : BitVec 2) (n : BitVec 24), s.takesWrite req .xlat ctx 0x140 = true → Completes (.seqClear req ctx tier n) s fun t =>
      (¬(tier = 0 ∧ n = 1 ∧ (s.fld R.XLAT_UQ_ARG0.ARG ctx) < 1024 ∧ (s.fld R.XLAT_UQ_ARG1.ARG ctx) = 0 ∧ n ≠ 0) → t.fld R.XLAT_UQ_RESULT.BAD ctx = 1 ∧ t.fld R.XLAT_UQ_RESULT.ACCEPTED ctx = 0 ∧ (t.ctx ctx).queue = (s.ctx ctx).queue ∧ (t.ctx ctx).seqNext = (s.ctx ctx).seqNext) ∧
      ((tier = 0 ∧ n = 1 ∧ (s.fld R.XLAT_UQ_ARG0.ARG ctx) < 1024 ∧ (s.fld R.XLAT_UQ_ARG1.ARG ctx) = 0 ∧ n ≠ 0) → 3072 ≤ (s.ctx ctx).hostEdits → t.fld R.XLAT_UQ_RESULT.FULL ctx = 1 ∧ t.fld R.XLAT_UQ_RESULT.ACCEPTED ctx = 0 ∧ (t.ctx ctx).queue = (s.ctx ctx).queue) ∧
      ((tier = 0 ∧ n = 1 ∧ (s.fld R.XLAT_UQ_ARG0.ARG ctx) < 1024 ∧ (s.fld R.XLAT_UQ_ARG1.ARG ctx) = 0 ∧ n ≠ 0) → (s.ctx ctx).hostEdits < 3072 → t.fld R.XLAT_UQ_RESULT.ACCEPTED ctx = 1 ∧ t.fld R.XLAT_UQ_RESULT.SEQNO ctx = (s.ctx ctx).seqNext % 2 ^ 32 ∧ (t.ctx ctx).seqNext = ((s.ctx ctx).seqNext + 1) % 2 ^ 32 ∧ (t.ctx ctx).queue = (s.ctx ctx).queue ++ [⟨(s.ctx ctx).seqNext, 0, 6, tier.toNat, (s.fld R.XLAT_UQ_ARG0.ARG ctx), (s.fld R.XLAT_UQ_ARG1.ARG ctx), n.toNat⟩])) ∧
  (∀ (req : Fin 18) (ctx : Fin 16) (tier : BitVec 2) (n : BitVec 24), s.takesWrite req .xlat ctx 0x140 = true → Completes (.invNow req ctx tier n) s fun t =>
      (t.ctx ctx).queue = (s.ctx ctx).queue ∧ t.fld R.XLAT_UQ_RESULT.ACCEPTED ctx = 0 ∧ t.on R.XLAT_UQ_RESULT.BAD ctx = decide (¬(((s.fld R.XLAT_UQ_ARG0.ARG ctx) % 65536 = 0 ∧ (s.fld R.XLAT_UQ_ARG0.ARG ctx) < 2 ^ 48) ∧ tier = 0 ∧ (s.fld R.XLAT_UQ_ARG1.ARG ctx) = 0 ∧ s.on (hdrDutyMode .xlat) ctx = true ∧ n ≠ 0)))

/-- What becomes of the other commands that registers take: the first check that fails gives the result, and a
command that passes takes effect. The order of the checks of MSF_EXP_CMD and of LOOP_CMD is the model's reading (log
entries 85 and 95). -/
def Obligations.ServiceCommandResults : Prop := ∀ s : State,
  (∀ (req : Fin 18), s.takesWrite req .bist 0 0x100 = true → Completes (.bistStart req) s fun t =>
      t.fld R.BIST_STATUS.RESULT = (if s.on R.BIST_STATUS.BUSY = true then 1 else if (s.fld R.SEC_LIFECYCLE.STATE) = 4 ∨ (s.on R.BIST_SEL.SET = true ∧ (s.fld R.SEC_LIFECYCLE.STATE) ≠ 0 ∧ (s.fld R.SEC_LIFECYCLE.STATE) ≠ 3) then 2
      else if ¬(if s.on R.BIST_SEL.SET = true then (∀ c : Fin 16, s.fld R.CTX_STATUS.STATE c = 0) else (∀ c : Fin 16, s.fld R.CTX_STATUS.STATE c = 0 ∨ s.fld R.CTX_STATUS.STATE c = 3)) then 3 else if s.fld R.DEV_PWR.CURRENT ≠ 0 ∨ s.on R.DEV_PWR.BUSY = true then 4
      else if s.fld R.BIST_LOG_ADDR.ADDR = 0 ∨ s.fld R.BIST_SEL.CLASSES = 0 ∨ s.fld R.BIST_SEL.DIES = 0 then 5 else 0) ∧
      (t.fld R.BIST_STATUS.RESULT ≠ 0 → t.bist = s.bist ∧ t.on R.BIST_STATUS.BUSY = s.on R.BIST_STATUS.BUSY)) ∧
  (∀ (req : Fin 18), s.takesWrite req .loop 0 0x104 = true → Completes (.loopStart req) s fun t =>
      t.fld R.LOOP_STATUS.RESULT = (if s.on R.BIST_STATUS.BUSY = true ∨ s.on R.LOOP_STATUS.BUSY = true then 1 else if (s.fld R.LOOP_SEL.IF) = 0 then (if s.linkEnabled (s.fld R.LOOP_SEL.INST) = true then 2 else s.fld R.LOOP_STATUS.RESULT)
      else if (s.fld R.SEC_LIFECYCLE.STATE) = 4 ∨ ((s.fld R.LOOP_SEL.IF) = 2 ∧ (s.fld R.LOOP_SEL.DEPTH) = 3 ∧ (s.fld R.SEC_LIFECYCLE.STATE) ≠ 0 ∧ (s.fld R.SEC_LIFECYCLE.STATE) ≠ 3 ∧ bit s.power.hbmExcluded (s.fld R.LOOP_SEL.INST) = false) then 2 else if ¬(∀ c : Fin 16, s.fld R.CTX_STATUS.STATE c = 0 ∨ s.fld R.CTX_STATUS.STATE c = 3) then 3 else if (s.fld R.LOOP_SEL.IF) = 1 ∧ s.bist.follower = true then 4 else s.fld R.LOOP_STATUS.RESULT) ∧
      (t.bist = s.bist ∨ t.bist.loop = some ((s.fld R.LOOP_SEL.IF), (s.fld R.LOOP_SEL.INST), (s.fld R.LOOP_SEL.DEPTH)) ∧ t.on R.LOOP_STATUS.BUSY = true)) ∧
  (∀ (req : Fin 18), s.takesWrite req .loop 0 0x104 = true → Completes (.loopStop req) s fun t =>
      (if s.bist.loop = none then t = s else t.bist.loop = none ∧ t.fld R.LOOP_STATUS.RESULT = 6 ∧ t.on R.LOOP_STATUS.BUSY = false)) ∧
  (∀ (req : Fin 18), s.takesWrite req .dbg 0 0x110 = true → s.on R.DBG_STATUS.BUSY = false → Completes (.dbgHalt req) s fun t =>
      t.fld R.DBG_STATUS.RESULT = (if s.scope 0 = false then 1 else if s.coreReach s.dbgCore = false then 2 else if 2 ≤ s.fld R.DEV_PWR.CURRENT then 3 else if s.coreState s.dbgCore ≠ coreRunning ∧ s.coreState s.dbgCore ≠ coreHalted then 4 else 0) ∧ (t.fld R.DBG_STATUS.RESULT = 0 → t.coreState s.dbgCore = coreHalted) ∧ ((t.fld R.DBG_STATUS.RESULT = 1 ∨ t.fld R.DBG_STATUS.RESULT = 2 ∨ t.fld R.DBG_STATUS.RESULT = 3) → t.cores = s.cores ∧ t.sec = s.sec)) ∧
  (∀ (req : Fin 18), s.takesWrite req .dbg 0 0x110 = true → s.on R.DBG_STATUS.BUSY = false → Completes (.dbgResume req) s fun t =>
      t.fld R.DBG_STATUS.RESULT = (if s.scope 0 = false then 1 else if s.coreReach s.dbgCore = false then 2 else if 2 ≤ s.fld R.DEV_PWR.CURRENT then 3 else if s.coreState s.dbgCore ≠ coreRunning ∧ s.coreState s.dbgCore ≠ coreHalted then 4 else 0) ∧ (t.fld R.DBG_STATUS.RESULT = 0 → t.coreState s.dbgCore = coreRunning) ∧ ((t.fld R.DBG_STATUS.RESULT = 1 ∨ t.fld R.DBG_STATUS.RESULT = 2 ∨ t.fld R.DBG_STATUS.RESULT = 3) → t.cores = s.cores ∧ t.sec = s.sec)) ∧
  (∀ (req : Fin 18), s.takesWrite req .dbg 0 0x110 = true → s.on R.DBG_STATUS.BUSY = false → Completes (.dbgStep req) s fun t =>
      t.fld R.DBG_STATUS.RESULT = (if s.scope 0 = false then 1 else if s.coreReach s.dbgCore = false then 2 else if 2 ≤ s.fld R.DEV_PWR.CURRENT then 3 else if s.coreState s.dbgCore ≠ coreRunning ∧ s.coreState s.dbgCore ≠ coreHalted then 4 else 0) ∧ (t.fld R.DBG_STATUS.RESULT = 0 → t.coreState s.dbgCore = coreHalted ∧ t.on R.DBG_STATUS.BUSY = true ∧ s.dbgCore ∈ t.sec.stepping) ∧ ((t.fld R.DBG_STATUS.RESULT = 1 ∨ t.fld R.DBG_STATUS.RESULT = 2 ∨ t.fld R.DBG_STATUS.RESULT = 3) → t.cores = s.cores ∧ t.sec = s.sec)) ∧
  (∀ (req : Fin 18) (ctx : Fin 16), s.takesWrite req .mani ctx 0x118 = true → Completes (.maniCancel req ctx) s fun t =>
      t.fld R.MANI_CMD_RESULT.RESULT ctx = (if s.helm ctx = false then 1 else if (((s.entry ctx (s.fld R.MANI_CMD_ARG.SLOT ctx)).state = 1 ∨ (s.entry ctx (s.fld R.MANI_CMD_ARG.SLOT ctx)).state = 2) ∧ (s.entry ctx (s.fld R.MANI_CMD_ARG.SLOT ctx)).gen = (s.fld R.MANI_CMD_ARG.GEN ctx)) then 0 else 2) ∧ (s.stepsRun ctx = false → s.helm ctx = true → (((s.entry ctx (s.fld R.MANI_CMD_ARG.SLOT ctx)).state = 1 ∨ (s.entry ctx (s.fld R.MANI_CMD_ARG.SLOT ctx)).state = 2) ∧ (s.entry ctx (s.fld R.MANI_CMD_ARG.SLOT ctx)).gen = (s.fld R.MANI_CMD_ARG.GEN ctx)) → (t.entry ctx (s.fld R.MANI_CMD_ARG.SLOT ctx)).cancel = true)) ∧
  (∀ (req : Fin 18) (ctx : Fin 16), s.takesWrite req .mani ctx 0x118 = true → Completes (.draftSet req ctx) s fun t =>
      t.fld R.MANI_CMD_RESULT.RESULT ctx = (if s.helm ctx = false then 1 else if 8 < (s.fld R.MANI_CMD_ARG.VALUE ctx) then 3 else if (((s.entry ctx (s.fld R.MANI_CMD_ARG.SLOT ctx)).state = 1 ∨ (s.entry ctx (s.fld R.MANI_CMD_ARG.SLOT ctx)).state = 2) ∧ (s.entry ctx (s.fld R.MANI_CMD_ARG.SLOT ctx)).gen = (s.fld R.MANI_CMD_ARG.GEN ctx)) then 0 else 2) ∧ (s.stepsRun ctx = false → s.helm ctx = true → (s.fld R.MANI_CMD_ARG.VALUE ctx) ≤ 8 → (((s.entry ctx (s.fld R.MANI_CMD_ARG.SLOT ctx)).state = 1 ∨ (s.entry ctx (s.fld R.MANI_CMD_ARG.SLOT ctx)).state = 2) ∧ (s.entry ctx (s.fld R.MANI_CMD_ARG.SLOT ctx)).gen = (s.fld R.MANI_CMD_ARG.GEN ctx)) → (t.entry ctx (s.fld R.MANI_CMD_ARG.SLOT ctx)).draftMax = (s.fld R.MANI_CMD_ARG.VALUE ctx) ∧ (t.entry ctx (s.fld R.MANI_CMD_ARG.SLOT ctx)).draftLen = (s.fld R.MANI_CMD_ARG.VALUE ctx) ∧ (t.entry ctx (s.fld R.MANI_CMD_ARG.SLOT ctx)).rejects = 0)) ∧
  (∀ (req : Fin 18) (ctx : Fin 16), s.takesWrite req .msf ctx 0x134 = true → Completes (.msfExpSet req ctx) s fun t =>
      t.fld R.MSF_EXP_RESULT.RESULT ctx = (if (s.fld R.MSF_EXP_ARG0.REGION ctx) < 2 then 4 else if (s.region (s.fld R.MSF_EXP_ARG0.REGION ctx)).isSet = true ∧ (s.region (s.fld R.MSF_EXP_ARG0.REGION ctx)).owner ≠ ctx then 1
      else if s.argReserved ctx = true ∨ (∃ x ∈ s.rack.regions, x.1 ≠ (s.fld R.MSF_EXP_ARG0.REGION ctx) ∧ x.2.overlaps (s.argRegion ctx) = true) then 2 else if (s.argRegion ctx).kind = 1 ∧ s.inSet ctx (s.argRegion ctx).core = false then 3 else 0) ∧
      (t.fld R.MSF_EXP_RESULT.RESULT ctx = 0 → t.region (s.fld R.MSF_EXP_ARG0.REGION ctx) = s.argRegion ctx) ∧ (t.fld R.MSF_EXP_RESULT.RESULT ctx ≠ 0 → t.rack = s.rack)) ∧
  (∀ (req : Fin 18) (ctx : Fin 16), s.takesWrite req .msf ctx 0x134 = true → Completes (.msfExpClear req ctx) s fun t =>
      t.fld R.MSF_EXP_RESULT.RESULT ctx = (if (s.fld R.MSF_EXP_ARG0.REGION ctx) < 2 then 4 else if (s.region (s.fld R.MSF_EXP_ARG0.REGION ctx)).isSet = true ∧ (s.region (s.fld R.MSF_EXP_ARG0.REGION ctx)).owner = ctx then 0 else 5) ∧ (t.fld R.MSF_EXP_RESULT.RESULT ctx = 0 → t.region (s.fld R.MSF_EXP_ARG0.REGION ctx) = Region.none) ∧ (t.fld R.MSF_EXP_RESULT.RESULT ctx ≠ 0 → t.rack = s.rack)) ∧
  (∀ (req : Fin 18) (ctx : Fin 16), s.takesWrite req .rake ctx 0x118 = true → Completes (.fork req ctx) s fun t =>
      (if s.on R.RAKE_CMD_RESULT.BUSY ctx = true then t.ctxs = s.ctxs else t.on R.RAKE_CMD_RESULT.BUSY ctx = true ∧ (t.ctx ctx).queue.length = (s.ctx ctx).queue.length + 1 ∧ (t.ctx ctx).seqNext = ((s.ctx ctx).seqNext + 1) % 2 ^ 32)) ∧
  (∀ (req : Fin 18) (core : Fin 512), s.takesWrite req .core core 0x108 = true → Completes (.fence req core) s fun t =>
      t.coreState core = coreFenced ∧ (∀ c : Fin 16, s.ownerOf core = some c.val → s.coreState core ≠ coreFenced → t.inSet c core = false) ∧ (s.coreState core ≠ coreFenced → (t.core core).tags = [] ∧ (t.core core).xops = [] ∧ (t.core core).pend = [] ∧ (t.core core).clearing = true) ∧ t.on (fenceCause 4) core = true) ∧
  (∀ (req : Fin 18) (core : Fin 512), s.takesWrite req .core core 0x108 = true → Completes (.unfence req core) s fun t =>
      (if s.coreState core = coreFenced ∧ (s.core core).bistPassed = true then t.coreState core = coreIdle ∧ (t.core core).scr = [] ∧ ∀ i : Fin 5, t.on (fenceCause i) core = false
      else t.cores = s.cores ∧ t.coreState core = s.coreState core))

/-- What a link, the time exchange, the Lock, the meters and the power-side events leave unchanged. Every byte of the
HBM, the Basin and the scratchpads, and every register of every core, is as it was. -/
def Obligations.FrameOfLinkAndTimeCommands : Prop := ∀ s : State,
  (∀ (k : Fin 32) (light : BitVec 8) (node : BitVec 12) (slice : BitVec 8) (member : BitVec 3) (plane : Bool) (plan : BitVec 2) (peerLink : BitVec 5), Completes (.linkTrainingDone k light node slice member plane plan peerLink) s fun t =>
      t.hbm = s.hbm ∧ t.basin = s.basin ∧ t.cores = s.cores) ∧
  (∀ (k : Fin 32) (light : BitVec 8), Completes (.linkTrainingTimeout k light) s fun t =>
      t.hbm = s.hbm ∧ t.basin = s.basin ∧ t.cores = s.cores) ∧
  (∀ (k : Fin 32), Completes (.linkTrainingRetry k) s fun t =>
      t.hbm = s.hbm ∧ t.basin = s.basin ∧ t.cores = s.cores) ∧
  (∀ (k : Fin 32) (light : BitVec 8), Completes (.lossOfLight k light) s fun t =>
      t.hbm = s.hbm ∧ t.basin = s.basin ∧ t.cores = s.cores) ∧
  (∀ (k : Fin 32), Completes (.fecUeThreshold k) s fun t =>
      t.hbm = s.hbm ∧ t.basin = s.basin ∧ t.cores = s.cores) ∧
  (∀ (k : Fin 32), Completes (.replayThreshold k) s fun t =>
      t.hbm = s.hbm ∧ t.basin = s.basin ∧ t.cores = s.cores) ∧
  (∀ (k : Fin 32), Completes (.ackProgressTimeout k) s fun t =>
      t.hbm = s.hbm ∧ t.basin = s.basin ∧ t.cores = s.cores) ∧
  (∀ (k : Fin 32), Completes (.retrainDelayExpiry k) s fun t =>
      t.hbm = s.hbm ∧ t.basin = s.basin ∧ t.cores = s.cores) ∧
  (∀ (k : Fin 32) (hdr : Word64) (data : List Byte) (crc : Word64) (ce ue : BitVec 8), Completes (.flitReceive k hdr data crc ce ue) s fun t =>
      t.hbm = s.hbm ∧ t.basin = s.basin ∧ t.cores = s.cores) ∧
  (∀ (k : Fin 32) (node : BitVec 12) (slice : BitVec 8) (member : BitVec 3) (plane : Bool) (plan : BitVec 2) (peerLink : BitVec 5), Completes (.ident k node slice member plane plan peerLink) s fun t =>
      t.hbm = s.hbm ∧ t.basin = s.basin ∧ t.cores = s.cores) ∧
  (∀ (k : Fin 32) (cause : BitVec 4), Completes (.downNotice k cause) s fun t =>
      t.hbm = s.hbm ∧ t.basin = s.basin ∧ t.cores = s.cores) ∧
  (∀ (k : Fin 32), Completes (.retrainRequest k) s fun t =>
      t.hbm = s.hbm ∧ t.basin = s.basin ∧ t.cores = s.cores) ∧
  (∀ (k : Fin 32) (qid : BitVec 16) (slice : BitVec 8) (ranges : List (BitVec 12 × BitVec 12)), Completes (.transitQuery k qid slice ranges) s fun t =>
      t.hbm = s.hbm ∧ t.basin = s.basin ∧ t.cores = s.cores) ∧
  (∀ (k : Fin 32) (qid : BitVec 16) (yes : Bool), Completes (.transitAnswer k qid yes) s fun t =>
      t.hbm = s.hbm ∧ t.basin = s.basin ∧ t.cores = s.cores) ∧
  (∀ (k : Fin 32) (qid : BitVec 16), Completes (.pinRelease k qid) s fun t =>
      t.hbm = s.hbm ∧ t.basin = s.basin ∧ t.cores = s.cores) ∧
  (∀ (p : Packet) (sub2 sub3 : BitVec 4), Completes (.timeReq p sub2 sub3) s fun t =>
      t.hbm = s.hbm ∧ t.basin = s.basin ∧ t.cores = s.cores) ∧
  (∀ (p : Packet) (sub : BitVec 4), Completes (.timeResp p sub) s fun t =>
      t.hbm = s.hbm ∧ t.basin = s.basin ∧ t.cores = s.cores) ∧
  (∀ (sub : BitVec 4), Completes (.timeExchangePeriod sub) s fun t =>
      t.hbm = s.hbm ∧ t.basin = s.basin ∧ t.cores = s.cores) ∧
  (Completes .lockCommit s fun t =>
      t.hbm = s.hbm ∧ t.basin = s.basin ∧ t.cores = s.cores) ∧
  (∀ (ld : Fin 16) (ring : Fin 4), Completes (.irqTimer ld ring) s fun t =>
      t.hbm = s.hbm ∧ t.basin = s.basin ∧ t.cores = s.cores) ∧
  (∀ (ld : Fin 16), Completes (.evqOverflowRecord ld) s fun t =>
      t.hbm = s.hbm ∧ t.basin = s.basin ∧ t.cores = s.cores) ∧
  (∀ (ctx : Fin 16) (sub : BitVec 32) (write : Bool) (n : BitVec 17) (data : List Byte) (ok last : Bool), Completes (.uioCompletion ctx sub write n data ok last) s fun t =>
      t.hbm = s.hbm ∧ t.basin = s.basin ∧ t.cores = s.cores) ∧
  (Completes .gainUpdate s fun t =>
      t.hbm = s.hbm ∧ t.basin = s.basin ∧ t.cores = s.cores) ∧
  (∀ (avg : Nat), Completes (.currentGuardTrip avg) s fun t =>
      t.hbm = s.hbm ∧ t.basin = s.basin ∧ t.cores = s.cores) ∧
  (Completes .currentHoldEnd s fun t =>
      t.hbm = s.hbm ∧ t.basin = s.basin ∧ t.cores = s.cores) ∧
  (∀ (pest matrix : Nat) (issued : List Nat), s.on R.BIST_STATUS.BUSY = false → s.bist.running = [] → Completes (.controlTick pest matrix issued) s fun t =>
      t.hbm = s.hbm ∧ t.basin = s.basin ∧ t.cores = s.cores) ∧
  (Completes .heartbeat s fun t =>
      t.hbm = s.hbm ∧ t.basin = s.basin ∧ t.cores = s.cores) ∧
  (∀ (watts : BitVec 16), Completes (.setAlertCap watts) s fun t =>
      t.hbm = s.hbm ∧ t.basin = s.basin ∧ t.cores = s.cores) ∧
  (∀ (watts : BitVec 16), Completes (.setCap watts) s fun t =>
      t.hbm = s.hbm ∧ t.basin = s.basin ∧ t.cores = s.cores) ∧
  (∀ (watts timeout : BitVec 16), Completes (.setOrphan watts timeout) s fun t =>
      t.hbm = s.hbm ∧ t.basin = s.basin ∧ t.cores = s.cores) ∧
  (Completes .readStatus s fun t =>
      t.hbm = s.hbm ∧ t.basin = s.basin ∧ t.cores = s.cores) ∧
  (Completes .capAlertLAssert s fun t =>
      t.hbm = s.hbm ∧ t.basin = s.basin ∧ t.cores = s.cores) ∧
  (Completes .capAlertLRelease s fun t =>
      t.hbm = s.hbm ∧ t.basin = s.basin ∧ t.cores = s.cores) ∧
  (Completes .coolantInletHigh s fun t =>
      t.hbm = s.hbm ∧ t.basin = s.basin ∧ t.cores = s.cores) ∧
  (Completes .coolantOutletHigh s fun t =>
      t.hbm = s.hbm ∧ t.basin = s.basin ∧ t.cores = s.cores) ∧
  (Completes .coolantFaultEnd s fun t =>
      t.hbm = s.hbm ∧ t.basin = s.basin ∧ t.cores = s.cores) ∧
  (∀ (mv : Nat), Completes (.inputSag mv) s fun t =>
      t.hbm = s.hbm ∧ t.basin = s.basin ∧ t.cores = s.cores) ∧
  (Completes .sagClear s fun t =>
      t.hbm = s.hbm ∧ t.basin = s.basin ∧ t.cores = s.cores) ∧
  (∀ (ctx : Fin 16), Completes (.dutyRequestPost ctx) s fun t =>
      t.hbm = s.hbm ∧ t.basin = s.basin ∧ t.cores = s.cores) ∧
  (Completes .pcsLoopbackFollower s fun t =>
      t.hbm = s.hbm ∧ t.basin = s.basin ∧ t.cores = s.cores) ∧
  (Completes .pcsLoopbackExit s fun t =>
      t.hbm = s.hbm ∧ t.basin = s.basin ∧ t.cores = s.cores) ∧
  (Completes .getVersion s fun t =>
      t.hbm = s.hbm ∧ t.basin = s.basin ∧ t.cores = s.cores) ∧
  (Completes .getCapabilities s fun t =>
      t.hbm = s.hbm ∧ t.basin = s.basin ∧ t.cores = s.cores) ∧
  (Completes .negotiateAlgorithms s fun t =>
      t.hbm = s.hbm ∧ t.basin = s.basin ∧ t.cores = s.cores) ∧
  (Completes .getDigests s fun t =>
      t.hbm = s.hbm ∧ t.basin = s.basin ∧ t.cores = s.cores) ∧
  (∀ (slot : BitVec 3) (offset length : BitVec 16), Completes (.getCertificate slot offset length) s fun t =>
      t.hbm = s.hbm ∧ t.basin = s.basin ∧ t.cores = s.cores) ∧
  (∀ (transcript : List Byte), Completes (.challenge transcript) s fun t =>
      t.hbm = s.hbm ∧ t.basin = s.basin ∧ t.cores = s.cores) ∧
  (∀ (index : BitVec 8) (signed : Bool) (transcript : List Byte), Completes (.getMeasurements index signed transcript) s fun t =>
      t.hbm = s.hbm ∧ t.basin = s.basin ∧ t.cores = s.cores) ∧
  (∀ (d : Fin 8), Completes (.boostGrant d) s fun t =>
      t.hbm = s.hbm ∧ t.basin = s.basin ∧ t.cores = s.cores) ∧
  (∀ (ctx : Fin 16), Completes (.ctxQuiesced ctx) s fun t =>
      t.hbm = s.hbm ∧ t.basin = s.basin ∧ t.cores = s.cores)

/-- What a bundle whose one operation works on registers or on the scratchpad leaves unchanged, whether it retires,
waits or traps. Memory outside the core, every other core, the fabric and the node operations are as they were; a
bundle that stores nothing leaves the scratchpad too. -/
def Obligations.FrameOfRegisterOnlyBundles : Prop := ∀ s : State,
  (∀ (core : Fin 512) (rd rs1 rs2 rs3 : BitVec 5) (w : Bundle), Completes (.add core rd rs1 rs2 rs3 w) s fun t =>
      t.hbm = s.hbm ∧ t.basin = s.basin ∧ t.fabric = s.fabric ∧ t.rack = s.rack ∧ (∀ m : Fin 512, m ≠ core → t.core m = s.core m) ∧ (t.core core).scr = (s.core core).scr) ∧
  (∀ (core : Fin 512) (rd rs1 rs2 rs3 : BitVec 5) (w : Bundle), Completes (.sub core rd rs1 rs2 rs3 w) s fun t =>
      t.hbm = s.hbm ∧ t.basin = s.basin ∧ t.fabric = s.fabric ∧ t.rack = s.rack ∧ (∀ m : Fin 512, m ≠ core → t.core m = s.core m) ∧ (t.core core).scr = (s.core core).scr) ∧
  (∀ (core : Fin 512) (rd rs1 rs2 rs3 : BitVec 5) (w : Bundle), Completes (.mul core rd rs1 rs2 rs3 w) s fun t =>
      t.hbm = s.hbm ∧ t.basin = s.basin ∧ t.fabric = s.fabric ∧ t.rack = s.rack ∧ (∀ m : Fin 512, m ≠ core → t.core m = s.core m) ∧ (t.core core).scr = (s.core core).scr) ∧
  (∀ (core : Fin 512) (rd rs1 rs2 rs3 : BitVec 5) (w : Bundle), Completes (.mulh core rd rs1 rs2 rs3 w) s fun t =>
      t.hbm = s.hbm ∧ t.basin = s.basin ∧ t.fabric = s.fabric ∧ t.rack = s.rack ∧ (∀ m : Fin 512, m ≠ core → t.core m = s.core m) ∧ (t.core core).scr = (s.core core).scr) ∧
  (∀ (core : Fin 512) (rd rs1 rs2 rs3 : BitVec 5) (w : Bundle), Completes (.mulhu core rd rs1 rs2 rs3 w) s fun t =>
      t.hbm = s.hbm ∧ t.basin = s.basin ∧ t.fabric = s.fabric ∧ t.rack = s.rack ∧ (∀ m : Fin 512, m ≠ core → t.core m = s.core m) ∧ (t.core core).scr = (s.core core).scr) ∧
  (∀ (core : Fin 512) (rd rs1 rs2 rs3 : BitVec 5) (w : Bundle), Completes (.div core rd rs1 rs2 rs3 w) s fun t =>
      t.hbm = s.hbm ∧ t.basin = s.basin ∧ t.fabric = s.fabric ∧ t.rack = s.rack ∧ (∀ m : Fin 512, m ≠ core → t.core m = s.core m) ∧ (t.core core).scr = (s.core core).scr) ∧
  (∀ (core : Fin 512) (rd rs1 rs2 rs3 : BitVec 5) (w : Bundle), Completes (.divu core rd rs1 rs2 rs3 w) s fun t =>
      t.hbm = s.hbm ∧ t.basin = s.basin ∧ t.fabric = s.fabric ∧ t.rack = s.rack ∧ (∀ m : Fin 512, m ≠ core → t.core m = s.core m) ∧ (t.core core).scr = (s.core core).scr) ∧
  (∀ (core : Fin 512) (rd rs1 rs2 rs3 : BitVec 5) (w : Bundle), Completes (.rem core rd rs1 rs2 rs3 w) s fun t =>
      t.hbm = s.hbm ∧ t.basin = s.basin ∧ t.fabric = s.fabric ∧ t.rack = s.rack ∧ (∀ m : Fin 512, m ≠ core → t.core m = s.core m) ∧ (t.core core).scr = (s.core core).scr) ∧
  (∀ (core : Fin 512) (rd rs1 rs2 rs3 : BitVec 5) (w : Bundle), Completes (.remu core rd rs1 rs2 rs3 w) s fun t =>
      t.hbm = s.hbm ∧ t.basin = s.basin ∧ t.fabric = s.fabric ∧ t.rack = s.rack ∧ (∀ m : Fin 512, m ≠ core → t.core m = s.core m) ∧ (t.core core).scr = (s.core core).scr) ∧
  (∀ (core : Fin 512) (k : Fin 3) (rd rs1 rs2 rs3 : BitVec 5) (w : Bundle), Completes (.andOrXor core k rd rs1 rs2 rs3 w) s fun t =>
      t.hbm = s.hbm ∧ t.basin = s.basin ∧ t.fabric = s.fabric ∧ t.rack = s.rack ∧ (∀ m : Fin 512, m ≠ core → t.core m = s.core m) ∧ (t.core core).scr = (s.core core).scr) ∧
  (∀ (core : Fin 512) (k : Fin 3) (rd rs1 rs2 rs3 : BitVec 5) (w : Bundle), Completes (.sllSrlSra core k rd rs1 rs2 rs3 w) s fun t =>
      t.hbm = s.hbm ∧ t.basin = s.basin ∧ t.fabric = s.fabric ∧ t.rack = s.rack ∧ (∀ m : Fin 512, m ≠ core → t.core m = s.core m) ∧ (t.core core).scr = (s.core core).scr) ∧
  (∀ (core : Fin 512) (k : Fin 2) (rd rs1 rs2 rs3 : BitVec 5) (w : Bundle), Completes (.sltSltu core k rd rs1 rs2 rs3 w) s fun t =>
      t.hbm = s.hbm ∧ t.basin = s.basin ∧ t.fabric = s.fabric ∧ t.rack = s.rack ∧ (∀ m : Fin 512, m ≠ core → t.core m = s.core m) ∧ (t.core core).scr = (s.core core).scr) ∧
  (∀ (core : Fin 512) (k : Fin 4) (rd rs1 rs2 rs3 : BitVec 5) (w : Bundle), Completes (.minMaxMinuMaxu core k rd rs1 rs2 rs3 w) s fun t =>
      t.hbm = s.hbm ∧ t.basin = s.basin ∧ t.fabric = s.fabric ∧ t.rack = s.rack ∧ (∀ m : Fin 512, m ≠ core → t.core m = s.core m) ∧ (t.core core).scr = (s.core core).scr) ∧
  (∀ (core : Fin 512) (rd rs1 rs2 rs3 : BitVec 5) (w : Bundle), Completes (.sel core rd rs1 rs2 rs3 w) s fun t =>
      t.hbm = s.hbm ∧ t.basin = s.basin ∧ t.fabric = s.fabric ∧ t.rack = s.rack ∧ (∀ m : Fin 512, m ≠ core → t.core m = s.core m) ∧ (t.core core).scr = (s.core core).scr) ∧
  (∀ (core : Fin 512) (rd rs1 : BitVec 5) (imm : BitVec 32) (w : Bundle), Completes (.addi core rd rs1 imm w) s fun t =>
      t.hbm = s.hbm ∧ t.basin = s.basin ∧ t.fabric = s.fabric ∧ t.rack = s.rack ∧ (∀ m : Fin 512, m ≠ core → t.core m = s.core m) ∧ (t.core core).scr = (s.core core).scr) ∧
  (∀ (core : Fin 512) (k : Fin 3) (rd rs1 : BitVec 5) (imm : BitVec 32) (w : Bundle), Completes (.andiOriXori core k rd rs1 imm w) s fun t =>
      t.hbm = s.hbm ∧ t.basin = s.basin ∧ t.fabric = s.fabric ∧ t.rack = s.rack ∧ (∀ m : Fin 512, m ≠ core → t.core m = s.core m) ∧ (t.core core).scr = (s.core core).scr) ∧
  (∀ (core : Fin 512) (k : Fin 3) (rd rs1 : BitVec 5) (imm : BitVec 32) (w : Bundle), Completes (.slliSrliSrai core k rd rs1 imm w) s fun t =>
      t.hbm = s.hbm ∧ t.basin = s.basin ∧ t.fabric = s.fabric ∧ t.rack = s.rack ∧ (∀ m : Fin 512, m ≠ core → t.core m = s.core m) ∧ (t.core core).scr = (s.core core).scr) ∧
  (∀ (core : Fin 512) (rd rs1 : BitVec 5) (imm : BitVec 32) (w : Bundle), Completes (.slti core rd rs1 imm w) s fun t =>
      t.hbm = s.hbm ∧ t.basin = s.basin ∧ t.fabric = s.fabric ∧ t.rack = s.rack ∧ (∀ m : Fin 512, m ≠ core → t.core m = s.core m) ∧ (t.core core).scr = (s.core core).scr) ∧
  (∀ (core : Fin 512) (rd : BitVec 5) (imm : BitVec 48) (w : Bundle), Completes (.li core rd imm w) s fun t =>
      t.hbm = s.hbm ∧ t.basin = s.basin ∧ t.fabric = s.fabric ∧ t.rack = s.rack ∧ (∀ m : Fin 512, m ≠ core → t.core m = s.core m) ∧ (t.core core).scr = (s.core core).scr) ∧
  (∀ (core : Fin 512) (rd : BitVec 5) (imm : BitVec 48) (w : Bundle), Completes (.lih core rd imm w) s fun t =>
      t.hbm = s.hbm ∧ t.basin = s.basin ∧ t.fabric = s.fabric ∧ t.rack = s.rack ∧ (∀ m : Fin 512, m ≠ core → t.core m = s.core m) ∧ (t.core core).scr = (s.core core).scr) ∧
  (∀ (core : Fin 512) (k : Fin 4) (rd rs1 rs2 rs3 : BitVec 5) (w : Bundle), Completes (.faddFsubFmulFdiv core k rd rs1 rs2 rs3 w) s fun t =>
      t.hbm = s.hbm ∧ t.basin = s.basin ∧ t.fabric = s.fabric ∧ t.rack = s.rack ∧ (∀ m : Fin 512, m ≠ core → t.core m = s.core m) ∧ (t.core core).scr = (s.core core).scr) ∧
  (∀ (core : Fin 512) (rd rs1 rs2 rs3 : BitVec 5) (w : Bundle), Completes (.fsqrt core rd rs1 rs2 rs3 w) s fun t =>
      t.hbm = s.hbm ∧ t.basin = s.basin ∧ t.fabric = s.fabric ∧ t.rack = s.rack ∧ (∀ m : Fin 512, m ≠ core → t.core m = s.core m) ∧ (t.core core).scr = (s.core core).scr) ∧
  (∀ (core : Fin 512) (k : Fin 2) (rd rs1 rs2 rs3 : BitVec 5) (w : Bundle), Completes (.fminFmax core k rd rs1 rs2 rs3 w) s fun t =>
      t.hbm = s.hbm ∧ t.basin = s.basin ∧ t.fabric = s.fabric ∧ t.rack = s.rack ∧ (∀ m : Fin 512, m ≠ core → t.core m = s.core m) ∧ (t.core core).scr = (s.core core).scr) ∧
  (∀ (core : Fin 512) (rd rs1 rs2 rs3 : BitVec 5) (w : Bundle), Completes (.fma core rd rs1 rs2 rs3 w) s fun t =>
      t.hbm = s.hbm ∧ t.basin = s.basin ∧ t.fabric = s.fabric ∧ t.rack = s.rack ∧ (∀ m : Fin 512, m ≠ core → t.core m = s.core m) ∧ (t.core core).scr = (s.core core).scr) ∧
  (∀ (core : Fin 512) (rd rs1 rs2 rs3 : BitVec 5) (w : Bundle), Completes (.fcvtIf core rd rs1 rs2 rs3 w) s fun t =>
      t.hbm = s.hbm ∧ t.basin = s.basin ∧ t.fabric = s.fabric ∧ t.rack = s.rack ∧ (∀ m : Fin 512, m ≠ core → t.core m = s.core m) ∧ (t.core core).scr = (s.core core).scr) ∧
  (∀ (core : Fin 512) (rd rs1 rs2 rs3 : BitVec 5) (w : Bundle), Completes (.fcvtFi core rd rs1 rs2 rs3 w) s fun t =>
      t.hbm = s.hbm ∧ t.basin = s.basin ∧ t.fabric = s.fabric ∧ t.rack = s.rack ∧ (∀ m : Fin 512, m ≠ core → t.core m = s.core m) ∧ (t.core core).scr = (s.core core).scr) ∧
  (∀ (core : Fin 512) (k : Fin 3) (rd rs1 rs2 rs3 : BitVec 5) (w : Bundle), Completes (.feqFltFle core k rd rs1 rs2 rs3 w) s fun t =>
      t.hbm = s.hbm ∧ t.basin = s.basin ∧ t.fabric = s.fabric ∧ t.rack = s.rack ∧ (∀ m : Fin 512, m ≠ core → t.core m = s.core m) ∧ (t.core core).scr = (s.core core).scr) ∧
  (∀ (core : Fin 512) (rd : BitVec 5) (imm : BitVec 32) (w : Bundle), Completes (.rdtag core rd imm w) s fun t =>
      t.hbm = s.hbm ∧ t.basin = s.basin ∧ t.fabric = s.fabric ∧ t.rack = s.rack ∧ (∀ m : Fin 512, m ≠ core → t.core m = s.core m) ∧ (t.core core).scr = (s.core core).scr) ∧
  (∀ (core : Fin 512) (rd : BitVec 5) (index : BitVec 8) (w : Bundle), Completes (.rdgauge core rd index w) s fun t =>
      t.hbm = s.hbm ∧ t.basin = s.basin ∧ t.fabric = s.fabric ∧ t.rack = s.rack ∧ (∀ m : Fin 512, m ≠ core → t.core m = s.core m) ∧ (t.core core).scr = (s.core core).scr) ∧
  (∀ (core : Fin 512) (rd : BitVec 5) (w : Bundle), Completes (.rdtick core rd w) s fun t =>
      t.hbm = s.hbm ∧ t.basin = s.basin ∧ t.fabric = s.fabric ∧ t.rack = s.rack ∧ (∀ m : Fin 512, m ≠ core → t.core m = s.core m) ∧ (t.core core).scr = (s.core core).scr) ∧
  (∀ (core : Fin 512) (rd rs1 : BitVec 5) (size : BitVec 2) (sx : Bool) (off : BitVec 32) (w : Bundle), Completes (.lds core rd rs1 size sx off w) s fun t =>
      t.hbm = s.hbm ∧ t.basin = s.basin ∧ t.fabric = s.fabric ∧ t.rack = s.rack ∧ (∀ m : Fin 512, m ≠ core → t.core m = s.core m) ∧ (t.core core).scr = (s.core core).scr) ∧
  (∀ (core : Fin 512) (c : BCond) (rs1 rs2 : BitVec 5) (off : BitVec 14) (w : Bundle), Completes (.beqBneBltBgeBltuBgeu core c rs1 rs2 off w) s fun t =>
      t.hbm = s.hbm ∧ t.basin = s.basin ∧ t.fabric = s.fabric ∧ t.rack = s.rack ∧ (∀ m : Fin 512, m ≠ core → t.core m = s.core m) ∧ (t.core core).scr = (s.core core).scr) ∧
  (∀ (core : Fin 512) (off : BitVec 24) (w : Bundle), Completes (.j core off w) s fun t =>
      t.hbm = s.hbm ∧ t.basin = s.basin ∧ t.fabric = s.fabric ∧ t.rack = s.rack ∧ (∀ m : Fin 512, m ≠ core → t.core m = s.core m) ∧ (t.core core).scr = (s.core core).scr) ∧
  (∀ (core : Fin 512) (off : BitVec 24) (w : Bundle), Completes (.call core off w) s fun t =>
      t.hbm = s.hbm ∧ t.basin = s.basin ∧ t.fabric = s.fabric ∧ t.rack = s.rack ∧ (∀ m : Fin 512, m ≠ core → t.core m = s.core m) ∧ (t.core core).scr = (s.core core).scr) ∧
  (∀ (core : Fin 512) (rs1 : BitVec 5) (w : Bundle), Completes (.jr core rs1 w) s fun t =>
      t.hbm = s.hbm ∧ t.basin = s.basin ∧ t.fabric = s.fabric ∧ t.rack = s.rack ∧ (∀ m : Fin 512, m ≠ core → t.core m = s.core m) ∧ (t.core core).scr = (s.core core).scr) ∧
  (∀ (core : Fin 512) (rs1 : BitVec 5) (w : Bundle), Completes (.callr core rs1 w) s fun t =>
      t.hbm = s.hbm ∧ t.basin = s.basin ∧ t.fabric = s.fabric ∧ t.rack = s.rack ∧ (∀ m : Fin 512, m ≠ core → t.core m = s.core m) ∧ (t.core core).scr = (s.core core).scr) ∧
  (∀ (core : Fin 512) (w : Bundle), Completes (.ret core w) s fun t =>
      t.hbm = s.hbm ∧ t.basin = s.basin ∧ t.fabric = s.fabric ∧ t.rack = s.rack ∧ (∀ m : Fin 512, m ≠ core → t.core m = s.core m) ∧ (t.core core).scr = (s.core core).scr) ∧
  (∀ (core : Fin 512) (lc : BitVec 2) (rs1 : BitVec 5) (len : BitVec 17) (w : Bundle), Completes (.loop core lc rs1 len w) s fun t =>
      t.hbm = s.hbm ∧ t.basin = s.basin ∧ t.fabric = s.fabric ∧ t.rack = s.rack ∧ (∀ m : Fin 512, m ≠ core → t.core m = s.core m) ∧ (t.core core).scr = (s.core core).scr) ∧
  (∀ (core : Fin 512) (lc : BitVec 2) (w : Bundle), Completes (.lend core lc w) s fun t =>
      t.hbm = s.hbm ∧ t.basin = s.basin ∧ t.fabric = s.fabric ∧ t.rack = s.rack ∧ (∀ m : Fin 512, m ≠ core → t.core m = s.core m) ∧ (t.core core).scr = (s.core core).scr) ∧
  (∀ (core : Fin 512) (rs1 : BitVec 5) (w : Bundle), Completes (.wait core rs1 w) s fun t =>
      t.hbm = s.hbm ∧ t.basin = s.basin ∧ t.fabric = s.fabric ∧ t.rack = s.rack ∧ (∀ m : Fin 512, m ≠ core → t.core m = s.core m) ∧ (t.core core).scr = (s.core core).scr) ∧
  (∀ (core : Fin 512) (slot : Fin 2) (k : Fin 3) (f : VFields) (w : Bundle), Completes (.vaddVsubVmul core slot k f w) s fun t =>
      t.hbm = s.hbm ∧ t.basin = s.basin ∧ t.fabric = s.fabric ∧ t.rack = s.rack ∧ (∀ m : Fin 512, m ≠ core → t.core m = s.core m) ∧ (t.core core).scr = (s.core core).scr) ∧
  (∀ (core : Fin 512) (slot : Fin 2) (f : VFields) (w : Bundle), Completes (.vfma core slot f w) s fun t =>
      t.hbm = s.hbm ∧ t.basin = s.basin ∧ t.fabric = s.fabric ∧ t.rack = s.rack ∧ (∀ m : Fin 512, m ≠ core → t.core m = s.core m) ∧ (t.core core).scr = (s.core core).scr) ∧
  (∀ (core : Fin 512) (slot : Fin 2) (k : Fin 2) (f : VFields) (w : Bundle), Completes (.vminVmax core slot k f w) s fun t =>
      t.hbm = s.hbm ∧ t.basin = s.basin ∧ t.fabric = s.fabric ∧ t.rack = s.rack ∧ (∀ m : Fin 512, m ≠ core → t.core m = s.core m) ∧ (t.core core).scr = (s.core core).scr) ∧
  (∀ (core : Fin 512) (slot : Fin 2) (k : Fin 2) (f : VFields) (w : Bundle), Completes (.vabsVneg core slot k f w) s fun t =>
      t.hbm = s.hbm ∧ t.basin = s.basin ∧ t.fabric = s.fabric ∧ t.rack = s.rack ∧ (∀ m : Fin 512, m ≠ core → t.core m = s.core m) ∧ (t.core core).scr = (s.core core).scr) ∧
  (∀ (core : Fin 512) (slot : Fin 2) (k : Fin 3) (f : VFields) (w : Bundle), Completes (.vandVorVxor core slot k f w) s fun t =>
      t.hbm = s.hbm ∧ t.basin = s.basin ∧ t.fabric = s.fabric ∧ t.rack = s.rack ∧ (∀ m : Fin 512, m ≠ core → t.core m = s.core m) ∧ (t.core core).scr = (s.core core).scr) ∧
  (∀ (core : Fin 512) (slot : Fin 2) (k : Fin 3) (f : VFields) (w : Bundle), Completes (.vshlVsraVsrl core slot k f w) s fun t =>
      t.hbm = s.hbm ∧ t.basin = s.basin ∧ t.fabric = s.fabric ∧ t.rack = s.rack ∧ (∀ m : Fin 512, m ≠ core → t.core m = s.core m) ∧ (t.core core).scr = (s.core core).scr) ∧
  (∀ (core : Fin 512) (slot : Fin 2) (f : VFields) (w : Bundle), Completes (.vexp core slot f w) s fun t =>
      t.hbm = s.hbm ∧ t.basin = s.basin ∧ t.fabric = s.fabric ∧ t.rack = s.rack ∧ (∀ m : Fin 512, m ≠ core → t.core m = s.core m) ∧ (t.core core).scr = (s.core core).scr) ∧
  (∀ (core : Fin 512) (slot : Fin 2) (f : VFields) (w : Bundle), Completes (.vrcp core slot f w) s fun t =>
      t.hbm = s.hbm ∧ t.basin = s.basin ∧ t.fabric = s.fabric ∧ t.rack = s.rack ∧ (∀ m : Fin 512, m ≠ core → t.core m = s.core m) ∧ (t.core core).scr = (s.core core).scr) ∧
  (∀ (core : Fin 512) (slot : Fin 2) (f : VFields) (w : Bundle), Completes (.vrsqrt core slot f w) s fun t =>
      t.hbm = s.hbm ∧ t.basin = s.basin ∧ t.fabric = s.fabric ∧ t.rack = s.rack ∧ (∀ m : Fin 512, m ≠ core → t.core m = s.core m) ∧ (t.core core).scr = (s.core core).scr) ∧
  (∀ (core : Fin 512) (slot : Fin 2) (f : VFields) (w : Bundle), Completes (.vcvt core slot f w) s fun t =>
      t.hbm = s.hbm ∧ t.basin = s.basin ∧ t.fabric = s.fabric ∧ t.rack = s.rack ∧ (∀ m : Fin 512, m ≠ core → t.core m = s.core m) ∧ (t.core core).scr = (s.core core).scr) ∧
  (∀ (core : Fin 512) (slot : Fin 2) (f : VFields) (w : Bundle), Completes (.vperm core slot f w) s fun t =>
      t.hbm = s.hbm ∧ t.basin = s.basin ∧ t.fabric = s.fabric ∧ t.rack = s.rack ∧ (∀ m : Fin 512, m ≠ core → t.core m = s.core m) ∧ (t.core core).scr = (s.core core).scr) ∧
  (∀ (core : Fin 512) (slot : Fin 2) (f : VFields) (w : Bundle), Completes (.vbcast core slot f w) s fun t =>
      t.hbm = s.hbm ∧ t.basin = s.basin ∧ t.fabric = s.fabric ∧ t.rack = s.rack ∧ (∀ m : Fin 512, m ≠ core → t.core m = s.core m) ∧ (t.core core).scr = (s.core core).scr) ∧
  (∀ (core : Fin 512) (slot : Fin 2) (f : VFields) (w : Bundle), Completes (.vsel core slot f w) s fun t =>
      t.hbm = s.hbm ∧ t.basin = s.basin ∧ t.fabric = s.fabric ∧ t.rack = s.rack ∧ (∀ m : Fin 512, m ≠ core → t.core m = s.core m) ∧ (t.core core).scr = (s.core core).scr) ∧
  (∀ (core : Fin 512) (slot : Fin 2) (f : VFields) (w : Bundle), Completes (.vmov core slot f w) s fun t =>
      t.hbm = s.hbm ∧ t.basin = s.basin ∧ t.fabric = s.fabric ∧ t.rack = s.rack ∧ (∀ m : Fin 512, m ≠ core → t.core m = s.core m) ∧ (t.core core).scr = (s.core core).scr) ∧
  (∀ (core : Fin 512) (slot : Fin 2) (f : VFields) (w : Bundle), Completes (.vld core slot f w) s fun t =>
      t.hbm = s.hbm ∧ t.basin = s.basin ∧ t.fabric = s.fabric ∧ t.rack = s.rack ∧ (∀ m : Fin 512, m ≠ core → t.core m = s.core m) ∧ (t.core core).scr = (s.core core).scr) ∧
  (∀ (core : Fin 512) (slot : Fin 2) (k : Fin 3) (f : VFields) (w : Bundle), Completes (.vceqVcltVcle core slot k f w) s fun t =>
      t.hbm = s.hbm ∧ t.basin = s.basin ∧ t.fabric = s.fabric ∧ t.rack = s.rack ∧ (∀ m : Fin 512, m ≠ core → t.core m = s.core m) ∧ (t.core core).scr = (s.core core).scr) ∧
  (∀ (core : Fin 512) (slot : Fin 2) (k : Fin 3) (f : VFields) (w : Bundle), Completes (.vrsumVrmaxVrmin core slot k f w) s fun t =>
      t.hbm = s.hbm ∧ t.basin = s.basin ∧ t.fabric = s.fabric ∧ t.rack = s.rack ∧ (∀ m : Fin 512, m ≠ core → t.core m = s.core m) ∧ (t.core core).scr = (s.core core).scr) ∧
  (∀ (core : Fin 512) (slot : Fin 2) (k : Fin 4) (f : VFields) (w : Bundle), Completes (.mandMorMxorMnot core slot k f w) s fun t =>
      t.hbm = s.hbm ∧ t.basin = s.basin ∧ t.fabric = s.fabric ∧ t.rack = s.rack ∧ (∀ m : Fin 512, m ≠ core → t.core m = s.core m) ∧ (t.core core).scr = (s.core core).scr) ∧
  (∀ (core : Fin 512) (rs2 rs1 : BitVec 5) (size : BitVec 2) (off : BitVec 32) (w : Bundle), Completes (.sts core rs2 rs1 size off w) s fun t =>
      t.hbm = s.hbm ∧ t.basin = s.basin ∧ t.fabric = s.fabric ∧ t.rack = s.rack ∧ (∀ m : Fin 512, m ≠ core → t.core m = s.core m) ∧ (t.core core).sregs = (s.core core).sregs ∧ (t.core core).vregs = (s.core core).vregs ∧ (t.core core).mregs = (s.core core).mregs) ∧
  (∀ (core : Fin 512) (slot : Fin 2) (f : VFields) (w : Bundle), Completes (.vst core slot f w) s fun t =>
      t.hbm = s.hbm ∧ t.basin = s.basin ∧ t.fabric = s.fabric ∧ t.rack = s.rack ∧ (∀ m : Fin 512, m ≠ core → t.core m = s.core m) ∧ (t.core core).sregs = (s.core core).sregs ∧ (t.core core).vregs = (s.core core).vregs ∧ (t.core core).mregs = (s.core core).mregs)

/-- What a command on one context's registers leaves unchanged. Another context's tables, every byte of the HBM, the
Basin and the scratchpads, and every register of every core are as they were. -/
def Obligations.FrameOfContextCommands : Prop := ∀ s : State,
  (∀ (req : Fin 18) (ctx : Fin 16) (tier : BitVec 2) (count : BitVec 24), Completes (.alloc req ctx tier count) s fun t =>
      t.hbm = s.hbm ∧ t.basin = s.basin ∧ t.cores = s.cores ∧ ∀ d : Fin 16, d ≠ ctx → t.ctx d = s.ctx d) ∧
  (∀ (req : Fin 18) (ctx : Fin 16) (tier : BitVec 2) (count : BitVec 24), Completes (.mapPooled req ctx tier count) s fun t =>
      t.hbm = s.hbm ∧ t.basin = s.basin ∧ t.cores = s.cores ∧ ∀ d : Fin 16, d ≠ ctx → t.ctx d = s.ctx d) ∧
  (∀ (req : Fin 18) (ctx : Fin 16) (tier : BitVec 2) (count : BitVec 24), Completes (.free req ctx tier count) s fun t =>
      t.hbm = s.hbm ∧ t.basin = s.basin ∧ t.cores = s.cores ∧ ∀ d : Fin 16, d ≠ ctx → t.ctx d = s.ctx d) ∧
  (∀ (req : Fin 18) (ctx : Fin 16) (tier : BitVec 2) (count : BitVec 24), Completes (.perm req ctx tier count) s fun t =>
      t.hbm = s.hbm ∧ t.basin = s.basin ∧ t.cores = s.cores ∧ ∀ d : Fin 16, d ≠ ctx → t.ctx d = s.ctx d) ∧
  (∀ (req : Fin 18) (ctx : Fin 16) (tier : BitVec 2) (count : BitVec 24), Completes (.seqSet req ctx tier count) s fun t =>
      t.hbm = s.hbm ∧ t.basin = s.basin ∧ t.cores = s.cores ∧ ∀ d : Fin 16, d ≠ ctx → t.ctx d = s.ctx d) ∧
  (∀ (req : Fin 18) (ctx : Fin 16) (tier : BitVec 2) (count : BitVec 24), Completes (.seqClear req ctx tier count) s fun t =>
      t.hbm = s.hbm ∧ t.basin = s.basin ∧ t.cores = s.cores ∧ ∀ d : Fin 16, d ≠ ctx → t.ctx d = s.ctx d) ∧
  (∀ (req : Fin 18) (ctx : Fin 16), Completes (.advance req ctx) s fun t =>
      t.hbm = s.hbm ∧ t.basin = s.basin ∧ t.cores = s.cores ∧ ∀ d : Fin 16, d ≠ ctx → t.ctx d = s.ctx d) ∧
  (∀ (req : Fin 18) (ctx : Fin 16), Completes (.tabReload req ctx) s fun t =>
      t.hbm = s.hbm ∧ t.basin = s.basin ∧ t.cores = s.cores ∧ ∀ d : Fin 16, d ≠ ctx → t.ctx d = s.ctx d) ∧
  (∀ (req : Fin 18) (ctx : Fin 16) (bits : BitVec 16), Completes (.bargeDownClr req ctx bits) s fun t =>
      t.hbm = s.hbm ∧ t.basin = s.basin ∧ t.cores = s.cores ∧ ∀ d : Fin 16, d ≠ ctx → t.ctx d = s.ctx d) ∧
  (∀ (req : Fin 18) (ctx : Fin 16), Completes (.msfExpSet req ctx) s fun t =>
      t.hbm = s.hbm ∧ t.basin = s.basin ∧ t.cores = s.cores ∧ ∀ d : Fin 16, d ≠ ctx → t.ctx d = s.ctx d) ∧
  (∀ (req : Fin 18) (ctx : Fin 16), Completes (.msfExpClear req ctx) s fun t =>
      t.hbm = s.hbm ∧ t.basin = s.basin ∧ t.cores = s.cores ∧ ∀ d : Fin 16, d ≠ ctx → t.ctx d = s.ctx d) ∧
  (∀ (req : Fin 18) (ctx : Fin 16), Completes (.fork req ctx) s fun t =>
      t.hbm = s.hbm ∧ t.basin = s.basin ∧ t.cores = s.cores ∧ ∀ d : Fin 16, d ≠ ctx → t.ctx d = s.ctx d) ∧
  (∀ (req : Fin 18) (ctx : Fin 16), Completes (.snap req ctx) s fun t =>
      t.hbm = s.hbm ∧ t.basin = s.basin ∧ t.cores = s.cores ∧ ∀ d : Fin 16, d ≠ ctx → t.ctx d = s.ctx d) ∧
  (∀ (req : Fin 18) (ctx : Fin 16) (layer : Fin 256), Completes (.clear req ctx layer) s fun t =>
      t.hbm = s.hbm ∧ t.basin = s.basin ∧ t.cores = s.cores ∧ ∀ d : Fin 16, d ≠ ctx → t.ctx d = s.ctx d) ∧
  (∀ (req : Fin 18) (ctx : Fin 16) (layer : Fin 256), Completes (.forceWiden req ctx layer) s fun t =>
      t.hbm = s.hbm ∧ t.basin = s.basin ∧ t.cores = s.cores ∧ ∀ d : Fin 16, d ≠ ctx → t.ctx d = s.ctx d)

/-- A write of EVENT_FORCE sets EVENT bits of its page, and does nothing else. -/
def Obligations.EventForceSetsBitsOnly : Prop := ∀ s : State,
  (∀ (req : Fin 18) (page : BitVec 13) (b : BitVec 6) (p : Page) (i : Nat), pageAt (pageAddr page) = some (p, i) → s.takesHeader req p i 0x018 = true → Completes (.eventForce req page b) s fun t =>
      t = s.put (hdrEvent p) i (s.fld (hdrEvent p) i ||| b.toNat))

/-- MX_STF at the head of a core's matrix queue writes the 64-byte flags record, field by field, and with CLR zeroes
the sticky flags. The record shows every flag that the commands ahead of it have set, as each is set before the next
command becomes the head. Row r, column n of the invalid bits stands at bit 16r + n. -/
def Obligations.FlagsRecord : Prop := ∀ s : State,
  (∀ (core : Fin 512) (dst : BitVec 14) (clr : Bool), s.mxHead core = some (.stf dst clr) → dst.toNat < 0x3000 → Completes (.mxStf core []) s fun t =>
      (∀ i : Fin 8, ((tget 0#8 (t.core core).scr (64 * dst.toNat)).getLsbD i) = bit (s.core core).engine.flags i) ∧
      (∀ i : Fin 3, tget 0#8 (t.core core).scr (64 * dst.toNat + 1 + i) = 0#8) ∧
      field (ofLe ((t.core core).scrRead (64 * dst.toNat + 4) 4)) 0 2 = field (s.core core).engine.mode 0 2 ∧
      field (ofLe ((t.core core).scrRead (64 * dst.toNat + 4) 4)) 2 8 = field (s.core core).engine.bp 0 8 ∧
      field (ofLe ((t.core core).scrRead (64 * dst.toNat + 4) 4)) 10 2 = field (s.core core).engine.afmt 0 2 ∧
      field (ofLe ((t.core core).scrRead (64 * dst.toNat + 4) 4)) 12 20 = 0 ∧
      (∀ i : Fin 24, tget 0#8 (t.core core).scr (64 * dst.toNat + 8 + i) = 0#8) ∧
      (∀ r n : Fin 16, (tget 0#8 (t.core core).scr (64 * dst.toNat + 32 + (16 * r + n) / 8)).getLsbD ((16 * r + n) % 8) =
      (bit (s.core core).engine.bad (16 * r + n) && (decide ((s.core core).engine.mode ≠ 2) || decide (r.val < 8)))) ∧
      (t.core core).engine.flags = if clr = true then 0 else (s.core core).engine.flags)

/-- A SEQ_SET whose range reaches outside the window or overlaps another valid descriptor is refused at apply, and
every descriptor stays as it was. The edit stands alone in its queue, and a pending advance applies it; a host edit's
refusal is counted and raised. -/
def Obligations.SequenceRangeRefusals : Prop := ∀ s : State,
  (∀ (ctx : Fin 16) (ed : Edit), s.on R.XLAT_STATUS.ADV_PENDING ctx = true → s.noneRuns ctx = true → s.epochBlocked ctx = false → (s.ctx ctx).queue = [ed] → ed.op = 5 → ed.src = 0 → (ed.desc.base < s.addr R.XLAT_VA_LO.ADDR ctx ∨ s.addr R.XLAT_VA_HI.ADDR ctx < ed.desc.base + ed.desc.span ∨ ((s.ctx ctx).descs.any fun o => decide (o.1 ≠ field ed.arg0 0 10 ∧ o.2.base < ed.desc.base + ed.desc.span ∧ ed.desc.base < o.2.base + o.2.span)) = true) → Completes (.advanceApply ctx) s fun t =>
      (t.ctx ctx).descs = (s.ctx ctx).descs ∧ (t.ctx ctx).queue = [] ∧
      t.fld R.XLAT_UQ_REFUSED.COUNT ctx = (s.fld R.XLAT_UQ_REFUSED.COUNT ctx + 1) % 2 ^ 32)

/-- What a write or a read of any register of any page does by the register's access types, its lock and its reset
domain. A whole write sets a plain RW field to a legal encoding, and records and drops a reserved one (the access
type RW of R3, and R5); a barred or partial write changes nothing but the error log; a page in reset reads its reset
values and takes no write; a reserved offset reads 0 and takes no write. -/
def Obligations.RegisterAccessRules : Prop := ∀ s : State,
  (∀ (req : Fin 18) (addr : BitVec 25) (v : Word32) (far : List Byte) (e : Ecc) (a : Nat) (p : Page) (i : Nat) (r : RegRef), windowAddr req addr.toNat = some a → s.regReached req a = true → pageAt a = some (p, i) → regAt p i (a % 0x1000 / 4 * 4) = some r → s.regInReset p i (a % 0x1000 / 4 * 4) = false → s.writeBarred p i r.reg req = true → Completes (.registerWrite req addr v 15 far e) s fun t =>
      t = s.errlog p i 2 r.off 0 (reqDetail req)) ∧
  (∀ (req : Fin 18) (addr : BitVec 25) (v : Word32) (far : List Byte) (e : Ecc) (be : BitVec 4) (a : Nat) (p : Page) (i : Nat) (r : RegRef), windowAddr req addr.toNat = some a → s.regReached req a = true → pageAt a = some (p, i) → regAt p i (a % 0x1000 / 4 * 4) = some r → be ≠ 15#4 → s.regInReset p i (a % 0x1000 / 4 * 4) = false → Completes (.registerWrite req addr v be far e) s fun t =>
      t = s.errlog p i 2 r.off 0 (reqDetail req)) ∧
  (∀ (req : Fin 18) (addr : BitVec 25) (v : Word32) (far : List Byte) (e : Ecc) (be : BitVec 4) (a : Nat) (p : Page) (i : Nat) (r : RegRef), windowAddr req addr.toNat = some a → s.regReached req a = true → pageAt a = some (p, i) → regAt p i (a % 0x1000 / 4 * 4) = some r → s.regInReset p i (a % 0x1000 / 4 * 4) = true → Completes (.registerWrite req addr v be far e) s fun t =>
      t = s) ∧
  (∀ (req : Fin 18) (addr : BitVec 25) (a : Nat) (p : Page) (i : Nat) (r : RegRef), windowAddr req addr.toNat = some a → s.regReached req a = true → pageAt a = some (p, i) → regAt p i (a % 0x1000 / 4 * 4) = some r → s.regInReset p i (a % 0x1000 / 4 * 4) = true → Completes (.rcRegisterRead req addr) s fun t =>
      t = s.emit (.regData req a (BitVec.ofNat 32 (r.half r.resetWord)))) ∧
  (∀ (req : Fin 18) (addr : BitVec 25) (a : Nat) (p : Page) (i : Nat), windowAddr req addr.toNat = some a → s.regReached req a = true → pageAt a = some (p, i) → 0x100 ≤ a % 0x1000 → regAt p i (a % 0x1000 / 4 * 4) = none → Completes (.rcRegisterRead req addr) s fun t =>
      t = s.emit (.regData req a 0#32)) ∧
  (∀ (req : Fin 18) (addr : BitVec 25) (v : Word32) (far : List Byte) (e : Ecc) (a : Nat) (p : Page) (i : Nat), windowAddr req addr.toNat = some a → s.regReached req a = true → pageAt a = some (p, i) → 0x100 ≤ a % 0x1000 → regAt p i (a % 0x1000 / 4 * 4) = none → Completes (.registerWrite req addr v 15 far e) s fun t =>
      t = s) ∧
  (∀ (req : Fin 18) (addr : BitVec 25) (v : Word32) (far : List Byte) (e : Ecc) (a : Nat) (p : Page) (i : Nat) (r : RegRef), windowAddr req addr.toNat = some a → s.regReached req a = true → pageAt a = some (p, i) → regAt p i (a % 0x1000 / 4 * 4) = some r → s.regInReset p i (a % 0x1000 / 4 * 4) = false → s.writeBarred p i r.reg req = false → r.reg.b64 = false → r.reg.view = false → (([.weir, .therm, .mx, .scr, .basin, .route, .sluice, .rake, .barge, .attn, .mani, .msg] : List Page).contains p) = true → (r.reg.flds.all fun f => decide (f.acc ≠ .wo)) = true → Completes (.registerWrite req addr v 15 far e) s fun t =>
      (∀ f ∈ r.reg.flds, f.acc = .rw → t.fld (f.fd p r.reg) i r.j = if encodingOk f.ok (field v.toNat f.lo f.width) then
      field v.toNat f.lo f.width else s.fld (f.fd p r.reg) i r.j) ∧
      (∀ f ∈ r.reg.flds, f.acc = .ro → t.fld (f.fd p r.reg) i r.j = s.fld (f.fd p r.reg) i r.j) ∧
      (∀ f ∈ r.reg.flds, f.acc = .w1c → t.fld (f.fd p r.reg) i r.j = bitMap f.width fun b => bit (s.fld (f.fd p r.reg) i r.j) b && !bit v.toNat (f.lo + b)) ∧
      ((∃ f ∈ r.reg.flds, f.acc = .rw ∧ encodingOk f.ok (field v.toNat f.lo f.width) = false) → t.on (hdrErrValid p) i = true))

/-- Every slot of a bundle reads the registers as they stood before the bundle, whatever the other slots write. A
branch beside an addition that writes the branch's operand compares the old value, and two vector moves exchange two
registers in one bundle. -/
def Obligations.BundleSlotsReadOldState : Prop := ∀ s : State,
  (∀ (core : Fin 512) (rd rs1 rs2 x y : BitVec 5) (off : BitVec 14) (e : Surround), s.takesBundle core (withS { bareBundle e with b := .bc .eq x y off } (.r .add rd rs1 rs2 0#5)) = true → Completes (.add core rd rs1 rs2 0#5 { bareBundle e with b := .bc .eq x y off }) s fun t =>
      (s.core core).getsS (t.core core) rd ((s.core core).s rs1 + (s.core core).s rs2) ∧
      (t.core core).pc = (if (s.core core).s x = (s.core core).s y then (s.core core).pc + BitVec.ofInt 48 (off.toInt * 64) else (s.core core).pc + 64#48)) ∧
  (∀ (core : Fin 512) (a b : BitVec 5) (e : Surround), s.takesBundle core (withV { bareBundle e with v1 := .op .vmov ⟨b, a, 0#5, 0#5, 0#3, false, 2#3, 0#3, false, false, 0#32⟩ } 0 .vmov ⟨a, b, 0#5, 0#5, 0#3, false, 2#3, 0#3, false, false, 0#32⟩) = true → a ≠ b → Completes (.vmov core 0 ⟨a, b, 0#5, 0#5, 0#3, false, 2#3, 0#3, false, false, 0#32⟩ { bareBundle e with v1 := .op .vmov ⟨b, a, 0#5, 0#5, 0#3, false, 2#3, 0#3, false, false, 0#32⟩ }) s fun t =>
      (t.core core).v a = (s.core core).v b ∧ (t.core core).v b = (s.core core).v a)

/-- A step runs the command at the front of the queue on the state with the queue's rest, and on an empty queue
passes one TICK. The TICK on an empty queue is the model's choice (log entry 7): TICK counts while the root PLL is
locked, and each running core passes over one NOP bundle. -/
def Obligations.StepTakesTheFrontCommand : Prop :=
(∀ (s : State) (c : Instr) (rest : List Instr), step { s with pending := c :: rest } = exec c { s with pending := rest }) ∧
  ∀ s : State, step { s with pending := [] } = .next (State.idle { s with pending := [] }) ∧
    State.idleTick s = if s.on R.CLK_STATUS.ROOT_LOCK = true then { s with tick := (s.tick + 1) % 2 ^ 64 } else s

/-- Every command completes in every state: none faults and none is refused. The spec gives each command of the table
an effect; where it gives a value no rule, the value is free. -/
def Obligations.EveryCommandCompletes : Prop :=
∀ (c : Instr) (s : State), ∃ t, exec c s = .next t

/-- After reset every register field of every page holds its reset value, no command waits, every memory is empty,
and the module is unpowered. That memories list nothing, so that an unwritten byte reads 0, and that the state
without a Reset column is empty or zero is the model's choice (log entry 70). -/
def Obligations.ResetState : Prop :=
(∀ (p : Page), ∀ r ∈ pageRegs p, ∀ f ∈ r.flds, ∀ i j : Nat, State.reset.fld (f.fd p r) i j = f.rst) ∧
  State.reset.pending = [] ∧ State.reset.memoryForm ∧ State.reset.hbm = [] ∧ State.reset.basin = [] ∧
  State.reset.board.mgmtUp = false ∧ State.reset.board.mainOn = false ∧ State.reset.tick = 0

/-- Every step keeps HBM, the Basin slices and every scratchpad in their canonical form. Addresses strictly rise and
no listed byte equals what an unlisted address reads as, whatever command stands at the front of the queue, so that
memories that read alike are equal data. -/
def Obligations.EveryStepKeepsTheMemoryForm : Prop :=
∀ s t : State, s.memoryForm → step s = .next t → t.memoryForm

/-- Decoding the 512 bits of any bundle without a reserved encoding gives that bundle back, operation by operation
and operand by operand. -/
def Obligations.BundleEncodingRoundTrip : Prop :=
∀ w : Bundle, bundleLegal w = true → decodeBundle (encodeBundle w) w.env = w

/-- A few slot words written out from the spec's encodings decode to the operations they stand for. ADD s3, s4, s5;
ADDI s1, s2, -1; LDS of 8 bytes; BNE with offset -2; HALT; VADD of fp32 under m1; MX_STF with CLR; X_SCOPY of one
64-byte unit; a reserved S opcode. -/
def Obligations.BundleWords : Prop :=
decodeS 0x0000000000148301#64 = .r .add 3#5 4#5 5#5 0#5 ∧
  decodeS 0x0003FFFFFFFC4118#64 = .i .addi 1#5 2#5 0xFFFFFFFF#32 ∧
  decodeS 0x00000000080CE738#64 = .lds 7#5 7#5 3#2 false 0x40#32 ∧
  decodeB 0xFFF84302#32 = .bc .ne 3#5 2#5 0x3FFE#14 ∧
  decodeB 0x00000019#32 = .halt 0#16 ∧
  decodeV 0x0000000000000000100C4101#96 = .op .vadd ⟨1#5, 2#5, 3#5, 0#5, 1#3, false, 0#3, 0#3, false, false, 0#32⟩ ∧
  decodeM 0x00000000000000000000000000400115#128 = .stf 1#14 true ∧
  decodeX 0x000000000000040020004131#96 = .scopy 1#6 1#14 2#14 1#14 ∧
  decodeS 0x00000000000000FE#64 = .illegal
end

