-- ==== Sys2Proof/Laws/Tab.lean ====
section
/-! SUPPORT. Laws/Tab.lean: what a sparse table reads after a write, and that every table operation keeps the canonical
form. -/
namespace Sys2Proof.Machine

variable {α : Type} (d : α)

@[simp] theorem tget_nil (k : Nat) : tget d [] k = d := rfl

theorem tget_cons (j : Nat) (w : α) (t : Table α) (k : Nat) :
    tget d ((j, w) :: t) k = if k < j then d else if k = j then w else tget d t k := rfl

/-- Entries at or below `k` do not change what a key above `k` reads. -/
theorem tget_dropWhile (t : Table α) {k k' : Nat} (h : k < k') :
    tget d (t.dropWhile fun e => decide (e.1 ≤ k)) k' = tget d t k' := by
  induction t with
  | nil => rfl
  | cons e t ih =>
    obtain ⟨j, w⟩ := e
    by_cases hj : j ≤ k
    · rw [List.dropWhile_cons_of_pos (by simpa using hj), ih, tget_cons, if_neg (by omega), if_neg (by omega)]
    · rw [List.dropWhile_cons_of_neg (by simpa using hj)]

/-- With the entries at or below `k` dropped, a key at or below `k` reads the default. -/
theorem tget_dropWhile_le (t : Table α) {k k' : Nat} (h : k' ≤ k) :
    tget d (t.dropWhile fun e => decide (e.1 ≤ k)) k' = d := by
  induction t with
  | nil => rfl
  | cons e t ih =>
    obtain ⟨j, w⟩ := e
    by_cases hj : j ≤ k
    · rw [List.dropWhile_cons_of_pos (by simpa using hj), ih]
    · rw [List.dropWhile_cons_of_neg (by simpa using hj), tget_cons, if_pos (by omega)]

variable [DecidableEq α]

/-- Reading a key just written. -/
@[simp] theorem tget_tset_self (t : Table α) (k : Nat) (v : α) : tget d (tset d t k v) k = v := by
  induction t with
  | nil => by_cases h : v = d <;> simp [tset, h, tget_cons]
  | cons e t ih =>
    obtain ⟨j, w⟩ := e
    unfold tset
    split
    · split
      · simp [tget_cons, *]
      · simp [tget_cons]
    · split
      · split
        · rename_i h; subst h; exact tget_dropWhile_le v t (Nat.le_refl k)
        · simp [tget_cons]
      · simp [tget_cons, *]

/-- A write leaves every other key alone, whatever default either side takes. -/
theorem tget_tset_ne (d' : α) (t : Table α) {k k' : Nat} (v : α) (h : k' ≠ k) : tget d' (tset d t k v) k' = tget d' t k' := by
  induction t with
  | nil =>
    by_cases hv : v = d
    · simp [tset, hv]
    · simp only [tset, if_neg hv, tget_cons, tget_nil, if_neg h]; split <;> rfl
  | cons e t ih =>
    obtain ⟨j, w⟩ := e
    unfold tset
    split
    · split
      · rfl
      · rename_i hk hv
        rw [tget_cons, if_neg h]
        split
        · rw [tget_cons, if_pos (by omega)]
        · rfl
    · split
      · rename_i hk hj
        subst hj
        split
        · by_cases hlt : k' < k
          · rw [tget_dropWhile_le d' t (by omega), tget_cons, if_pos hlt]
          · rw [tget_dropWhile d' t (by omega), tget_cons, if_neg hlt, if_neg h]
        · rw [tget_cons, tget_cons, if_neg h, if_neg h]
      · rw [tget_cons, tget_cons, ih]

/-- What every key reads after one write. -/
theorem tget_tset (t : Table α) (k k' : Nat) (v : α) :
    tget d (tset d t k v) k' = if k' = k then v else tget d t k' := by
  split
  · subst_vars; simp
  · exact tget_tset_ne d d t v ‹_›

/-- A canonical table whose keys rise from `lo` also rises from anything lower. -/
theorem tableWf_mono {lo lo' : Nat} (t : Table α) (h : lo' ≤ lo) (hw : tableWf d lo t = true) : tableWf d lo' t = true := by
  cases t with
  | nil => rfl
  | cons e t =>
    obtain ⟨j, w⟩ := e
    simp only [tableWf, Bool.and_eq_true, decide_eq_true_eq, Bool.not_eq_true', decide_eq_false_iff_not] at hw ⊢
    exact ⟨⟨by omega, hw.1.2⟩, hw.2⟩

theorem dropWhile_of_tableWf {lo k : Nat} (t : Table α) (h : k < lo) (hw : tableWf d lo t = true) :
    (t.dropWhile fun e => decide (e.1 ≤ k)) = t := by
  cases t with
  | nil => rfl
  | cons e t =>
    obtain ⟨j, w⟩ := e
    simp only [tableWf, Bool.and_eq_true, decide_eq_true_eq, Bool.not_eq_true', decide_eq_false_iff_not] at hw
    exact List.dropWhile_cons_of_neg (by simp; omega)

/-- A write at or above the lowest key keeps the canonical form. -/
theorem tableWf_tset {lo k : Nat} (t : Table α) (v : α) (hk : lo ≤ k) (hw : tableWf d lo t = true) :
    tableWf d lo (tset d t k v) = true := by
  induction t generalizing lo with
  | nil =>
    by_cases hv : v = d <;> simp [tset, tableWf, hv, hk]
  | cons e t ih =>
    obtain ⟨j, w⟩ := e
    have hw' := hw
    simp only [tableWf, Bool.and_eq_true, decide_eq_true_eq, Bool.not_eq_true', decide_eq_false_iff_not] at hw
    obtain ⟨⟨hj, hwd⟩, ht⟩ := hw
    unfold tset
    split
    · split
      · exact hw'
      · simp only [tableWf, Bool.and_eq_true, decide_eq_true_eq, Bool.not_eq_true', decide_eq_false_iff_not]
        exact ⟨⟨hk, ‹_›⟩, ⟨by omega, hwd⟩, ht⟩
    · split
      · subst_vars
        split
        · rw [dropWhile_of_tableWf d t (Nat.lt_succ_self _) ht]
          exact tableWf_mono d t (by omega) ht
        · simp only [tableWf, Bool.and_eq_true, decide_eq_true_eq, Bool.not_eq_true', decide_eq_false_iff_not]
          exact ⟨⟨hk, ‹_›⟩, ht⟩
      · simp only [tableWf, Bool.and_eq_true, decide_eq_true_eq, Bool.not_eq_true', decide_eq_false_iff_not]
        exact ⟨⟨hj, hwd⟩, ih (by omega) ht⟩

/-- Writing consecutive entries keeps the canonical form. -/
theorem tableWf_tsetAll (t : Table α) (k : Nat) (vs : List α) (hw : tableWf d 0 t = true) :
    tableWf d 0 (tsetAll d t k vs) = true := by
  induction vs generalizing t k with
  | nil => exact hw
  | cons v vs ih => exact ih _ _ (tableWf_tset d t v (Nat.zero_le k) hw)

/-- Leaving entries out keeps the canonical form. -/
theorem tableWf_filter {lo : Nat} (t : Table α) (p : Nat × α → Bool) (hw : tableWf d lo t = true) :
    tableWf d lo (t.filter p) = true := by
  induction t generalizing lo with
  | nil => rfl
  | cons e t ih =>
    obtain ⟨j, w⟩ := e
    simp only [tableWf, Bool.and_eq_true, decide_eq_true_eq, Bool.not_eq_true', decide_eq_false_iff_not] at hw
    rw [List.filter_cons]
    split
    · simp only [tableWf, Bool.and_eq_true, decide_eq_true_eq, Bool.not_eq_true', decide_eq_false_iff_not]
      exact ⟨hw.1, ih hw.2⟩
    · exact tableWf_mono d _ (by omega) (ih hw.2)

theorem tableWf_tclear (t : Table α) (k n : Nat) (hw : tableWf d 0 t = true) : tableWf d 0 (tclear t k n) = true :=
  tableWf_filter d t _ hw

/-- Consecutive entries read back as they were written. -/
theorem tgetAll_tsetAll (t : Table α) (k : Nat) (vs : List α) : tgetAll d (tsetAll d t k vs) k vs.length = vs := by
  suffices h : ∀ (vs : List α) (t : Table α) (k : Nat),
      (∀ j, j < k → tget d (tsetAll d t k vs) j = tget d t j) ∧ tgetAll d (tsetAll d t k vs) k vs.length = vs from (h vs t k).2
  intro vs
  induction vs with
  | nil => intro t k; exact ⟨fun _ _ => rfl, rfl⟩
  | cons v vs ih =>
    intro t k
    obtain ⟨h1, h2⟩ := ih (tset d t k v) (k + 1)
    constructor
    · intro j hj
      rw [tsetAll, h1 j (by omega), tget_tset_ne d d t v (by omega)]
    · rw [List.length_cons, tgetAll, tsetAll, h2, h1 k (by omega), tget_tset_self]

end Sys2Proof.Machine
end

