-- ==== Sys2Proof/Laws/State.lean ====
section
/-! SUPPORT. Laws/State.lean: what each field of the state reads after each primitive update, and the frame of the shared
operations over registers, error logs and events. -/
namespace Sys2Proof.Machine

/-! ### Normal forms: every register update is a `setFld`, every context update a `setCtx`, every core update a `setCore` -/

@[simp] theorem put_eq (s : State) (f : Fd) (i v : Nat) : s.put f i v = s.setFld f i 0 v := rfl
@[simp] theorem bump_eq (s : State) (f : Fd) (i n : Nat) : s.bump f i n = s.setFld f i 0 (s.fld f i + n) := rfl
@[simp] theorem bumpAt_eq (s : State) (f : Fd) (i j n : Nat) : s.bumpAt f i j n = s.setFld f i j (s.fld f i j + n) := rfl
@[simp] theorem modCtx_eq (s : State) (c : Nat) (f : Ctx → Ctx) : s.modCtx c f = s.setCtx c (f (s.ctx c)) := rfl
@[simp] theorem modCore_eq (s : State) (n : Nat) (f : Core → Core) : s.modCore n f = s.setCore n (f (s.core n)) := rfl
@[simp] theorem setCoreState_eq (s : State) (n v : Nat) : s.setCoreState n v = s.setFld R.CORE_STATE.STATE n 0 v := rfl
@[simp] theorem coreState_eq (s : State) (n : Nat) : s.coreState n = s.fld R.CORE_STATE.STATE n 0 := rfl
@[simp] theorem on_eq (s : State) (f : Fd) (i j : Nat) : s.on f i j = decide (s.fld f i j ≠ 0) := rfl

/-! ### One lemma per field per update -/

@[simp] theorem setFld_tick (s : State) (f : Fd) (i j v : Nat) : (s.setFld f i j v).tick = s.tick := rfl
@[simp] theorem setFld_errSeq (s : State) (f : Fd) (i j v : Nat) : (s.setFld f i j v).errSeq = s.errSeq := rfl
@[simp] theorem setFld_errLatch (s : State) (f : Fd) (i j v : Nat) : (s.setFld f i j v).errLatch = s.errLatch := rfl
@[simp] theorem setFld_held (s : State) (f : Fd) (i j v : Nat) : (s.setFld f i j v).held = s.held := rfl
@[simp] theorem setFld_latch (s : State) (f : Fd) (i j v : Nat) : (s.setFld f i j v).latch = s.latch := rfl
@[simp] theorem setFld_board (s : State) (f : Fd) (i j v : Nat) : (s.setFld f i j v).board = s.board := rfl
@[simp] theorem setFld_power (s : State) (f : Fd) (i j v : Nat) : (s.setFld f i j v).power = s.power := rfl
@[simp] theorem setFld_resets (s : State) (f : Fd) (i j v : Nat) : (s.setFld f i j v).resets = s.resets := rfl
@[simp] theorem setFld_wharf (s : State) (f : Fd) (i j v : Nat) : (s.setFld f i j v).wharf = s.wharf := rfl
@[simp] theorem setFld_cores (s : State) (f : Fd) (i j v : Nat) : (s.setFld f i j v).cores = s.cores := rfl
@[simp] theorem setFld_ctxs (s : State) (f : Fd) (i j v : Nat) : (s.setFld f i j v).ctxs = s.ctxs := rfl
@[simp] theorem setFld_hbm (s : State) (f : Fd) (i j v : Nat) : (s.setFld f i j v).hbm = s.hbm := rfl
@[simp] theorem setFld_basin (s : State) (f : Fd) (i j v : Nat) : (s.setFld f i j v).basin = s.basin := rfl
@[simp] theorem setFld_hbmUse (s : State) (f : Fd) (i j v : Nat) : (s.setFld f i j v).hbmUse = s.hbmUse := rfl
@[simp] theorem setFld_basinUse (s : State) (f : Fd) (i j v : Nat) : (s.setFld f i j v).basinUse = s.basinUse := rfl
@[simp] theorem setFld_refs (s : State) (f : Fd) (i j v : Nat) : (s.setFld f i j v).refs = s.refs := rfl
@[simp] theorem setFld_dieTlb (s : State) (f : Fd) (i j v : Nat) : (s.setFld f i j v).dieTlb = s.dieTlb := rfl
@[simp] theorem setFld_walks (s : State) (f : Fd) (i j v : Nat) : (s.setFld f i j v).walks = s.walks := rfl
@[simp] theorem setFld_assayUnit (s : State) (f : Fd) (i j v : Nat) : (s.setFld f i j v).assayUnit = s.assayUnit := rfl
@[simp] theorem setFld_assayPtr (s : State) (f : Fd) (i j v : Nat) : (s.setFld f i j v).assayPtr = s.assayPtr := rfl
@[simp] theorem setFld_xtalPtr (s : State) (f : Fd) (i j v : Nat) : (s.setFld f i j v).xtalPtr = s.xtalPtr := rfl
@[simp] theorem setFld_xtalVisit (s : State) (f : Fd) (i j v : Nat) : (s.setFld f i j v).xtalVisit = s.xtalVisit := rfl
@[simp] theorem setFld_xtalDeficit (s : State) (f : Fd) (i j v : Nat) : (s.setFld f i j v).xtalDeficit = s.xtalDeficit := rfl
@[simp] theorem setFld_walkPtr (s : State) (f : Fd) (i j v : Nat) : (s.setFld f i j v).walkPtr = s.walkPtr := rfl
@[simp] theorem setFld_basinBad (s : State) (f : Fd) (i j v : Nat) : (s.setFld f i j v).basinBad = s.basinBad := rfl
@[simp] theorem setFld_hbmCe (s : State) (f : Fd) (i j v : Nat) : (s.setFld f i j v).hbmCe = s.hbmCe := rfl
@[simp] theorem setFld_fabric (s : State) (f : Fd) (i j v : Nat) : (s.setFld f i j v).fabric = s.fabric := rfl
@[simp] theorem setFld_rack (s : State) (f : Fd) (i j v : Nat) : (s.setFld f i j v).rack = s.rack := rfl
@[simp] theorem setFld_weir (s : State) (f : Fd) (i j v : Nat) : (s.setFld f i j v).weir = s.weir := rfl
@[simp] theorem setFld_sec (s : State) (f : Fd) (i j v : Nat) : (s.setFld f i j v).sec = s.sec := rfl
@[simp] theorem setFld_bist (s : State) (f : Fd) (i j v : Nat) : (s.setFld f i j v).bist = s.bist := rfl
@[simp] theorem setFld_haltBegun (s : State) (f : Fd) (i j v : Nat) : (s.setFld f i j v).haltBegun = s.haltBegun := rfl
@[simp] theorem setFld_told (s : State) (f : Fd) (i j v : Nat) : (s.setFld f i j v).told = s.told := rfl
@[simp] theorem setFld_pending (s : State) (f : Fd) (i j v : Nat) : (s.setFld f i j v).pending = s.pending := rfl
@[simp] theorem setFld_out (s : State) (f : Fd) (i j v : Nat) : (s.setFld f i j v).out = s.out := rfl
@[simp] theorem setFld_free (s : State) (f : Fd) (i j v : Nat) : (s.setFld f i j v).free = s.free := rfl

@[simp] theorem emit_tick (s : State) (o : Out) : (s.emit o).tick = s.tick := rfl
@[simp] theorem emit_regs (s : State) (o : Out) : (s.emit o).regs = s.regs := rfl
@[simp] theorem emit_errSeq (s : State) (o : Out) : (s.emit o).errSeq = s.errSeq := rfl
@[simp] theorem emit_errLatch (s : State) (o : Out) : (s.emit o).errLatch = s.errLatch := rfl
@[simp] theorem emit_held (s : State) (o : Out) : (s.emit o).held = s.held := rfl
@[simp] theorem emit_latch (s : State) (o : Out) : (s.emit o).latch = s.latch := rfl
@[simp] theorem emit_board (s : State) (o : Out) : (s.emit o).board = s.board := rfl
@[simp] theorem emit_power (s : State) (o : Out) : (s.emit o).power = s.power := rfl
@[simp] theorem emit_resets (s : State) (o : Out) : (s.emit o).resets = s.resets := rfl
@[simp] theorem emit_wharf (s : State) (o : Out) : (s.emit o).wharf = s.wharf := rfl
@[simp] theorem emit_cores (s : State) (o : Out) : (s.emit o).cores = s.cores := rfl
@[simp] theorem emit_ctxs (s : State) (o : Out) : (s.emit o).ctxs = s.ctxs := rfl
@[simp] theorem emit_hbm (s : State) (o : Out) : (s.emit o).hbm = s.hbm := rfl
@[simp] theorem emit_basin (s : State) (o : Out) : (s.emit o).basin = s.basin := rfl
@[simp] theorem emit_hbmUse (s : State) (o : Out) : (s.emit o).hbmUse = s.hbmUse := rfl
@[simp] theorem emit_basinUse (s : State) (o : Out) : (s.emit o).basinUse = s.basinUse := rfl
@[simp] theorem emit_refs (s : State) (o : Out) : (s.emit o).refs = s.refs := rfl
@[simp] theorem emit_dieTlb (s : State) (o : Out) : (s.emit o).dieTlb = s.dieTlb := rfl
@[simp] theorem emit_walks (s : State) (o : Out) : (s.emit o).walks = s.walks := rfl
@[simp] theorem emit_assayUnit (s : State) (o : Out) : (s.emit o).assayUnit = s.assayUnit := rfl
@[simp] theorem emit_assayPtr (s : State) (o : Out) : (s.emit o).assayPtr = s.assayPtr := rfl
@[simp] theorem emit_xtalPtr (s : State) (o : Out) : (s.emit o).xtalPtr = s.xtalPtr := rfl
@[simp] theorem emit_xtalVisit (s : State) (o : Out) : (s.emit o).xtalVisit = s.xtalVisit := rfl
@[simp] theorem emit_xtalDeficit (s : State) (o : Out) : (s.emit o).xtalDeficit = s.xtalDeficit := rfl
@[simp] theorem emit_walkPtr (s : State) (o : Out) : (s.emit o).walkPtr = s.walkPtr := rfl
@[simp] theorem emit_basinBad (s : State) (o : Out) : (s.emit o).basinBad = s.basinBad := rfl
@[simp] theorem emit_hbmCe (s : State) (o : Out) : (s.emit o).hbmCe = s.hbmCe := rfl
@[simp] theorem emit_fabric (s : State) (o : Out) : (s.emit o).fabric = s.fabric := rfl
@[simp] theorem emit_rack (s : State) (o : Out) : (s.emit o).rack = s.rack := rfl
@[simp] theorem emit_weir (s : State) (o : Out) : (s.emit o).weir = s.weir := rfl
@[simp] theorem emit_sec (s : State) (o : Out) : (s.emit o).sec = s.sec := rfl
@[simp] theorem emit_bist (s : State) (o : Out) : (s.emit o).bist = s.bist := rfl
@[simp] theorem emit_haltBegun (s : State) (o : Out) : (s.emit o).haltBegun = s.haltBegun := rfl
@[simp] theorem emit_told (s : State) (o : Out) : (s.emit o).told = s.told := rfl
@[simp] theorem emit_pending (s : State) (o : Out) : (s.emit o).pending = s.pending := rfl
@[simp] theorem emit_free (s : State) (o : Out) : (s.emit o).free = s.free := rfl

@[simp] theorem setCtx_tick (s : State) (c : Nat) (x : Ctx) : (s.setCtx c x).tick = s.tick := rfl
@[simp] theorem setCtx_regs (s : State) (c : Nat) (x : Ctx) : (s.setCtx c x).regs = s.regs := rfl
@[simp] theorem setCtx_errSeq (s : State) (c : Nat) (x : Ctx) : (s.setCtx c x).errSeq = s.errSeq := rfl
@[simp] theorem setCtx_errLatch (s : State) (c : Nat) (x : Ctx) : (s.setCtx c x).errLatch = s.errLatch := rfl
@[simp] theorem setCtx_held (s : State) (c : Nat) (x : Ctx) : (s.setCtx c x).held = s.held := rfl
@[simp] theorem setCtx_latch (s : State) (c : Nat) (x : Ctx) : (s.setCtx c x).latch = s.latch := rfl
@[simp] theorem setCtx_board (s : State) (c : Nat) (x : Ctx) : (s.setCtx c x).board = s.board := rfl
@[simp] theorem setCtx_power (s : State) (c : Nat) (x : Ctx) : (s.setCtx c x).power = s.power := rfl
@[simp] theorem setCtx_resets (s : State) (c : Nat) (x : Ctx) : (s.setCtx c x).resets = s.resets := rfl
@[simp] theorem setCtx_wharf (s : State) (c : Nat) (x : Ctx) : (s.setCtx c x).wharf = s.wharf := rfl
@[simp] theorem setCtx_cores (s : State) (c : Nat) (x : Ctx) : (s.setCtx c x).cores = s.cores := rfl
@[simp] theorem setCtx_hbm (s : State) (c : Nat) (x : Ctx) : (s.setCtx c x).hbm = s.hbm := rfl
@[simp] theorem setCtx_basin (s : State) (c : Nat) (x : Ctx) : (s.setCtx c x).basin = s.basin := rfl
@[simp] theorem setCtx_hbmUse (s : State) (c : Nat) (x : Ctx) : (s.setCtx c x).hbmUse = s.hbmUse := rfl
@[simp] theorem setCtx_basinUse (s : State) (c : Nat) (x : Ctx) : (s.setCtx c x).basinUse = s.basinUse := rfl
@[simp] theorem setCtx_refs (s : State) (c : Nat) (x : Ctx) : (s.setCtx c x).refs = s.refs := rfl
@[simp] theorem setCtx_dieTlb (s : State) (c : Nat) (x : Ctx) : (s.setCtx c x).dieTlb = s.dieTlb := rfl
@[simp] theorem setCtx_walks (s : State) (c : Nat) (x : Ctx) : (s.setCtx c x).walks = s.walks := rfl
@[simp] theorem setCtx_assayUnit (s : State) (c : Nat) (x : Ctx) : (s.setCtx c x).assayUnit = s.assayUnit := rfl
@[simp] theorem setCtx_assayPtr (s : State) (c : Nat) (x : Ctx) : (s.setCtx c x).assayPtr = s.assayPtr := rfl
@[simp] theorem setCtx_xtalPtr (s : State) (c : Nat) (x : Ctx) : (s.setCtx c x).xtalPtr = s.xtalPtr := rfl
@[simp] theorem setCtx_xtalVisit (s : State) (c : Nat) (x : Ctx) : (s.setCtx c x).xtalVisit = s.xtalVisit := rfl
@[simp] theorem setCtx_xtalDeficit (s : State) (c : Nat) (x : Ctx) : (s.setCtx c x).xtalDeficit = s.xtalDeficit := rfl
@[simp] theorem setCtx_walkPtr (s : State) (c : Nat) (x : Ctx) : (s.setCtx c x).walkPtr = s.walkPtr := rfl
@[simp] theorem setCtx_basinBad (s : State) (c : Nat) (x : Ctx) : (s.setCtx c x).basinBad = s.basinBad := rfl
@[simp] theorem setCtx_hbmCe (s : State) (c : Nat) (x : Ctx) : (s.setCtx c x).hbmCe = s.hbmCe := rfl
@[simp] theorem setCtx_fabric (s : State) (c : Nat) (x : Ctx) : (s.setCtx c x).fabric = s.fabric := rfl
@[simp] theorem setCtx_rack (s : State) (c : Nat) (x : Ctx) : (s.setCtx c x).rack = s.rack := rfl
@[simp] theorem setCtx_weir (s : State) (c : Nat) (x : Ctx) : (s.setCtx c x).weir = s.weir := rfl
@[simp] theorem setCtx_sec (s : State) (c : Nat) (x : Ctx) : (s.setCtx c x).sec = s.sec := rfl
@[simp] theorem setCtx_bist (s : State) (c : Nat) (x : Ctx) : (s.setCtx c x).bist = s.bist := rfl
@[simp] theorem setCtx_haltBegun (s : State) (c : Nat) (x : Ctx) : (s.setCtx c x).haltBegun = s.haltBegun := rfl
@[simp] theorem setCtx_told (s : State) (c : Nat) (x : Ctx) : (s.setCtx c x).told = s.told := rfl
@[simp] theorem setCtx_pending (s : State) (c : Nat) (x : Ctx) : (s.setCtx c x).pending = s.pending := rfl
@[simp] theorem setCtx_out (s : State) (c : Nat) (x : Ctx) : (s.setCtx c x).out = s.out := rfl
@[simp] theorem setCtx_free (s : State) (c : Nat) (x : Ctx) : (s.setCtx c x).free = s.free := rfl

@[simp] theorem setCore_tick (s : State) (n : Nat) (x : Core) : (s.setCore n x).tick = s.tick := rfl
@[simp] theorem setCore_regs (s : State) (n : Nat) (x : Core) : (s.setCore n x).regs = s.regs := rfl
@[simp] theorem setCore_errSeq (s : State) (n : Nat) (x : Core) : (s.setCore n x).errSeq = s.errSeq := rfl
@[simp] theorem setCore_errLatch (s : State) (n : Nat) (x : Core) : (s.setCore n x).errLatch = s.errLatch := rfl
@[simp] theorem setCore_held (s : State) (n : Nat) (x : Core) : (s.setCore n x).held = s.held := rfl
@[simp] theorem setCore_latch (s : State) (n : Nat) (x : Core) : (s.setCore n x).latch = s.latch := rfl
@[simp] theorem setCore_board (s : State) (n : Nat) (x : Core) : (s.setCore n x).board = s.board := rfl
@[simp] theorem setCore_power (s : State) (n : Nat) (x : Core) : (s.setCore n x).power = s.power := rfl
@[simp] theorem setCore_resets (s : State) (n : Nat) (x : Core) : (s.setCore n x).resets = s.resets := rfl
@[simp] theorem setCore_wharf (s : State) (n : Nat) (x : Core) : (s.setCore n x).wharf = s.wharf := rfl
@[simp] theorem setCore_ctxs (s : State) (n : Nat) (x : Core) : (s.setCore n x).ctxs = s.ctxs := rfl
@[simp] theorem setCore_hbm (s : State) (n : Nat) (x : Core) : (s.setCore n x).hbm = s.hbm := rfl
@[simp] theorem setCore_basin (s : State) (n : Nat) (x : Core) : (s.setCore n x).basin = s.basin := rfl
@[simp] theorem setCore_hbmUse (s : State) (n : Nat) (x : Core) : (s.setCore n x).hbmUse = s.hbmUse := rfl
@[simp] theorem setCore_basinUse (s : State) (n : Nat) (x : Core) : (s.setCore n x).basinUse = s.basinUse := rfl
@[simp] theorem setCore_refs (s : State) (n : Nat) (x : Core) : (s.setCore n x).refs = s.refs := rfl
@[simp] theorem setCore_dieTlb (s : State) (n : Nat) (x : Core) : (s.setCore n x).dieTlb = s.dieTlb := rfl
@[simp] theorem setCore_walks (s : State) (n : Nat) (x : Core) : (s.setCore n x).walks = s.walks := rfl
@[simp] theorem setCore_assayUnit (s : State) (n : Nat) (x : Core) : (s.setCore n x).assayUnit = s.assayUnit := rfl
@[simp] theorem setCore_assayPtr (s : State) (n : Nat) (x : Core) : (s.setCore n x).assayPtr = s.assayPtr := rfl
@[simp] theorem setCore_xtalPtr (s : State) (n : Nat) (x : Core) : (s.setCore n x).xtalPtr = s.xtalPtr := rfl
@[simp] theorem setCore_xtalVisit (s : State) (n : Nat) (x : Core) : (s.setCore n x).xtalVisit = s.xtalVisit := rfl
@[simp] theorem setCore_xtalDeficit (s : State) (n : Nat) (x : Core) : (s.setCore n x).xtalDeficit = s.xtalDeficit := rfl
@[simp] theorem setCore_walkPtr (s : State) (n : Nat) (x : Core) : (s.setCore n x).walkPtr = s.walkPtr := rfl
@[simp] theorem setCore_basinBad (s : State) (n : Nat) (x : Core) : (s.setCore n x).basinBad = s.basinBad := rfl
@[simp] theorem setCore_hbmCe (s : State) (n : Nat) (x : Core) : (s.setCore n x).hbmCe = s.hbmCe := rfl
@[simp] theorem setCore_fabric (s : State) (n : Nat) (x : Core) : (s.setCore n x).fabric = s.fabric := rfl
@[simp] theorem setCore_rack (s : State) (n : Nat) (x : Core) : (s.setCore n x).rack = s.rack := rfl
@[simp] theorem setCore_weir (s : State) (n : Nat) (x : Core) : (s.setCore n x).weir = s.weir := rfl
@[simp] theorem setCore_sec (s : State) (n : Nat) (x : Core) : (s.setCore n x).sec = s.sec := rfl
@[simp] theorem setCore_bist (s : State) (n : Nat) (x : Core) : (s.setCore n x).bist = s.bist := rfl
@[simp] theorem setCore_haltBegun (s : State) (n : Nat) (x : Core) : (s.setCore n x).haltBegun = s.haltBegun := rfl
@[simp] theorem setCore_told (s : State) (n : Nat) (x : Core) : (s.setCore n x).told = s.told := rfl
@[simp] theorem setCore_pending (s : State) (n : Nat) (x : Core) : (s.setCore n x).pending = s.pending := rfl
@[simp] theorem setCore_out (s : State) (n : Nat) (x : Core) : (s.setCore n x).out = s.out := rfl
@[simp] theorem setCore_free (s : State) (n : Nat) (x : Core) : (s.setCore n x).free = s.free := rfl

@[simp] theorem emit_out (s : State) (o : Out) : (s.emit o).out = s.out ++ [o] := rfl

/-! ### Registers, contexts and cores after each update -/

@[simp] theorem fld_emit (s : State) (o : Out) (f : Fd) (i j : Nat) : (s.emit o).fld f i j = s.fld f i j := rfl
@[simp] theorem fld_setCtx (s : State) (c : Nat) (x : Ctx) (f : Fd) (i j : Nat) : (s.setCtx c x).fld f i j = s.fld f i j := rfl
@[simp] theorem fld_setCore (s : State) (n : Nat) (x : Core) (f : Fd) (i j : Nat) : (s.setCore n x).fld f i j = s.fld f i j := rfl
@[simp] theorem ctx_setFld (s : State) (f : Fd) (i j v c : Nat) : (s.setFld f i j v).ctx c = s.ctx c := rfl
@[simp] theorem ctx_emit (s : State) (o : Out) (c : Nat) : (s.emit o).ctx c = s.ctx c := rfl
@[simp] theorem ctx_setCore (s : State) (n : Nat) (x : Core) (c : Nat) : (s.setCore n x).ctx c = s.ctx c := rfl
@[simp] theorem core_setFld (s : State) (f : Fd) (i j v n : Nat) : (s.setFld f i j v).core n = s.core n := rfl
@[simp] theorem core_emit (s : State) (o : Out) (n : Nat) : (s.emit o).core n = s.core n := rfl
@[simp] theorem core_setCtx (s : State) (c : Nat) (x : Ctx) (n : Nat) : (s.setCtx c x).core n = s.core n := rfl

/-- A field that has just been written holds the value cut to its width. -/
@[simp] theorem fld_setFld_self (s : State) (f : Fd) (i j v : Nat) : (s.setFld f i j v).fld f i j = v % 2 ^ f.width := by
  simp [State.fld, State.setFld]

/-- Writing a field leaves every field of another key alone. -/
theorem fld_setFld_ne (s : State) (f g : Fd) (i j i' j' v : Nat) (h : g.key i' j' ≠ f.key i j) :
    (s.setFld f i j v).fld g i' j' = s.fld g i' j' :=
  tget_tset_ne f.rst g.rst s.regs _ h

@[simp] theorem ctx_setCtx_self (s : State) (c : Nat) (x : Ctx) : (s.setCtx c x).ctx c = x := by
  simp [State.ctx, State.setCtx]

theorem ctx_setCtx_ne (s : State) {c c' : Nat} (x : Ctx) (h : c' ≠ c) : (s.setCtx c x).ctx c' = s.ctx c' :=
  tget_tset_ne _ _ s.ctxs _ h

@[simp] theorem core_setCore_self (s : State) (n : Nat) (x : Core) : (s.setCore n x).core n = x := by
  simp [State.core, State.setCore]

theorem core_setCore_ne (s : State) {n n' : Nat} (x : Core) (h : n' ≠ n) : (s.setCore n x).core n' = s.core n' :=
  tget_tset_ne _ _ s.cores _ h

/-! ### What recording an error or raising an event can change -/

/-- `t` differs from `s` in its registers only. -/
def State.sameButRegs (s t : State) : Prop := ∃ r, t = { s with regs := r }

/-- `t` differs from `s` in its registers, the host port's part of the state and its outputs only. -/
def State.sameButPort (s t : State) : Prop := ∃ r w o, t = { s with regs := r, wharf := w, out := o }

theorem State.sameButPort.refl (s : State) : s.sameButPort s := ⟨s.regs, s.wharf, s.out, rfl⟩

theorem State.sameButPort.trans {s t u : State} (h : s.sameButPort t) (k : t.sameButPort u) : s.sameButPort u := by
  obtain ⟨r, w, o, rfl⟩ := h
  obtain ⟨r', w', o', rfl⟩ := k
  exact ⟨r', w', o', rfl⟩

theorem setFld_port (s : State) (f : Fd) (i j v : Nat) : s.sameButPort (s.setFld f i j v) := ⟨_, _, _, rfl⟩
theorem emit_port (s : State) (o : Out) : s.sameButPort (s.emit o) := ⟨_, _, _, rfl⟩

theorem sendMsix_port (s : State) (ld v : Nat) : s.sameButPort (s.sendMsix ld v) := by
  unfold State.sendMsix
  split
  · split
    · exact emit_port ..
    · exact ⟨_, _, _, rfl⟩
  · exact .refl s

theorem ringIrq_port (s : State) (ld ring : Nat) (now : Bool) : s.sameButPort (s.ringIrq ld ring now) := by
  simp only [State.ringIrq]
  split
  · split
    · exact .trans ⟨_, _, _, rfl⟩ (sendMsix_port ..)
    · exact ⟨_, _, _, rfl⟩
  · exact .refl s

theorem statusLine_port (s : State) (ld : Nat) : s.sameButPort (s.statusLine ld) := ⟨_, _, _, rfl⟩

theorem ringPush_port (s : State) (ld ring : Nat) (b : List Byte) (now : Bool) : s.sameButPort (s.ringPush ld ring b now) :=
  (emit_port s _).trans ((setFld_port ..).trans ((statusLine_port ..).trans (ringIrq_port ..)))

theorem evqDrop_port (s : State) (ld : Nat) : s.sameButPort (s.evqDrop ld) := ⟨_, _, _, rfl⟩

theorem evqOverflow_port (s : State) (ld : Nat) : s.sameButPort (s.evqOverflow ld) := by
  simp only [State.evqOverflow]
  split
  · exact .trans ⟨_, _, _, rfl⟩ (ringPush_port ..)
  · exact .refl s

theorem evqPush_port (s : State) (ld : Nat) (r : List Byte) (now : Bool) : s.sameButPort (s.evqPush ld r now) := by
  simp only [State.evqPush]
  split
  · exact (evqOverflow_port s ld).trans (evqDrop_port ..)
  · exact (evqOverflow_port s ld).trans (ringPush_port ..)

theorem evqPush_all_port (l : List Nat) (s : State) (r : List Byte) (now : Bool) :
    s.sameButPort (l.foldl (fun s ld => s.evqPush ld r now) s) := by
  induction l generalizing s with
  | nil => exact .refl s
  | cons a l ih => exact (evqPush_port ..).trans (ih _)

/-- Raising an event changes registers, the host port's state and the outputs, and nothing else (R409, R523). -/
theorem raise_port (s : State) (u : Raiser) (c : Option Nat) (code : Nat) (info : List Byte) :
    s.sameButPort (s.raise u c code info) := by
  simp only [State.raise]
  have h : ∀ t, s.sameButPort t →
      ∀ b : Bool, s.sameButPort (if b = true then
        if code / 0x1000 = 5 then t.ringLds.foldl (fun s ld => s.evqPush ld (eventRecord code c u t.tick info) true) t
        else t.evqPush (c.getD 0) (eventRecord code c u t.tick info) (decide (4 ≤ code / 0x1000)) else t) := by
    intro t ht b
    split
    · split
      · exact ht.trans (evqPush_all_port ..)
      · exact ht.trans (evqPush_port ..)
    · exact ht
  cases u with
  | page p i => exact h _ ⟨_, _, _, rfl⟩ _
  | other a i => exact h _ ⟨_, _, _, rfl⟩ _

@[simp] theorem raise_tick (s : State) (u : Raiser) (c : Option Nat) (code : Nat) (info : List Byte) :
    (s.raise u c code info).tick = s.tick := by obtain ⟨r, w, o, h⟩ := raise_port s u c code info; rw [h]
@[simp] theorem raise_errSeq (s : State) (u : Raiser) (c : Option Nat) (code : Nat) (info : List Byte) :
    (s.raise u c code info).errSeq = s.errSeq := by obtain ⟨r, w, o, h⟩ := raise_port s u c code info; rw [h]
@[simp] theorem raise_errLatch (s : State) (u : Raiser) (c : Option Nat) (code : Nat) (info : List Byte) :
    (s.raise u c code info).errLatch = s.errLatch := by obtain ⟨r, w, o, h⟩ := raise_port s u c code info; rw [h]
@[simp] theorem raise_held (s : State) (u : Raiser) (c : Option Nat) (code : Nat) (info : List Byte) :
    (s.raise u c code info).held = s.held := by obtain ⟨r, w, o, h⟩ := raise_port s u c code info; rw [h]
@[simp] theorem raise_latch (s : State) (u : Raiser) (c : Option Nat) (code : Nat) (info : List Byte) :
    (s.raise u c code info).latch = s.latch := by obtain ⟨r, w, o, h⟩ := raise_port s u c code info; rw [h]
@[simp] theorem raise_board (s : State) (u : Raiser) (c : Option Nat) (code : Nat) (info : List Byte) :
    (s.raise u c code info).board = s.board := by obtain ⟨r, w, o, h⟩ := raise_port s u c code info; rw [h]
@[simp] theorem raise_power (s : State) (u : Raiser) (c : Option Nat) (code : Nat) (info : List Byte) :
    (s.raise u c code info).power = s.power := by obtain ⟨r, w, o, h⟩ := raise_port s u c code info; rw [h]
@[simp] theorem raise_resets (s : State) (u : Raiser) (c : Option Nat) (code : Nat) (info : List Byte) :
    (s.raise u c code info).resets = s.resets := by obtain ⟨r, w, o, h⟩ := raise_port s u c code info; rw [h]
@[simp] theorem raise_cores (s : State) (u : Raiser) (c : Option Nat) (code : Nat) (info : List Byte) :
    (s.raise u c code info).cores = s.cores := by obtain ⟨r, w, o, h⟩ := raise_port s u c code info; rw [h]
@[simp] theorem raise_ctxs (s : State) (u : Raiser) (c : Option Nat) (code : Nat) (info : List Byte) :
    (s.raise u c code info).ctxs = s.ctxs := by obtain ⟨r, w, o, h⟩ := raise_port s u c code info; rw [h]
@[simp] theorem raise_hbm (s : State) (u : Raiser) (c : Option Nat) (code : Nat) (info : List Byte) :
    (s.raise u c code info).hbm = s.hbm := by obtain ⟨r, w, o, h⟩ := raise_port s u c code info; rw [h]
@[simp] theorem raise_basin (s : State) (u : Raiser) (c : Option Nat) (code : Nat) (info : List Byte) :
    (s.raise u c code info).basin = s.basin := by obtain ⟨r, w, o, h⟩ := raise_port s u c code info; rw [h]
@[simp] theorem raise_hbmUse (s : State) (u : Raiser) (c : Option Nat) (code : Nat) (info : List Byte) :
    (s.raise u c code info).hbmUse = s.hbmUse := by obtain ⟨r, w, o, h⟩ := raise_port s u c code info; rw [h]
@[simp] theorem raise_basinUse (s : State) (u : Raiser) (c : Option Nat) (code : Nat) (info : List Byte) :
    (s.raise u c code info).basinUse = s.basinUse := by obtain ⟨r, w, o, h⟩ := raise_port s u c code info; rw [h]
@[simp] theorem raise_refs (s : State) (u : Raiser) (c : Option Nat) (code : Nat) (info : List Byte) :
    (s.raise u c code info).refs = s.refs := by obtain ⟨r, w, o, h⟩ := raise_port s u c code info; rw [h]
@[simp] theorem raise_dieTlb (s : State) (u : Raiser) (c : Option Nat) (code : Nat) (info : List Byte) :
    (s.raise u c code info).dieTlb = s.dieTlb := by obtain ⟨r, w, o, h⟩ := raise_port s u c code info; rw [h]
@[simp] theorem raise_walks (s : State) (u : Raiser) (c : Option Nat) (code : Nat) (info : List Byte) :
    (s.raise u c code info).walks = s.walks := by obtain ⟨r, w, o, h⟩ := raise_port s u c code info; rw [h]
@[simp] theorem raise_assayUnit (s : State) (u : Raiser) (c : Option Nat) (code : Nat) (info : List Byte) :
    (s.raise u c code info).assayUnit = s.assayUnit := by obtain ⟨r, w, o, h⟩ := raise_port s u c code info; rw [h]
@[simp] theorem raise_assayPtr (s : State) (u : Raiser) (c : Option Nat) (code : Nat) (info : List Byte) :
    (s.raise u c code info).assayPtr = s.assayPtr := by obtain ⟨r, w, o, h⟩ := raise_port s u c code info; rw [h]
@[simp] theorem raise_xtalPtr (s : State) (u : Raiser) (c : Option Nat) (code : Nat) (info : List Byte) :
    (s.raise u c code info).xtalPtr = s.xtalPtr := by obtain ⟨r, w, o, h⟩ := raise_port s u c code info; rw [h]
@[simp] theorem raise_xtalVisit (s : State) (u : Raiser) (c : Option Nat) (code : Nat) (info : List Byte) :
    (s.raise u c code info).xtalVisit = s.xtalVisit := by obtain ⟨r, w, o, h⟩ := raise_port s u c code info; rw [h]
@[simp] theorem raise_xtalDeficit (s : State) (u : Raiser) (c : Option Nat) (code : Nat) (info : List Byte) :
    (s.raise u c code info).xtalDeficit = s.xtalDeficit := by obtain ⟨r, w, o, h⟩ := raise_port s u c code info; rw [h]
@[simp] theorem raise_walkPtr (s : State) (u : Raiser) (c : Option Nat) (code : Nat) (info : List Byte) :
    (s.raise u c code info).walkPtr = s.walkPtr := by obtain ⟨r, w, o, h⟩ := raise_port s u c code info; rw [h]
@[simp] theorem raise_basinBad (s : State) (u : Raiser) (c : Option Nat) (code : Nat) (info : List Byte) :
    (s.raise u c code info).basinBad = s.basinBad := by obtain ⟨r, w, o, h⟩ := raise_port s u c code info; rw [h]
@[simp] theorem raise_hbmCe (s : State) (u : Raiser) (c : Option Nat) (code : Nat) (info : List Byte) :
    (s.raise u c code info).hbmCe = s.hbmCe := by obtain ⟨r, w, o, h⟩ := raise_port s u c code info; rw [h]
@[simp] theorem raise_fabric (s : State) (u : Raiser) (c : Option Nat) (code : Nat) (info : List Byte) :
    (s.raise u c code info).fabric = s.fabric := by obtain ⟨r, w, o, h⟩ := raise_port s u c code info; rw [h]
@[simp] theorem raise_rack (s : State) (u : Raiser) (c : Option Nat) (code : Nat) (info : List Byte) :
    (s.raise u c code info).rack = s.rack := by obtain ⟨r, w, o, h⟩ := raise_port s u c code info; rw [h]
@[simp] theorem raise_weir (s : State) (u : Raiser) (c : Option Nat) (code : Nat) (info : List Byte) :
    (s.raise u c code info).weir = s.weir := by obtain ⟨r, w, o, h⟩ := raise_port s u c code info; rw [h]
@[simp] theorem raise_sec (s : State) (u : Raiser) (c : Option Nat) (code : Nat) (info : List Byte) :
    (s.raise u c code info).sec = s.sec := by obtain ⟨r, w, o, h⟩ := raise_port s u c code info; rw [h]
@[simp] theorem raise_bist (s : State) (u : Raiser) (c : Option Nat) (code : Nat) (info : List Byte) :
    (s.raise u c code info).bist = s.bist := by obtain ⟨r, w, o, h⟩ := raise_port s u c code info; rw [h]
@[simp] theorem raise_haltBegun (s : State) (u : Raiser) (c : Option Nat) (code : Nat) (info : List Byte) :
    (s.raise u c code info).haltBegun = s.haltBegun := by obtain ⟨r, w, o, h⟩ := raise_port s u c code info; rw [h]
@[simp] theorem raise_told (s : State) (u : Raiser) (c : Option Nat) (code : Nat) (info : List Byte) :
    (s.raise u c code info).told = s.told := by obtain ⟨r, w, o, h⟩ := raise_port s u c code info; rw [h]
@[simp] theorem raise_pending (s : State) (u : Raiser) (c : Option Nat) (code : Nat) (info : List Byte) :
    (s.raise u c code info).pending = s.pending := by obtain ⟨r, w, o, h⟩ := raise_port s u c code info; rw [h]
@[simp] theorem raise_free (s : State) (u : Raiser) (c : Option Nat) (code : Nat) (info : List Byte) :
    (s.raise u c code info).free = s.free := by obtain ⟨r, w, o, h⟩ := raise_port s u c code info; rw [h]

@[simp] theorem ctx_raise (s : State) (u : Raiser) (c : Option Nat) (code : Nat) (info : List Byte) (d : Nat) :
    (s.raise u c code info).ctx d = s.ctx d := by simp [State.ctx]

@[simp] theorem core_raise (s : State) (u : Raiser) (c : Option Nat) (code : Nat) (info : List Byte) (n : Nat) :
    (s.raise u c code info).core n = s.core n := by simp [State.core]

/-- An error record changes registers and the page's record count only (R525). -/
theorem errlog_shape (s : State) (p : Page) (i k a b d : Nat) :
    ∃ r e, s.errlog p i k a b d = { s with regs := r, errSeq := e } := by
  simp only [State.errlog]
  split <;> exact ⟨_, _, rfl⟩

@[simp] theorem errlog_tick (s : State) (p : Page) (i k a b d : Nat) : (s.errlog p i k a b d).tick = s.tick := by
  obtain ⟨r, e, h⟩ := errlog_shape s p i k a b d; rw [h]
@[simp] theorem errlog_errLatch (s : State) (p : Page) (i k a b d : Nat) : (s.errlog p i k a b d).errLatch = s.errLatch := by
  obtain ⟨r, e, h⟩ := errlog_shape s p i k a b d; rw [h]
@[simp] theorem errlog_held (s : State) (p : Page) (i k a b d : Nat) : (s.errlog p i k a b d).held = s.held := by
  obtain ⟨r, e, h⟩ := errlog_shape s p i k a b d; rw [h]
@[simp] theorem errlog_latch (s : State) (p : Page) (i k a b d : Nat) : (s.errlog p i k a b d).latch = s.latch := by
  obtain ⟨r, e, h⟩ := errlog_shape s p i k a b d; rw [h]
@[simp] theorem errlog_board (s : State) (p : Page) (i k a b d : Nat) : (s.errlog p i k a b d).board = s.board := by
  obtain ⟨r, e, h⟩ := errlog_shape s p i k a b d; rw [h]
@[simp] theorem errlog_power (s : State) (p : Page) (i k a b d : Nat) : (s.errlog p i k a b d).power = s.power := by
  obtain ⟨r, e, h⟩ := errlog_shape s p i k a b d; rw [h]
@[simp] theorem errlog_resets (s : State) (p : Page) (i k a b d : Nat) : (s.errlog p i k a b d).resets = s.resets := by
  obtain ⟨r, e, h⟩ := errlog_shape s p i k a b d; rw [h]
@[simp] theorem errlog_wharf (s : State) (p : Page) (i k a b d : Nat) : (s.errlog p i k a b d).wharf = s.wharf := by
  obtain ⟨r, e, h⟩ := errlog_shape s p i k a b d; rw [h]
@[simp] theorem errlog_cores (s : State) (p : Page) (i k a b d : Nat) : (s.errlog p i k a b d).cores = s.cores := by
  obtain ⟨r, e, h⟩ := errlog_shape s p i k a b d; rw [h]
@[simp] theorem errlog_ctxs (s : State) (p : Page) (i k a b d : Nat) : (s.errlog p i k a b d).ctxs = s.ctxs := by
  obtain ⟨r, e, h⟩ := errlog_shape s p i k a b d; rw [h]
@[simp] theorem errlog_hbm (s : State) (p : Page) (i k a b d : Nat) : (s.errlog p i k a b d).hbm = s.hbm := by
  obtain ⟨r, e, h⟩ := errlog_shape s p i k a b d; rw [h]
@[simp] theorem errlog_basin (s : State) (p : Page) (i k a b d : Nat) : (s.errlog p i k a b d).basin = s.basin := by
  obtain ⟨r, e, h⟩ := errlog_shape s p i k a b d; rw [h]
@[simp] theorem errlog_hbmUse (s : State) (p : Page) (i k a b d : Nat) : (s.errlog p i k a b d).hbmUse = s.hbmUse := by
  obtain ⟨r, e, h⟩ := errlog_shape s p i k a b d; rw [h]
@[simp] theorem errlog_basinUse (s : State) (p : Page) (i k a b d : Nat) : (s.errlog p i k a b d).basinUse = s.basinUse := by
  obtain ⟨r, e, h⟩ := errlog_shape s p i k a b d; rw [h]
@[simp] theorem errlog_refs (s : State) (p : Page) (i k a b d : Nat) : (s.errlog p i k a b d).refs = s.refs := by
  obtain ⟨r, e, h⟩ := errlog_shape s p i k a b d; rw [h]
@[simp] theorem errlog_dieTlb (s : State) (p : Page) (i k a b d : Nat) : (s.errlog p i k a b d).dieTlb = s.dieTlb := by
  obtain ⟨r, e, h⟩ := errlog_shape s p i k a b d; rw [h]
@[simp] theorem errlog_walks (s : State) (p : Page) (i k a b d : Nat) : (s.errlog p i k a b d).walks = s.walks := by
  obtain ⟨r, e, h⟩ := errlog_shape s p i k a b d; rw [h]
@[simp] theorem errlog_assayUnit (s : State) (p : Page) (i k a b d : Nat) : (s.errlog p i k a b d).assayUnit = s.assayUnit := by
  obtain ⟨r, e, h⟩ := errlog_shape s p i k a b d; rw [h]
@[simp] theorem errlog_assayPtr (s : State) (p : Page) (i k a b d : Nat) : (s.errlog p i k a b d).assayPtr = s.assayPtr := by
  obtain ⟨r, e, h⟩ := errlog_shape s p i k a b d; rw [h]
@[simp] theorem errlog_xtalPtr (s : State) (p : Page) (i k a b d : Nat) : (s.errlog p i k a b d).xtalPtr = s.xtalPtr := by
  obtain ⟨r, e, h⟩ := errlog_shape s p i k a b d; rw [h]
@[simp] theorem errlog_xtalVisit (s : State) (p : Page) (i k a b d : Nat) : (s.errlog p i k a b d).xtalVisit = s.xtalVisit := by
  obtain ⟨r, e, h⟩ := errlog_shape s p i k a b d; rw [h]
@[simp] theorem errlog_xtalDeficit (s : State) (p : Page) (i k a b d : Nat) : (s.errlog p i k a b d).xtalDeficit = s.xtalDeficit := by
  obtain ⟨r, e, h⟩ := errlog_shape s p i k a b d; rw [h]
@[simp] theorem errlog_walkPtr (s : State) (p : Page) (i k a b d : Nat) : (s.errlog p i k a b d).walkPtr = s.walkPtr := by
  obtain ⟨r, e, h⟩ := errlog_shape s p i k a b d; rw [h]
@[simp] theorem errlog_basinBad (s : State) (p : Page) (i k a b d : Nat) : (s.errlog p i k a b d).basinBad = s.basinBad := by
  obtain ⟨r, e, h⟩ := errlog_shape s p i k a b d; rw [h]
@[simp] theorem errlog_hbmCe (s : State) (p : Page) (i k a b d : Nat) : (s.errlog p i k a b d).hbmCe = s.hbmCe := by
  obtain ⟨r, e, h⟩ := errlog_shape s p i k a b d; rw [h]
@[simp] theorem errlog_fabric (s : State) (p : Page) (i k a b d : Nat) : (s.errlog p i k a b d).fabric = s.fabric := by
  obtain ⟨r, e, h⟩ := errlog_shape s p i k a b d; rw [h]
@[simp] theorem errlog_rack (s : State) (p : Page) (i k a b d : Nat) : (s.errlog p i k a b d).rack = s.rack := by
  obtain ⟨r, e, h⟩ := errlog_shape s p i k a b d; rw [h]
@[simp] theorem errlog_weir (s : State) (p : Page) (i k a b d : Nat) : (s.errlog p i k a b d).weir = s.weir := by
  obtain ⟨r, e, h⟩ := errlog_shape s p i k a b d; rw [h]
@[simp] theorem errlog_sec (s : State) (p : Page) (i k a b d : Nat) : (s.errlog p i k a b d).sec = s.sec := by
  obtain ⟨r, e, h⟩ := errlog_shape s p i k a b d; rw [h]
@[simp] theorem errlog_bist (s : State) (p : Page) (i k a b d : Nat) : (s.errlog p i k a b d).bist = s.bist := by
  obtain ⟨r, e, h⟩ := errlog_shape s p i k a b d; rw [h]
@[simp] theorem errlog_haltBegun (s : State) (p : Page) (i k a b d : Nat) : (s.errlog p i k a b d).haltBegun = s.haltBegun := by
  obtain ⟨r, e, h⟩ := errlog_shape s p i k a b d; rw [h]
@[simp] theorem errlog_told (s : State) (p : Page) (i k a b d : Nat) : (s.errlog p i k a b d).told = s.told := by
  obtain ⟨r, e, h⟩ := errlog_shape s p i k a b d; rw [h]
@[simp] theorem errlog_pending (s : State) (p : Page) (i k a b d : Nat) : (s.errlog p i k a b d).pending = s.pending := by
  obtain ⟨r, e, h⟩ := errlog_shape s p i k a b d; rw [h]
@[simp] theorem errlog_out (s : State) (p : Page) (i k a b d : Nat) : (s.errlog p i k a b d).out = s.out := by
  obtain ⟨r, e, h⟩ := errlog_shape s p i k a b d; rw [h]
@[simp] theorem errlog_free (s : State) (p : Page) (i k a b d : Nat) : (s.errlog p i k a b d).free = s.free := by
  obtain ⟨r, e, h⟩ := errlog_shape s p i k a b d; rw [h]

end Sys2Proof.Machine
end

