-- ==== Sys2Proof/Laws/Frames.lean ====
section
/-! SUPPORT. Laws/Frames.lean: what the shared operations leave unchanged. -/
namespace Sys2Proof.Machine

/-! ### Module-fatal events and resets -/

@[simp] theorem fatal_board (s : State) (u : Raiser) (code : Nat) (info : List Byte) : (s.fatal u code info).board = s.board := by
  simp only [State.fatal]; split <;> simp

@[simp] theorem moduleReset_board (s : State) : s.moduleReset.board = s.board := by
  simp only [State.moduleReset]; split <;> simp

@[simp] theorem newNonce_board (s : State) : s.newNonce.board = s.board := by
  simp [State.newNonce, List.range, List.range.loop, State.freeNat]

/-! ### Interrupts, duty requests and the Weir's conditions -/

/-- `t` differs from `s` in its registers, contexts, the host port's part of the state and its outputs only. -/
def State.sameButDuty (s t : State) : Prop := ∃ r w o c, t = { s with regs := r, wharf := w, out := o, ctxs := c }

theorem State.sameButDuty.refl (s : State) : s.sameButDuty s := ⟨_, _, _, _, rfl⟩

theorem State.sameButDuty.trans {s t u : State} (h : s.sameButDuty t) (k : t.sameButDuty u) : s.sameButDuty u := by
  obtain ⟨r, w, o, c, rfl⟩ := h
  obtain ⟨r', w', o', c', rfl⟩ := k
  exact ⟨r', w', o', c', rfl⟩

theorem State.sameButPort.duty {s t : State} (h : s.sameButPort t) : s.sameButDuty t := by
  obtain ⟨r, w, o, rfl⟩ := h
  exact ⟨_, _, _, _, rfl⟩

theorem setFld_duty (s : State) (f : Fd) (i j v : Nat) : s.sameButDuty (s.setFld f i j v) := (setFld_port s f i j v).duty

theorem setCtx_duty (s : State) (c : Nat) (x : Ctx) : s.sameButDuty (s.setCtx c x) := ⟨_, _, _, _, rfl⟩

theorem dutySync_duty (s : State) (c : Nat) : s.sameButDuty (s.dutySync c) := (setFld_duty ..).trans (setFld_duty ..)

theorem dutyPost_duty (s : State) (c : Nat) : s.sameButDuty (s.dutyPost c) := by
  simp only [State.dutyPost]
  split
  · exact .refl s
  · split
    · exact .refl s
    · split
      · exact .refl s
      · exact (emit_port ..).duty.trans ((setFld_duty ..).trans ((setFld_duty ..).trans ((setCtx_duty ..).trans
          ((ringIrq_port ..).duty.trans (dutySync_duty ..)))))

/-- Posting a duty request changes registers, its context, the host port's state and the outputs only (R424). -/
theorem dutyRequest_duty (s : State) (c kind note : Nat) (p : List Byte) : s.sameButDuty (s.dutyRequest c kind note p) := by
  simp only [State.dutyRequest]
  refine .trans ?_ (dutySync_duty ..)
  have h : ∀ t, s.sameButDuty t → ∀ b : Bool, s.sameButDuty (if b = true then t else t.dutyPost c) := by
    intro t ht b
    split
    · exact ht
    · exact ht.trans (dutyPost_duty ..)
  refine h _ ?_ _
  split
  · exact .trans ⟨_, _, _, _, rfl⟩ (setFld_duty ..)
  · exact ⟨_, _, _, _, rfl⟩

theorem powerDuty_duty (s : State) (n : Nat) : s.sameButDuty (s.powerDuty n) := by
  unfold State.powerDuty
  split
  · exact dutyRequest_duty ..
  · exact .refl s

theorem alertDuty_duty (s : State) (b : Bool) : s.sameButDuty (s.alertDuty b) := by
  unfold State.alertDuty
  split
  · exact powerDuty_duty ..
  · split
    · exact powerDuty_duty ..
    · exact .refl s

@[simp] theorem dutyRequest_tick (s : State) (c kind note : Nat) (p : List Byte) : (s.dutyRequest c kind note p).tick = s.tick := by
  obtain ⟨r, w, o, c, h⟩ := dutyRequest_duty s c kind note p; rw [h]
@[simp] theorem powerDuty_tick (s : State) (n : Nat) : (s.powerDuty n).tick = s.tick := by
  obtain ⟨r, w, o, c, h⟩ := powerDuty_duty s n; rw [h]
@[simp] theorem alertDuty_tick (s : State) (b : Bool) : (s.alertDuty b).tick = s.tick := by
  obtain ⟨r, w, o, c, h⟩ := alertDuty_duty s b; rw [h]
@[simp] theorem dutyRequest_board (s : State) (c kind note : Nat) (p : List Byte) : (s.dutyRequest c kind note p).board = s.board := by
  obtain ⟨r, w, o, c, h⟩ := dutyRequest_duty s c kind note p; rw [h]
@[simp] theorem powerDuty_board (s : State) (n : Nat) : (s.powerDuty n).board = s.board := by
  obtain ⟨r, w, o, c, h⟩ := powerDuty_duty s n; rw [h]
@[simp] theorem alertDuty_board (s : State) (b : Bool) : (s.alertDuty b).board = s.board := by
  obtain ⟨r, w, o, c, h⟩ := alertDuty_duty s b; rw [h]
@[simp] theorem dutyRequest_power (s : State) (c kind note : Nat) (p : List Byte) : (s.dutyRequest c kind note p).power = s.power := by
  obtain ⟨r, w, o, c, h⟩ := dutyRequest_duty s c kind note p; rw [h]
@[simp] theorem powerDuty_power (s : State) (n : Nat) : (s.powerDuty n).power = s.power := by
  obtain ⟨r, w, o, c, h⟩ := powerDuty_duty s n; rw [h]
@[simp] theorem alertDuty_power (s : State) (b : Bool) : (s.alertDuty b).power = s.power := by
  obtain ⟨r, w, o, c, h⟩ := alertDuty_duty s b; rw [h]
@[simp] theorem dutyRequest_resets (s : State) (c kind note : Nat) (p : List Byte) : (s.dutyRequest c kind note p).resets = s.resets := by
  obtain ⟨r, w, o, c, h⟩ := dutyRequest_duty s c kind note p; rw [h]
@[simp] theorem powerDuty_resets (s : State) (n : Nat) : (s.powerDuty n).resets = s.resets := by
  obtain ⟨r, w, o, c, h⟩ := powerDuty_duty s n; rw [h]
@[simp] theorem alertDuty_resets (s : State) (b : Bool) : (s.alertDuty b).resets = s.resets := by
  obtain ⟨r, w, o, c, h⟩ := alertDuty_duty s b; rw [h]
@[simp] theorem dutyRequest_cores (s : State) (c kind note : Nat) (p : List Byte) : (s.dutyRequest c kind note p).cores = s.cores := by
  obtain ⟨r, w, o, c, h⟩ := dutyRequest_duty s c kind note p; rw [h]
@[simp] theorem powerDuty_cores (s : State) (n : Nat) : (s.powerDuty n).cores = s.cores := by
  obtain ⟨r, w, o, c, h⟩ := powerDuty_duty s n; rw [h]
@[simp] theorem alertDuty_cores (s : State) (b : Bool) : (s.alertDuty b).cores = s.cores := by
  obtain ⟨r, w, o, c, h⟩ := alertDuty_duty s b; rw [h]
@[simp] theorem dutyRequest_hbm (s : State) (c kind note : Nat) (p : List Byte) : (s.dutyRequest c kind note p).hbm = s.hbm := by
  obtain ⟨r, w, o, c, h⟩ := dutyRequest_duty s c kind note p; rw [h]
@[simp] theorem powerDuty_hbm (s : State) (n : Nat) : (s.powerDuty n).hbm = s.hbm := by
  obtain ⟨r, w, o, c, h⟩ := powerDuty_duty s n; rw [h]
@[simp] theorem alertDuty_hbm (s : State) (b : Bool) : (s.alertDuty b).hbm = s.hbm := by
  obtain ⟨r, w, o, c, h⟩ := alertDuty_duty s b; rw [h]
@[simp] theorem dutyRequest_basin (s : State) (c kind note : Nat) (p : List Byte) : (s.dutyRequest c kind note p).basin = s.basin := by
  obtain ⟨r, w, o, c, h⟩ := dutyRequest_duty s c kind note p; rw [h]
@[simp] theorem powerDuty_basin (s : State) (n : Nat) : (s.powerDuty n).basin = s.basin := by
  obtain ⟨r, w, o, c, h⟩ := powerDuty_duty s n; rw [h]
@[simp] theorem alertDuty_basin (s : State) (b : Bool) : (s.alertDuty b).basin = s.basin := by
  obtain ⟨r, w, o, c, h⟩ := alertDuty_duty s b; rw [h]
@[simp] theorem dutyRequest_fabric (s : State) (c kind note : Nat) (p : List Byte) : (s.dutyRequest c kind note p).fabric = s.fabric := by
  obtain ⟨r, w, o, c, h⟩ := dutyRequest_duty s c kind note p; rw [h]
@[simp] theorem powerDuty_fabric (s : State) (n : Nat) : (s.powerDuty n).fabric = s.fabric := by
  obtain ⟨r, w, o, c, h⟩ := powerDuty_duty s n; rw [h]
@[simp] theorem alertDuty_fabric (s : State) (b : Bool) : (s.alertDuty b).fabric = s.fabric := by
  obtain ⟨r, w, o, c, h⟩ := alertDuty_duty s b; rw [h]
@[simp] theorem dutyRequest_rack (s : State) (c kind note : Nat) (p : List Byte) : (s.dutyRequest c kind note p).rack = s.rack := by
  obtain ⟨r, w, o, c, h⟩ := dutyRequest_duty s c kind note p; rw [h]
@[simp] theorem powerDuty_rack (s : State) (n : Nat) : (s.powerDuty n).rack = s.rack := by
  obtain ⟨r, w, o, c, h⟩ := powerDuty_duty s n; rw [h]
@[simp] theorem alertDuty_rack (s : State) (b : Bool) : (s.alertDuty b).rack = s.rack := by
  obtain ⟨r, w, o, c, h⟩ := alertDuty_duty s b; rw [h]
@[simp] theorem dutyRequest_weir (s : State) (c kind note : Nat) (p : List Byte) : (s.dutyRequest c kind note p).weir = s.weir := by
  obtain ⟨r, w, o, c, h⟩ := dutyRequest_duty s c kind note p; rw [h]
@[simp] theorem powerDuty_weir (s : State) (n : Nat) : (s.powerDuty n).weir = s.weir := by
  obtain ⟨r, w, o, c, h⟩ := powerDuty_duty s n; rw [h]
@[simp] theorem alertDuty_weir (s : State) (b : Bool) : (s.alertDuty b).weir = s.weir := by
  obtain ⟨r, w, o, c, h⟩ := alertDuty_duty s b; rw [h]
@[simp] theorem dutyRequest_sec (s : State) (c kind note : Nat) (p : List Byte) : (s.dutyRequest c kind note p).sec = s.sec := by
  obtain ⟨r, w, o, c, h⟩ := dutyRequest_duty s c kind note p; rw [h]
@[simp] theorem powerDuty_sec (s : State) (n : Nat) : (s.powerDuty n).sec = s.sec := by
  obtain ⟨r, w, o, c, h⟩ := powerDuty_duty s n; rw [h]
@[simp] theorem alertDuty_sec (s : State) (b : Bool) : (s.alertDuty b).sec = s.sec := by
  obtain ⟨r, w, o, c, h⟩ := alertDuty_duty s b; rw [h]
@[simp] theorem dutyRequest_bist (s : State) (c kind note : Nat) (p : List Byte) : (s.dutyRequest c kind note p).bist = s.bist := by
  obtain ⟨r, w, o, c, h⟩ := dutyRequest_duty s c kind note p; rw [h]
@[simp] theorem powerDuty_bist (s : State) (n : Nat) : (s.powerDuty n).bist = s.bist := by
  obtain ⟨r, w, o, c, h⟩ := powerDuty_duty s n; rw [h]
@[simp] theorem alertDuty_bist (s : State) (b : Bool) : (s.alertDuty b).bist = s.bist := by
  obtain ⟨r, w, o, c, h⟩ := alertDuty_duty s b; rw [h]
@[simp] theorem dutyRequest_pending (s : State) (c kind note : Nat) (p : List Byte) : (s.dutyRequest c kind note p).pending = s.pending := by
  obtain ⟨r, w, o, c, h⟩ := dutyRequest_duty s c kind note p; rw [h]
@[simp] theorem powerDuty_pending (s : State) (n : Nat) : (s.powerDuty n).pending = s.pending := by
  obtain ⟨r, w, o, c, h⟩ := powerDuty_duty s n; rw [h]
@[simp] theorem alertDuty_pending (s : State) (b : Bool) : (s.alertDuty b).pending = s.pending := by
  obtain ⟨r, w, o, c, h⟩ := alertDuty_duty s b; rw [h]
@[simp] theorem dutyRequest_free (s : State) (c kind note : Nat) (p : List Byte) : (s.dutyRequest c kind note p).free = s.free := by
  obtain ⟨r, w, o, c, h⟩ := dutyRequest_duty s c kind note p; rw [h]
@[simp] theorem powerDuty_free (s : State) (n : Nat) : (s.powerDuty n).free = s.free := by
  obtain ⟨r, w, o, c, h⟩ := powerDuty_duty s n; rw [h]
@[simp] theorem alertDuty_free (s : State) (b : Bool) : (s.alertDuty b).free = s.free := by
  obtain ⟨r, w, o, c, h⟩ := alertDuty_duty s b; rw [h]
@[simp] theorem dutyRequest_haltBegun (s : State) (c kind note : Nat) (p : List Byte) : (s.dutyRequest c kind note p).haltBegun = s.haltBegun := by
  obtain ⟨r, w, o, c, h⟩ := dutyRequest_duty s c kind note p; rw [h]
@[simp] theorem powerDuty_haltBegun (s : State) (n : Nat) : (s.powerDuty n).haltBegun = s.haltBegun := by
  obtain ⟨r, w, o, c, h⟩ := powerDuty_duty s n; rw [h]
@[simp] theorem alertDuty_haltBegun (s : State) (b : Bool) : (s.alertDuty b).haltBegun = s.haltBegun := by
  obtain ⟨r, w, o, c, h⟩ := alertDuty_duty s b; rw [h]

/-- Setting fields one after another changes the registers only. -/
theorem foldl_setFld_shape {α : Type} (l : List α) (f : State → α → State)
    (h : ∀ s a, ∃ r, f s a = { s with regs := r }) (s : State) : ∃ r, l.foldl f s = { s with regs := r } := by
  induction l generalizing s with
  | nil => exact ⟨_, rfl⟩
  | cons a l ih =>
    obtain ⟨r, hr⟩ := h s a
    obtain ⟨r', hr'⟩ := ih (f s a)
    exact ⟨r', by rw [List.foldl_cons, hr', hr]⟩

end Sys2Proof.Machine
end

