-- ==== Sys2Proof/Laws/Memory.lean ====
section
/-! SUPPORT. Laws/Memory.lean: what every memory operation reads and writes, and that each keeps the canonical form. -/
namespace Sys2Proof.Machine

/-! ### Byte lists over tables -/

/-- What a byte reads after consecutive bytes have been written. -/
theorem tget_tsetAll {α : Type} [DecidableEq α] (d : α) (t : Table α) (a k : Nat) (vs : List α) :
    tget d (tsetAll d t a vs) k = if a ≤ k ∧ k < a + vs.length then vs[k - a]?.getD d else tget d t k := by
  induction vs generalizing t a with
  | nil => simp only [tsetAll, List.length_nil]; rw [if_neg (by omega)]
  | cons v vs ih =>
    simp only [tsetAll, List.length_cons]
    rw [ih]
    by_cases h : a + 1 ≤ k ∧ k < a + 1 + vs.length
    · rw [if_pos h, if_pos (by omega)]
      have : k - a = k - (a + 1) + 1 := by omega
      rw [this, List.getElem?_cons_succ]
    · rw [if_neg h, tget_tset]
      by_cases hk : k = a
      · subst hk; rw [if_pos rfl, if_pos (by omega), Nat.sub_self]; rfl
      · rw [if_neg hk, if_neg (by omega)]

theorem Memory.wf_tsetAll {m : Table Byte} (a : Nat) (bs : List Byte) (h : Memory.wf m = true) :
    Memory.wf (tsetAll 0#8 m a bs) = true := tableWf_tsetAll 0#8 m a bs h

theorem Memory.wf_tset {m : Table Byte} (a : Nat) (b : Byte) (h : Memory.wf m = true) :
    Memory.wf (tset 0#8 m a b) = true := tableWf_tset 0#8 m b (Nat.zero_le a) h

theorem Memory.wf_tclear {m : Table Byte} (a n : Nat) (h : Memory.wf m = true) : Memory.wf (tclear m a n) = true :=
  tableWf_tclear 0#8 m a n h

@[simp] theorem Memory.wf_nil : Memory.wf [] = true := rfl

/-! ### Scratchpads -/

theorem scrWrite_wf {k : Core} (a : Nat) (bs : List Byte) (h : Memory.wf k.scr = true) :
    Memory.wf (k.scrWrite a bs).scr = true := Memory.wf_tsetAll a bs h

theorem foldl_tset_wf (drop : List Nat) (bs : List Byte) (a : Nat) (m : Table Byte) (h : Memory.wf m = true) :
    Memory.wf (bs.foldl (fun (p : Nat × Table Byte) b =>
      (p.1 + 1, if drop.contains (p.1 / 64) then p.2 else tset 0#8 p.2 p.1 b)) (a, m)).2 = true := by
  induction bs generalizing a m with
  | nil => exact h
  | cons b bs ih =>
    rw [List.foldl_cons]
    refine ih _ _ ?_
    dsimp only
    split
    · exact h
    · exact Memory.wf_tset a b h

theorem scrWriteBut_wf {k : Core} (a : Nat) (bs : List Byte) (drop : List Nat) (h : Memory.wf k.scr = true) :
    Memory.wf (k.scrWriteBut a bs drop).scr = true := by
  unfold Core.scrWriteBut
  split
  · exact scrWrite_wf a bs h
  · exact foldl_tset_wf drop bs a k.scr h

/-! ### The whole state -/

/-- A state whose memories and cores are those of another keeps its form. -/
theorem State.memoryForm.of_eq {s t : State} (h : s.memoryForm) (hh : t.hbm = s.hbm) (hb : t.basin = s.basin)
    (hc : t.cores = s.cores) : t.memoryForm := by
  refine ⟨hh ▸ h.1, hb ▸ h.2.1, fun n => ?_⟩
  have : t.core n = s.core n := by unfold State.core; rw [hc]
  rw [this]; exact h.2.2 n

theorem State.memoryForm.port {s t : State} (h : s.memoryForm) (k : s.sameButPort t) : t.memoryForm := by
  obtain ⟨r, w, o, rfl⟩ := k
  exact h.of_eq rfl rfl rfl

theorem State.memoryForm.duty {s t : State} (h : s.memoryForm) (k : s.sameButDuty t) : t.memoryForm := by
  obtain ⟨r, w, o, c, rfl⟩ := k
  exact h.of_eq rfl rfl rfl

theorem setFld_form {s : State} (h : s.memoryForm) (f : Fd) (i j v : Nat) : (s.setFld f i j v).memoryForm :=
  h.of_eq rfl rfl rfl

theorem setCtx_form {s : State} (h : s.memoryForm) (c : Nat) (x : Ctx) : (s.setCtx c x).memoryForm := h.of_eq rfl rfl rfl

theorem emit_form {s : State} (h : s.memoryForm) (o : Out) : (s.emit o).memoryForm := h.of_eq rfl rfl rfl

theorem raise_form {s : State} (h : s.memoryForm) (u : Raiser) (c : Option Nat) (code : Nat) (info : List Byte) :
    (s.raise u c code info).memoryForm := h.port (raise_port s u c code info)

/-- A core written back keeps the form if its own scratchpad has it. -/
theorem setCore_form {s : State} (h : s.memoryForm) (n : Nat) (k : Core) (hk : Memory.wf k.scr = true) :
    (s.setCore n k).memoryForm := by
  refine ⟨h.1, h.2.1, fun m => ?_⟩
  have : (s.setCore n k).core m = if m = n then k else s.core m := tget_tset Core.reset s.cores n m k
  rw [this]
  split
  · exact hk
  · exact h.2.2 m

theorem hbmWrite_form {s : State} (h : s.memoryForm) (a : Nat) (bs : List Byte) : (s.hbmWrite a bs).memoryForm :=
  ⟨Memory.wf_tsetAll a bs h.1, h.2.1, h.2.2⟩

theorem physWrite_form {s : State} (h : s.memoryForm) (tier loc off : Nat) (bs : List Byte) :
    (s.physWrite tier loc off bs).memoryForm := by
  unfold State.physWrite
  split
  · exact ⟨h.1, Memory.wf_tsetAll _ bs h.2.1, h.2.2⟩
  · exact ⟨Memory.wf_tsetAll _ bs h.1, h.2.1, h.2.2⟩

theorem physZero_form {s : State} (h : s.memoryForm) (tier loc : Nat) : (s.physZero tier loc).memoryForm := by
  unfold State.physZero
  split
  · exact ⟨h.1, Memory.wf_tclear _ _ h.2.1, h.2.2⟩
  · exact ⟨Memory.wf_tclear _ _ h.1, h.2.1, h.2.2⟩

theorem clearScr_form {s : State} (h : s.memoryForm) (n : Nat) : (s.clearScr n).memoryForm := by
  unfold State.clearScr
  exact setCore_form h n _ rfl

/-- What a byte of HBM reads after a write. -/
theorem hbmWrite_tget (s : State) (a k : Nat) (bs : List Byte) :
    tget 0#8 (s.hbmWrite a bs).hbm k = if a ≤ k ∧ k < a + bs.length then bs[k - a]?.getD 0#8 else tget 0#8 s.hbm k :=
  tget_tsetAll 0#8 s.hbm a k bs

/-- What a byte of a scratchpad reads after a write. -/
theorem scrWrite_tget (k : Core) (a j : Nat) (bs : List Byte) :
    tget 0#8 (k.scrWrite a bs).scr j = if a ≤ j ∧ j < a + bs.length then bs[j - a]?.getD 0#8 else tget 0#8 k.scr j :=
  tget_tsetAll 0#8 k.scr a j bs

end Sys2Proof.Machine
end

