-- ==== Sys2Proof/Laws/Regs.lean ====
section
/-! SUPPORT. Laws/Regs.lean: which registers the shared operations leave unchanged, key by key. -/
namespace Sys2Proof.Machine

/-- The register bits at key `k` are those of `s` in `t`. -/
structure State.sameReg (k : Nat) (s t : State) : Prop where
  eq : ∀ d : Nat, tget d t.regs k = tget d s.regs k

theorem State.sameReg.refl {k : Nat} (s : State) : s.sameReg k s := ⟨fun _ => rfl⟩

theorem State.sameReg.trans {k : Nat} {s t u : State} (h : s.sameReg k t) (h' : t.sameReg k u) : s.sameReg k u :=
  ⟨fun d => (h'.eq d).trans (h.eq d)⟩

theorem State.sameReg.of_regs {k : Nat} {s t : State} (h : t.regs = s.regs) : s.sameReg k t := ⟨fun _ => by rw [h]⟩

theorem State.sameReg.from_regs {k : Nat} {s s' t : State} (h : s'.sameReg k t) (e : s'.regs = s.regs) : s.sameReg k t :=
  ⟨fun d => by rw [h.eq d, e]⟩

theorem State.sameReg.fld {f : Fd} {i j : Nat} {s t : State} (h : s.sameReg (f.key i j) t) : t.fld f i j = s.fld f i j := h.eq _

theorem setFld_reg {k : Nat} (s : State) (f : Fd) (i j v : Nat) (h : k ≠ f.key i j) : s.sameReg k (s.setFld f i j v) :=
  ⟨fun d => tget_tset_ne _ d _ _ h⟩

/-- The key is none that putting a record into an event ring writes (R402, R409). -/
def ringQuiet (k : Nat) : Prop :=
  k ≠ R.FAULT_COUNT.COUNT.key 0 0 ∧
  ∀ ld, k ≠ R.LD_EVQ_TAIL.INDEX.key ld 0 ∧ k ≠ R.LD_EVQ_DROPPED.COUNT.key ld 0 ∧ k ≠ R.LD_STATUS.EVQ_OVF.key ld 0 ∧
    k ≠ (hdrEvent .ld).key ld 0

/-- The key is none that raising event `code` by `u` writes (R409, R523). -/
def eventQuiet (u : Raiser) (code k : Nat) : Prop :=
  ringQuiet k ∧ k ≠ R.FAULT_COUNT.COUNT.key 0 (code / 0x1000) ∧
    match u with
    | .page p i => k ≠ (hdrEvent p).key i 0
    | .other _ _ => True

theorem sendMsix_regs (s : State) (ld v : Nat) : (s.sendMsix ld v).regs = s.regs := by
  simp only [State.sendMsix]; split
  · split <;> rfl
  · rfl

theorem ringIrq_regs (s : State) (ld ring : Nat) (now : Bool) : (s.ringIrq ld ring now).regs = s.regs := by
  simp only [State.ringIrq]; split
  · split
    · exact sendMsix_regs ..
    · rfl
  · rfl

theorem evqRingPush_reg {k : Nat} (hk : ringQuiet k) (s : State) (ld : Nat) (b : List Byte) (now : Bool) :
    s.sameReg k (s.ringPush ld 2 b now) := by
  simp only [State.ringPush]
  exact .trans ((setFld_reg (s.emit _) _ _ _ _ (hk.2 ld).1).from_regs rfl) (.of_regs (ringIrq_regs ..))

theorem evqOverflow_reg {k : Nat} (hk : ringQuiet k) (s : State) (ld : Nat) : s.sameReg k (s.evqOverflow ld) := by
  simp only [State.evqOverflow]
  split
  · refine .trans (.trans ?_ (setFld_reg _ (hdrEvent .ld) ld 0 _ (hk.2 ld).2.2.2)) (evqRingPush_reg hk ..)
    refine .trans ?_ (setFld_reg _ R.FAULT_COUNT.COUNT 0 0 _ hk.1)
    exact .of_regs rfl
  · exact .refl s

theorem evqDrop_reg {k : Nat} (hk : ringQuiet k) (s : State) (ld : Nat) : s.sameReg k (s.evqDrop ld) := by
  refine .trans (.trans (setFld_reg s R.LD_EVQ_DROPPED.COUNT ld 0 _ (hk.2 ld).2.1)
    (setFld_reg _ R.LD_STATUS.EVQ_OVF ld 0 _ (hk.2 ld).2.2.1)) (.of_regs rfl)

theorem evqPush_reg {k : Nat} (hk : ringQuiet k) (s : State) (ld : Nat) (r : List Byte) (now : Bool) :
    s.sameReg k (s.evqPush ld r now) := by
  simp only [State.evqPush]
  split
  · exact (evqOverflow_reg hk s ld).trans (evqDrop_reg hk ..)
  · exact (evqOverflow_reg hk s ld).trans (evqRingPush_reg hk ..)

theorem evqPush_all_reg {k : Nat} (hk : ringQuiet k) (l : List Nat) (s : State) (r : List Byte) (now : Bool) :
    s.sameReg k (l.foldl (fun s ld => s.evqPush ld r now) s) := by
  induction l generalizing s with
  | nil => exact .refl s
  | cons a l ih => exact (evqPush_reg hk ..).trans (ih _)

/-- Raising an event changes no register but its counter, the EVENT bit of its page and those of the event rings. -/
theorem raise_reg {k code : Nat} {u : Raiser} (hk : eventQuiet u code k) (s : State) (c : Option Nat) (info : List Byte) :
    s.sameReg k (s.raise u c code info) := by
  obtain ⟨hr, hc, hu⟩ := hk
  have h : ∀ t, s.sameReg k t →
      ∀ b : Bool, s.sameReg k (if b = true then
        if code / 0x1000 = 5 then t.ringLds.foldl (fun s ld => s.evqPush ld (eventRecord code c u t.tick info) true) t
        else t.evqPush (c.getD 0) (eventRecord code c u t.tick info) (decide (4 ≤ code / 0x1000)) else t) := by
    intro t ht b
    split
    · split
      · exact ht.trans (evqPush_all_reg hr ..)
      · exact ht.trans (evqPush_reg hr ..)
    · exact ht
  have h1 : s.sameReg k (s.bumpAt R.FAULT_COUNT.COUNT 0 (code / 0x1000)) := setFld_reg s _ 0 _ _ hc
  simp only [State.raise]
  cases u with
  | page p i => exact h _ (h1.trans (setFld_reg _ _ i 0 _ hu)) _
  | other a i => exact h _ h1 _

theorem raiseOnce_reg {k code : Nat} {u : Raiser} (hk : eventQuiet u code k) (s : State) (key ticks : Nat) (c : Option Nat)
    (info : List Byte) : s.sameReg k (s.raiseOnce key ticks u c code info) := by
  simp only [State.raiseOnce]
  split
  · exact .refl s
  · exact (raise_reg hk _ c info).from_regs rfl

theorem raise_fld {f : Fd} {i j code : Nat} {u : Raiser} (hk : eventQuiet u code (f.key i j)) (s : State) (c : Option Nat)
    (info : List Byte) : (s.raise u c code info).fld f i j = s.fld f i j := (raise_reg hk ..).fld

theorem raiseOnce_fld {f : Fd} {i j code : Nat} {u : Raiser} (hk : eventQuiet u code (f.key i j)) (s : State) (key ticks : Nat)
    (c : Option Nat) (info : List Byte) : (s.raiseOnce key ticks u c code info).fld f i j = s.fld f i j :=
  (raiseOnce_reg hk ..).fld

/-- The key is none that posting a duty request of context `c` writes (R424). -/
def dutyQuiet (c k : Nat) : Prop :=
  k ≠ R.DUTY_STATUS.OUTSTANDING.key c 0 ∧ k ≠ R.DUTY_STATUS.RING_FULL.key c 0 ∧ k ≠ R.DUTY_REQ_TAIL.INDEX.key c 0 ∧
    k ≠ R.DUTY_POSTED.COUNT.key c 0 ∧ k ≠ R.DUTY_RING_FULL.COUNT.key c 0

theorem dutySync_reg {c k : Nat} (hk : dutyQuiet c k) (s : State) : s.sameReg k (s.dutySync c) :=
  (setFld_reg _ _ _ _ _ hk.1).trans (setFld_reg _ _ _ _ _ hk.2.1)

theorem dutyPost_reg {c k : Nat} (hk : dutyQuiet c k) (s : State) : s.sameReg k (s.dutyPost c) := by
  simp only [State.dutyPost]
  split
  · exact .refl s
  · split
    · exact .refl s
    · split
      · exact .refl s
      · refine .trans ?_ (dutySync_reg hk _)
        refine .trans ?_ (.of_regs (ringIrq_regs ..))
        exact .trans ((setFld_reg (s.emit _) R.DUTY_REQ_TAIL.INDEX c 0 _ hk.2.2.1).from_regs rfl) (.trans (setFld_reg _ R.DUTY_POSTED.COUNT c 0 _ hk.2.2.2.1)
          (.of_regs rfl))

theorem dutyRequest_reg {c k : Nat} (hk : dutyQuiet c k) (s : State) (kind note : Nat) (p : List Byte) :
    s.sameReg k (s.dutyRequest c kind note p) := by
  simp only [State.dutyRequest]
  refine .trans ?_ (dutySync_reg hk _)
  have h : ∀ t, s.sameReg k t → ∀ b : Bool, s.sameReg k (if b = true then t else t.dutyPost c) := by
    intro t ht b
    split
    · exact ht
    · exact ht.trans (dutyPost_reg hk _)
  refine h _ ?_ _
  split
  · exact (setFld_reg _ R.DUTY_RING_FULL.COUNT c 0 _ hk.2.2.2.2).from_regs rfl
  · exact .of_regs rfl

theorem powerDuty_reg {k : Nat} (hk : dutyQuiet 0 k) (s : State) (n : Nat) : s.sameReg k (s.powerDuty n) := by
  unfold State.powerDuty
  split
  · exact dutyRequest_reg hk ..
  · exact .refl s

theorem alertDuty_reg {k : Nat} (hk : dutyQuiet 0 k) (s : State) (b : Bool) : s.sameReg k (s.alertDuty b) := by
  unfold State.alertDuty
  split
  · exact powerDuty_reg hk ..
  · split
    · exact powerDuty_reg hk ..
    · exact .refl s

theorem powerDuty_fld {f : Fd} {i j : Nat} (hk : dutyQuiet 0 (f.key i j)) (s : State) (n : Nat) :
    (s.powerDuty n).fld f i j = s.fld f i j := (powerDuty_reg hk ..).fld

theorem alertDuty_fld {f : Fd} {i j : Nat} (hk : dutyQuiet 0 (f.key i j)) (s : State) (b : Bool) :
    (s.alertDuty b).fld f i j = s.fld f i j := (alertDuty_reg hk ..).fld

theorem dutyRequest_fld {f : Fd} {i j c : Nat} (hk : dutyQuiet c (f.key i j)) (s : State) (kind note : Nat) (p : List Byte) :
    (s.dutyRequest c kind note p).fld f i j = s.fld f i j := (dutyRequest_reg hk ..).fld

theorem emit_fld (s : State) (o : Out) (f : Fd) (i j : Nat) : (s.emit o).fld f i j = s.fld f i j := rfl

end Sys2Proof.Machine
end

