-- ==== Sys2Proof/Laws/All.lean ====
section
/-! SUPPORT. Laws/All.lean: every law of the model, for one import. -/
end

