-- ==== Sys2Proof/WellFormed.lean ====
section
/-! DEFINITION. WellFormed.lean: the commands whose operands the spec admits: no slot operation or bundle with a reserved
encoding, packet and message fields within their widths, records and lists of the length the spec gives them. Operands
whose types bound them need no check. A command that is not well formed has a meaning all the same. -/
namespace Sys2Proof

/-- Check bits name one of a memory's banks and rows (R170, R171). -/
def eccOk : Ecc → Bool
  | .corrected bank row => decide (bank < 64 ∧ row < 8192)
  | _ => true

/-- 64-byte words of a scratchpad (R159). -/
def dropOk (drop : List Nat) : Bool := drop.all fun w => decide (w < 12288)

/-- Surroundings that some cycle has. -/
def surroundOk (e : Surround) : Bool := eccOk e.scr && eccOk e.mem && dropOk e.drop

/-- A bundle without a reserved encoding, in such surroundings (R79). -/
def bundleOk (w : Bundle) : Bool := bundleLegal w && surroundOk w.env

/-- A packet's header fields fit their widths, and its payload a packet (R349). -/
def packetOk (p : Packet) : Bool :=
  decide (p.dst < 4096 ∧ p.src < 4096 ∧ p.slice < 256 ∧ p.vc < 8 ∧ p.type < 256) &&
    decide (p.head.length = 24 ∧ p.payload.length ≤ 4096)

/-- A step message's header fields fit their widths (R301). -/
def stepMsgOk (m : StepMsg) : Bool :=
  decide (m.node < 4096 ∧ m.convoy < 65536 ∧ m.step < 2 ^ 64) && decide (m.inst < 256 ∧ m.count1 < 8192 ∧ m.count2 < 8192)

/-- A configuration request names a power of two of ways (R397). -/
def cfgOk : CfgRequest → Bool
  | .hdmCommit bytes ways => decide (bytes < 2 ^ 52 ∧ 1 ≤ ways ∧ ways ≤ 16)
  | _ => true

/-- The operands of a command are ones that the spec admits. -/
def Instr.wf : Instr → Bool
  | .pwrEnAssert => true
  | .pwrEnDeassert => true
  | .pwrEnOffHoldExpiry => true
  | .mainConversionPermitted => true
  | .mainConversionForcedOff => true
  | .standbyConverterOn => true
  | .standbyConverterOff => true
  | .mgmtResetEnd => true
  | .mcWatchdogExpiry => true
  | .overvoltageShutdown mv ma10 => decide (mv < 2 ^ 32) && decide (ma10 < 2 ^ 32)
  | .overcurrentShutdown mv ma10 => decide (mv < 2 ^ 32) && decide (ma10 < 2 ^ 32)
  | .mainRailsInRegulation => true
  | .mainRailOutOfRegulation => true
  | .pwrGoodHoldElapsed => true
  | .perstLAssert => true
  | .perstLRelease => true
  | .capAlertLAssert => true
  | .capAlertLRelease => true
  | .coolantFaultLAssert => true
  | .coolantFaultLRelease => true
  | .elsRemoved _ => true
  | .elsInserted _ => true
  | .fibreArrayUnmated _ => true
  | .i3cEntdaa _ => true
  | .setCap _ => true
  | .setAlertCap _ => true
  | .heartbeat => true
  | .setOrphan _ _ => true
  | .readStatus => true
  | .i3cWake => true
  | .i3cInvalidWrite => true
  | .jtagIdcode => true
  | .jtagBoundaryScan _ => true
  | .jtagBypass _ => true
  | .dbgAccess _ => true
  | .scanN _ _ => true
  | .rootPllLock => true
  | .sysRefclkLoss => true
  | .rootPllUnlock => true
  | .boostGrant _ => true
  | .clkCtrlWrite _ _ => true
  | .devPwrTargetP0 _ _ => true
  | .devPwrTargetP1 _ _ => true
  | .devPwrTargetP2 _ _ => true
  | .devPwrTargetP3 _ _ => true
  | .p1Entry => true
  | .powerTransitionDone => true
  | .rstModuleWrite _ _ => true
  | .rstDieWrite _ _ => true
  | .rstLinkWrite _ _ => true
  | .rstLdWrite _ _ => true
  | .rstCtxWrite _ _ => true
  | .flr _ => true
  | .ldResetLd _ _ => true
  | .ldResetCtx _ _ => true
  | .secondaryBusReset _ => true
  | .hostPortLinkDown => true
  | .resetDrainEnd _ => true
  | .resetDone domain inst => decide (domain ≤ 4 ∧ inst < 512)
  | .ldResetStuck _ => true
  | .flashImageReadDone _ => true
  | .hbmTrainingDone _ => true
  | .hbmZeroFillDone => true
  | .bootReady => true
  | .load _ => true
  | .recoveryLoadDone _ => true
  | .flashWrite _ => true
  | .svnCommit _ => true
  | .add _ rd rs1 rs2 rs3 w => sLegal (.r .add rd rs1 rs2 rs3) && bundleOk w
  | .sub _ rd rs1 rs2 rs3 w => sLegal (.r .sub rd rs1 rs2 rs3) && bundleOk w
  | .mul _ rd rs1 rs2 rs3 w => sLegal (.r .mul rd rs1 rs2 rs3) && bundleOk w
  | .mulh _ rd rs1 rs2 rs3 w => sLegal (.r .mulh rd rs1 rs2 rs3) && bundleOk w
  | .mulhu _ rd rs1 rs2 rs3 w => sLegal (.r .mulhu rd rs1 rs2 rs3) && bundleOk w
  | .div _ rd rs1 rs2 rs3 w => sLegal (.r .div rd rs1 rs2 rs3) && bundleOk w
  | .divu _ rd rs1 rs2 rs3 w => sLegal (.r .divu rd rs1 rs2 rs3) && bundleOk w
  | .rem _ rd rs1 rs2 rs3 w => sLegal (.r .rem rd rs1 rs2 rs3) && bundleOk w
  | .remu _ rd rs1 rs2 rs3 w => sLegal (.r .remu rd rs1 rs2 rs3) && bundleOk w
  | .andOrXor _ k rd rs1 rs2 rs3 w => sLegal (.r (match k with | 0 => .and | 1 => .or | 2 => .xor) rd rs1 rs2 rs3) && bundleOk w
  | .sllSrlSra _ k rd rs1 rs2 rs3 w => sLegal (.r (match k with | 0 => .sll | 1 => .srl | 2 => .sra) rd rs1 rs2 rs3) && bundleOk w
  | .sltSltu _ k rd rs1 rs2 rs3 w => sLegal (.r (match k with | 0 => .slt | 1 => .sltu) rd rs1 rs2 rs3) && bundleOk w
  | .minMaxMinuMaxu _ k rd rs1 rs2 rs3 w => sLegal (.r (match k with | 0 => .min | 1 => .max | 2 => .minu | 3 => .maxu) rd rs1 rs2 rs3) && bundleOk w
  | .sel _ rd rs1 rs2 rs3 w => sLegal (.r .sel rd rs1 rs2 rs3) && bundleOk w
  | .addi _ rd rs1 imm w => sLegal (.i .addi rd rs1 imm) && bundleOk w
  | .andiOriXori _ k rd rs1 imm w => sLegal (.i (match k with | 0 => .andi | 1 => .ori | 2 => .xori) rd rs1 imm) && bundleOk w
  | .slliSrliSrai _ k rd rs1 imm w => sLegal (.i (match k with | 0 => .slli | 1 => .srli | 2 => .srai) rd rs1 imm) && bundleOk w
  | .slti _ rd rs1 imm w => sLegal (.i .slti rd rs1 imm) && bundleOk w
  | .li _ rd imm w => sLegal (.li rd imm) && bundleOk w
  | .lih _ rd imm w => sLegal (.lih rd imm) && bundleOk w
  | .faddFsubFmulFdiv _ k rd rs1 rs2 rs3 w => sLegal (.r (match k with | 0 => .fadd | 1 => .fsub | 2 => .fmul | 3 => .fdiv) rd rs1 rs2 rs3) && bundleOk w
  | .fsqrt _ rd rs1 rs2 rs3 w => sLegal (.r .fsqrt rd rs1 rs2 rs3) && bundleOk w
  | .fminFmax _ k rd rs1 rs2 rs3 w => sLegal (.r (match k with | 0 => .fmin | 1 => .fmax) rd rs1 rs2 rs3) && bundleOk w
  | .fma _ rd rs1 rs2 rs3 w => sLegal (.r .fma rd rs1 rs2 rs3) && bundleOk w
  | .fcvtIf _ rd rs1 rs2 rs3 w => sLegal (.r .fcvtIF rd rs1 rs2 rs3) && bundleOk w
  | .fcvtFi _ rd rs1 rs2 rs3 w => sLegal (.r .fcvtFI rd rs1 rs2 rs3) && bundleOk w
  | .feqFltFle _ k rd rs1 rs2 rs3 w => sLegal (.r (match k with | 0 => .feq | 1 => .flt | 2 => .fle) rd rs1 rs2 rs3) && bundleOk w
  | .lds _ rd rs1 size sx off w => sLegal (.lds rd rs1 size sx off) && bundleOk w
  | .sts _ rs2 rs1 size off w => sLegal (.sts rs2 rs1 size false off) && bundleOk w
  | .ldu _ rd rs1 size sx off w => sLegal (.ldu rd rs1 size sx off) && bundleOk w
  | .stu _ rs2 rs1 size off w => sLegal (.stu rs2 rs1 size false off) && bundleOk w
  | .rdgauge _ rd index w => sLegal (.rdgauge rd index) && bundleOk w
  | .rdtick _ rd w => sLegal (.rdtick rd 0#5 0#5 0#5) && bundleOk w
  | .ldn _ rd rs1 size sx off w => sLegal (.ldn rd rs1 size sx off) && bundleOk w
  | .stn _ rs2 rs1 size off w => sLegal (.stn rs2 rs1 size false off) && bundleOk w
  | .amo _ rd rs1 rs2 rs3 aop ret' w => sLegal (.amo rd rs1 rs2 rs3 aop ret') && bundleOk w
  | .iflush _ w => sLegal (.iflush 0#5 0#5 0#5 0#5) && bundleOk w
  | .dinv _ rs1 rs2 w => sLegal (.dinv 0#5 rs1 rs2) && bundleOk w
  | .rdtag _ rd imm w => sLegal (.rdtag rd 0#5 imm) && bundleOk w
  | .beqBneBltBgeBltuBgeu _ c rs1 rs2 off w => bLegal (.bc c rs1 rs2 off) && bundleOk w
  | .j _ off w => bLegal (.j off) && bundleOk w
  | .call _ off w => bLegal (.call off) && bundleOk w
  | .jr _ rs1 w => bLegal (.jr rs1) && bundleOk w
  | .callr _ rs1 w => bLegal (.callr rs1) && bundleOk w
  | .ret _ w => bLegal .ret && bundleOk w
  | .loop _ lc rs1 len w => bLegal (.loop lc rs1 len) && bundleOk w
  | .lend _ lc w => bLegal (.lend lc) && bundleOk w
  | .wait _ rs1 w => bLegal (.wait rs1) && bundleOk w
  | .halt _ w => bLegal (.halt 0#16) && bundleOk w
  | .haltComplete _ => true
  | .brk _ code w => bLegal (.brk code) && bundleOk w
  | .vaddVsubVmul _ _ k f w => vLegal (match k with | 0 => .vadd | 1 => .vsub | 2 => .vmul) f && bundleOk w
  | .vfma _ _ f w => vLegal .vfma f && bundleOk w
  | .vminVmax _ _ k f w => vLegal (match k with | 0 => .vmin | 1 => .vmax) f && bundleOk w
  | .vabsVneg _ _ k f w => vLegal (match k with | 0 => .vabs | 1 => .vneg) f && bundleOk w
  | .vandVorVxor _ _ k f w => vLegal (match k with | 0 => .vand | 1 => .vor | 2 => .vxor) f && bundleOk w
  | .vshlVsraVsrl _ _ k f w => vLegal (match k with | 0 => .vshl | 1 => .vsra | 2 => .vsrl) f && bundleOk w
  | .vexp _ _ f w => vLegal .vexp f && bundleOk w
  | .vrcp _ _ f w => vLegal .vrcp f && bundleOk w
  | .vrsqrt _ _ f w => vLegal .vrsqrt f && bundleOk w
  | .vcvt _ _ f w => vLegal .vcvt f && bundleOk w
  | .vceqVcltVcle _ _ k f w => vLegal (match k with | 0 => .vceq | 1 => .vclt | 2 => .vcle) f && bundleOk w
  | .vperm _ _ f w => vLegal .vperm f && bundleOk w
  | .vbcast _ _ f w => vLegal .vbcast f && bundleOk w
  | .vsel _ _ f w => vLegal .vsel f && bundleOk w
  | .vmov _ _ f w => vLegal .vmov f && bundleOk w
  | .vrsumVrmaxVrmin _ _ k f w => vLegal (match k with | 0 => .vrsum | 1 => .vrmax | 2 => .vrmin) f && bundleOk w
  | .vld _ _ f w => vLegal .vld f && bundleOk w
  | .vst _ _ f w => vLegal .vst f && bundleOk w
  | .mandMorMxorMnot _ _ k f w => vLegal (match k with | 0 => .mand | 1 => .mor | 2 => .mxor | 3 => .mnot) f && bundleOk w
  | .mxCfg _ => true
  | .mxLda _ ecc => eccOk ecc
  | .mxMmw _ ecc => eccOk ecc
  | .mxMma _ ecc => eccOk ecc
  | .mxRd _ drop => dropOk drop
  | .mxStf _ drop => dropOk drop
  | .xXfer _ tag toUnified rs saddr len w => xLegal (.xfer tag toUnified rs saddr len) && bundleOk w
  | .xScopy _ tag src dst len w => xLegal (.scopy tag src dst len) && bundleOk w
  | .transferComplete _ _ _ _ drop ecc => dropOk drop && eccOk ecc
  | .lduDataReturn _ _ _ => true
  | .runaheadEntry _ w => bundleOk w
  | .runaheadLimit _ => true
  | .pipelineParityError _ => true
  | .coreWatchdogExpiry _ => true
  | .fence _ _ => true
  | .fenceClearDone _ _ => true
  | .unfence _ _ => true
  | .xAssay _ tag nsrc rsrc rowsM1 layer ord w => xLegal (.assay tag nsrc rsrc rowsM1 layer ord) && bundleOk w
  | .assayCompareDone _ ecc => eccOk ecc
  | .xAsel _ tag dst layer obase w => xLegal (.asel tag dst layer obase) && bundleOk w
  | .clear _ _ _ => true
  | .forceWiden _ _ _ => true
  | .basinScrubRead _ _ ecc _ => eccOk ecc
  | .clearDone _ _ _ => true
  | .sluiceTransferDone _ _ _ _ _ => true
  | .copyRelease _ => true
  | .lstReload _ _ _ => true
  | .xLmark _ tag layer w => xLegal (.lmark tag layer) && bundleOk w
  | .xLwait _ tag layer w => xLegal (.lwait tag layer) && bundleOk w
  | .lwaitComplete _ _ => true
  | .sluiceLate _ _ => true
  | .tierWaitExpiry _ _ => true
  | .writebackRetry _ => true
  | .stage _ _ _ _ => true
  | .evict _ _ _ _ => true
  | .move _ _ _ _ => true
  | .writeback _ _ _ _ => true
  | .alloc _ _ _ _ => true
  | .mapPooled _ _ _ _ => true
  | .free _ _ _ _ => true
  | .perm _ _ _ _ => true
  | .seqSet _ _ _ _ => true
  | .seqClear _ _ _ _ => true
  | .invNow _ _ _ _ => true
  | .invNowAcknowledged _ => true
  | .advance _ _ => true
  | .advanceApply _ => true
  | .epochRetire _ => true
  | .pageWalkDone _ _ _ ecc => eccOk ecc
  | .mapReload _ _ _ => true
  | .xAwalk _ tag desc dst w => xLegal (.awalk tag desc dst) && bundleOk w
  | .awalkGrant _ _ ecc => eccOk ecc
  | .awalkComplete _ _ _ _ _ ecc drop => eccOk ecc && dropOk drop
  | .xRkpost _ tag src slot gen pair pos countM1 w => xLegal (.rkpost tag src slot gen pair pos countM1) && bundleOk w
  | .rkpostCopyDone _ _ ecc => eccOk ecc
  | .fork _ _ => true
  | .scatterComplete _ => true
  | .stepBoundary _ _ => true
  | .tabReload _ _ => true
  | .xBsend _ tag src layer half rowbase count total w => xLegal (.bsend tag src layer half rowbase count total) && bundleOk w
  | .bargeClose _ _ _ _ => true
  | .dispatchPart _ => true
  | .xBwait _ tag dst layer half side host w => xLegal (.bwait tag dst layer half side host) && bundleOk w
  | .bwaitComplete _ _ drop => dropOk drop
  | .xBret _ tag host half w => xLegal (.bret tag host half) && bundleOk w
  | .returnPart _ => true
  | .bargeRetTimeout _ _ _ _ => true
  | .bargeDrainMax _ _ => true
  | .bargeDownClr _ _ _ => true
  | .rebalanceEpoch _ others spares => (others ++ spares).all fun x => decide (x.1 < 256)
  | .replicaCopyDone _ _ _ _ _ _ => true
  | .sqAdmit _ _ _ _ _ => true
  | .sqCancel _ _ => true
  | .maniCancel _ _ => true
  | .draftSet _ _ => true
  | .bcast m => stepMsgOk m
  | .stepLaunch _ => true
  | .memberReady _ => true
  | .ready m => stepMsgOk m
  | .helmCommit _ _ => true
  | .commit m => stepMsgOk m
  | .scattered m resident failed => stepMsgOk m && (resident ++ failed).all fun l => decide (l < 256)
  | .replay m => stepMsgOk m
  | .convoyEnd m => stepMsgOk m
  | .buildRetry _ => true
  | .readyTimeout _ => true
  | .tollLevelWrite _ _ _ _ => true
  | .xXsamp _ tag desc dst w => xLegal (.xsamp tag desc dst) && bundleOk w
  | .xsampGrant _ => true
  | .xsampDrawDone _ _ _ _ drop => dropOk drop
  | .linkEnWrite _ _ _ => true
  | .linkTrainingDone _ _ _ _ _ _ _ _ => true
  | .linkTrainingTimeout _ _ => true
  | .lossOfLight _ _ => true
  | .fecUeThreshold _ => true
  | .replayThreshold _ => true
  | .ackProgressTimeout _ => true
  | .retrainDelayExpiry _ => true
  | .flitReceive _ _ data _ _ _ => decide (data.length ≤ 256)
  | .packetArrival _ p env _ _ => packetOk p && surroundOk env
  | .ident _ _ _ _ _ _ _ => true
  | .downNotice _ _ => true
  | .retrainRequest _ => true
  | .transitQuery _ _ _ _ => true
  | .transitAnswer _ _ _ => true
  | .pinRelease _ _ => true
  | .timeReq p _ _ => packetOk p
  | .timeResp p _ => packetOk p
  | .timeExchangePeriod _ => true
  | .lockLoad _ _ => true
  | .lockCommit => true
  | .isolate _ => true
  | .nodeRequest p env => packetOk p && surroundOk env
  | .homeAgentSlot _ env => surroundOk env
  | .resp p env => packetOk p && surroundOk env
  | .resync p env => packetOk p && surroundOk env
  | .resyncAck p env => packetOk p && surroundOk env
  | .msfReqTimeout _ => true
  | .impReload _ _ _ => true
  | .msfExpSet _ _ => true
  | .msfExpClear _ _ => true
  | .xMsg _ tag desc w => xLegal (.msg tag desc) && bundleOk w
  | .put p env => packetOk p && surroundOk env
  | .get p env => packetOk p && surroundOk env
  | .getData p env => packetOk p && surroundOk env
  | .send p env => packetOk p && surroundOk env
  | .msgAck p env => packetOk p && surroundOk env
  | .msgTimeout _ => true
  | .msgUseAbandon _ _ => true
  | .hostLinkTrain _ _ _ _ => true
  | .retrain _ => true
  | .wharfLdEnWrite _ _ => true
  | .doorbellWrite _ _ _ _ => true
  | .sqFetch _ entry => decide (entry.length = 64)
  | .nop _ _ => true
  | .sqLaunch _ _ => true
  | .copy _ _ => true
  | .copyDone _ _ _ ecc => eccOk ecc
  | .cxlMemRead _ _ _ ecc => eccOk ecc
  | .cxlMemWrite _ _ data => decide (data.length = 64)
  | .uioCompletion _ _ _ _ _ _ _ => true
  | .ringsEnWrite _ _ _ => true
  | .irqTimer _ _ => true
  | .evqOverflowRecord _ => true
  | .pcsLoopbackFollower => true
  | .getVersion => true
  | .getCapabilities => true
  | .negotiateAlgorithms => true
  | .getDigests => true
  | .getCertificate _ _ _ => true
  | .challenge _ => true
  | .getMeasurements _ _ _ => true
  | .identifyMemoryDevice _ => true
  | .getPartitionInfo _ => true
  | .getSupportedLogs _ => true
  | .getLog _ _ => true
  | .getLdInfo => true
  | .getLdAllocations => true
  | .enable _ _ => true
  | .quiesce _ _ => true
  | .ctxQuiesced _ => true
  | .ctxResume _ _ => true
  | .disable _ _ => true
  | .setCores _ _ => true
  | .snap _ _ => true
  | .dutyRequestPost _ => true
  | .dutyAnsTailWrite _ _ _ _ => true
  | .dutyTimeout _ _ => true
  | .dutyModeWrite _ _ _ _ => true
  | .controlTick _ _ issued => decide (issued.length = 8)
  | .powerSample mv ma10 shares _ => decide (mv ≤ 100000 ∧ ma10 ≤ 100000 ∧ shares.length ≤ 16)
  | .gainUpdate => true
  | .currentGuardTrip avg => decide (avg < 2 ^ 32)
  | .currentHoldEnd => true
  | .pwrCapWrite _ _ => true
  | .orphanTimeout => true
  | .tempSample dies iods hbms oes _ _ => decide (dies.length = 8 ∧ iods.length = 2 ∧ hbms.length = 32 ∧ oes.length = 16)
  | .tripHaltComplete => true
  | .tripPowerOff => true
  | .coolantInletHigh => true
  | .coolantOutletHigh => true
  | .coolantFaultEnd => true
  | .inputSag mv => decide (mv < 2 ^ 32)
  | .sagClear => true
  | .powerPolicyPeriod => true
  | .gaugeFreeze _ _ _ => true
  | .gaugeSnap _ _ => true
  | .gaugeMfreeze _ _ => true
  | .gaugeMsnap _ => true
  | .freezeAll _ _ => true
  | .snapAll _ => true
  | .gaugeClr _ _ _ _ => true
  | .gaugeMclr _ _ => true
  | .gaugeSelAll _ _ _ _ => true
  | .gaugeWrap _ _ _ _ => true
  | .xGsnap _ tag dst w => xLegal (.gsnap tag dst) && bundleOk w
  | .submit _ _ => true
  | .tokenOpen => true
  | .tokenTransition => true
  | .tokenEnroll => true
  | .tokenRevoke => true
  | .tokenProvision => true
  | .pubkey _ => true
  | .certWrite _ _ => true
  | .scopeClearDone => true
  | .dbgClose _ => true
  | .dbgHalt _ => true
  | .dbgResume _ => true
  | .dbgStep _ => true
  | .dbgRegDataAccess _ _ _ => true
  | .dbgMemRead _ ecc => eccOk ecc
  | .dbgMemWrite _ ecc => eccOk ecc
  | .bistStart _ => true
  | .bistAbort _ => true
  | .bistItemStart => true
  | .bistItemEnd _ _ _ _ _ _ => true
  | .bistPowerSkip => true
  | .loopStart _ => true
  | .loopStop _ => true
  | .loopEnd _ _ _ _ => true
  | .faultCtrlClear _ => true
  | .cfgLockSet _ _ => true
  | .eventForce _ _ _ => true
  | .errlogAddrRead _ _ => true
  | .errlogInfoRead _ _ => true
  | .reg64LowHalfRead _ _ => true
  | .rcRegisterRead _ _ => true
  | .registerWrite _ _ _ _ _ ecc => eccOk ecc
  | .configurationRequest _ r => cfgOk r
  | .completionTimeout _ _ _ _ => true
  | .flashWriteDone _ => true
  | .illegalBundle _ w => surroundOk w.env
  | .fetchXlat _ w => bundleOk w
  | .linkTrainingRetry _ => true
  | .pcsLoopbackExit => true
  | .fibreArrayMated _ => true
  | .mgmtPllFreeRun => true
  | .sysRefclkReturn => true

end Sys2Proof
end

