-- ==== Sys2Proof/Tests/Slice0.lean ====
section
/-! SUPPORT. Tests/Slice0.lean: words of the spec's encodings, terms that WellFormed refuses, single steps on small states,
and for every statement with hypotheses a state and operands that meet them. -/
namespace Sys2Proof.Tests
open Sys2Proof Sys2Proof.Machine
set_option Elab.async false

/-! ### Small states -/

/-- The module out of reset, its management domain and host link up. -/
def up : State := { State.reset with
  board := { Board.reset with mgmtUp := true, mainOn := true, railsOk := true }
  power := { Power.reset with inReset := false, running := true }
  wharf := { Wharf.reset with up := true } }

/-- Core 0 runs, with one bundle in its instruction cache at pc 0, and a walk descriptor and a message descriptor in its
scratchpad at 192 and 256. -/
def holding (w : Bundle) : State :=
  let k : Core := { Core.reset with
    icache := [(0, leBytes (encodeBundle w).toNat 64)]
    scr := [(201, 1#8), (256, 1#8), (260, 64#8)] }
  { up with cores := [(0, k)] }.setFld R.CORE_STATE.STATE 0 0 2

/-- A bundle in quiet surroundings. -/
def bare : Bundle := bareBundle ⟨.ok, .ok, [], []⟩

/-- Core 0 as given, in an otherwise reset module. -/
def withCore (k : Core) : State := { up with cores := [(0, k)] }

/-- Context 0 as given, in an otherwise reset module. -/
def withCtx (x : Ctx) : State := { up with ctxs := [(0, x)] }

/-- Core 0 with one command in its engine's queue. -/
def engine (op : MOp) : State := withCore { Core.reset with engine := { Engine.reset with queue := [op] } }

/-- An operation in flight of a core, by tag and kind. -/
def pend (tag kind : Nat) (granted : Bool) : XPend := ⟨tag, kind, 0, 0, 0, 0, [], 0, [], granted⟩

/-- Context 0 takes part in convoy 9, whose helm this module is; its members are the nodes 5 and 6. -/
def convoyUp : State := ((((up.setFld R.STEP_CTRL.EN 0 0 1).setFld R.STEP_CTRL.HELM 0 0 1).setFld R.BARGE_CFG.CONVOY 0 0 9).setFld
  R.STEP_NODES.HELM_NODE 0 0 5).setFld R.STEP_NODES.NODE_LO 0 0 5 |>.setFld R.STEP_NODE_COUNT.COUNT 0 0 2

/-- A message of convoy 9 from a node, with an empty list in its body. -/
def msg (node count2 : Nat) : StepMsg := ⟨node, 9, 1, 0, 0, count2, List.replicate 512 0#8⟩

/-- LD0 with its rings on, and one command that waits to start. -/
def queued (opcode : Nat) (started : Bool) : State :=
  { up with wharf := { up.wharf with cmds := [sq opcode started] } }.setFld R.LD_CTRL.RINGS_EN 0 0 1
where
  /-- A command of the submission queue. -/
  sq (opcode : Nat) (started : Bool) : SqCmd := ⟨0, 0, 7, false, opcode, started, 0, 0, 0, false, []⟩

/-- The module in slice 5, with region 3 set: all rights, 64 KiB, in core 0's scratchpad, owned by context 0, key 7. -/
def inSlice : State := { up with rack := { Rack.reset with regions := [(3, ⟨1, 63, 0, 65536, 0, 0, 7, 0⟩)] } }.setFld
  R.LOCK_SELF.SLICE 0 0 5 |>.setFld R.MSF_CTRL.EN 0 0 1 |>.setFld R.MSG_CTRL.EN 0 0 1 |>.setFld R.CTX_CORES.BITS 0 0 1

/-- A packet of slice 5 from node 1, of a type, with bytes set at places of its header. -/
def pk (type : Nat) (at_ : List (Nat × Byte)) : Packet :=
  ⟨0, 1, 5, 0, false, type, (List.range 24).map fun i => ((at_.find? fun x => decide (x.1 = i + 8)).map Prod.snd).getD 0#8, []⟩

/-- A request packet to region 3 with its key, of a size. -/
def request (type : Nat) : Packet := pk type [(13, 3#8), (16, 7#8), (21, 3#8)]

/-- A message to region 3 with its key. -/
def toRegion (type key : Nat) : Packet := pk type [(29, 3#8), (20, BitVec.ofNat 8 key)]

/-- The module with an identifier of a message in use. -/
def sending (op len : Nat) : State :=
  { inSlice with rack := { inSlice.rack with messages := [(0, ⟨0, true, 0, 0, 0, 1, 0, op, 1, 3, 7, 0, false, 0, [], len, [], false, 0, 0⟩)] } }

/-- A Lock image of this slice, and a query of its load that link 4 has not answered. -/
def image : LockImage := ⟨0, 5, 0, [], [], [], []⟩

/-- A BIST item. -/
def item : BistItem := ⟨1, 2, false⟩

/-- The module up, with every context's helm here. -/
def serving : State := (List.range 16).foldl (fun (s : State) c => s.setFld R.STEP_CTRL.HELM c 0 1) up

/-- `PWR_CAP` and the first register of the THERM page. -/
def pwrCap : RegRef := (regAt .pwr 0 0x100).get (by decide +kernel)
def thermReg : RegRef := (regAt .therm 0 0x100).get (by decide +kernel)

/-- A SEQ_SET from the host whose range starts at 0. -/
def edit : Edit := ⟨1, 0, 5, 0, 3, 0, 1⟩

/-- Core 63 waits for a sampling lane, and its context may take one at once. -/
def waiter : State :=
  { up with cores := [(63, { Core.reset with xops := [pend 0 0x50 false] })], xtalDeficit := [(0, 100)] }

/-- A request that a die's arbiter has granted stays granted. -/
theorem turns_after_grant (w : Nat → Bool) (sh : Nat → Nat) (l : List Nat) (a : XtalArb) (h : a.grant.isSome = true) :
    l.foldl (fun a _ => a.turn w sh) a = a := by
  induction l with
  | nil => rfl
  | cons x t ih => rw [List.foldl_cons, show a.turn w sh = a by simp [XtalArb.turn, h], ih]

/-- The arbiter grants the context at its place at once where that waits and has its 100 units. -/
theorem pick_at_once (s : State) (d c : Nat)
    (hw : (List.range 16).any (fun c => (List.range 64).any fun i => s.xsampWaits d c i) = true)
    (hg : (XtalArb.turn (fun c => (List.range 64).any fun i => s.xsampWaits d c i) (fun c => s.fld R.CTX_SHARES_B.XTAL c)
      ⟨tget 0 s.xtalVisit d / 2 % 16, decide (tget 0 s.xtalVisit d % 2 = 1),
        (List.range 16).foldl (fun t c => tset 0 t c (tget 0 s.xtalDeficit (16 * d + c))) [], none⟩).grant = some c) :
    (s.xtalPick d).1 = some c := by
  unfold State.xtalPick
  rw [if_neg (by rw [hw]; decide), show List.range 1700 = 0 :: (List.range 1699).map Nat.succ from List.range_succ_eq_map,
    List.foldl_cons, turns_after_grant _ _ _ _ (by rw [hg]; rfl)]
  exact hg

theorem waiter_granted : (waiter.xtalPick 0).1 = some (0 : Fin 16).val :=
  pick_at_once _ _ _ (by decide +kernel) (by decide +kernel)

/-! ### Words of the spec's encodings

Each word is written out from the field tables of 03_suina_core.md and 04_matrix_engine_and_pan_arithmetic.md. -/

/-- MUL s1, s2, s3: opcode 0x03, RD [12:8], RS1 [17:13], RS2 [22:18] (R85). -/
theorem test_decode_mul : decodeS (0x03 + 1 * 2 ^ 8 + 2 * 2 ^ 13 + 3 * 2 ^ 18) = .r .mul 1#5 2#5 3#5 0#5 := by decide +kernel

/-- ADDI s1, s2, −1: opcode 0x18, IMM [49:18] (R85). -/
theorem test_decode_addi : decodeS 0x0003FFFFFFFC4118#64 = .i .addi 1#5 2#5 0xFFFFFFFF#32 := by decide +kernel

/-- LDS s7, [s7 + 0x40] of 8 bytes: opcode 0x38 (R85). -/
theorem test_decode_lds : decodeS 0x00000000080CE738#64 = .lds 7#5 7#5 3#2 false 0x40#32 := by decide +kernel

/-- BNE s3, s2, −2 bundles: opcode 0x02 (R86). -/
theorem test_decode_bne : decodeB 0xFFF84302#32 = .bc .ne 3#5 2#5 0x3FFE#14 := by decide +kernel

/-- VADD of fp32 under m1: opcode 0x01 (R87, R88). -/
theorem test_decode_vadd : decodeV 0x0000000000000000100C4101#96 =
    .op .vadd ⟨1#5, 2#5, 3#5, 0#5, 1#3, false, 0#3, 0#3, false, false, 0#32⟩ := by decide +kernel

/-- MX_STF with CLR: opcode 0x15 (R132). -/
theorem test_decode_stf : decodeM 0x00000000000000000000000000400115#128 = .stf 1#14 true := by decide +kernel

/-- X_SCOPY of one 64-byte unit: opcode 0x31 (R89). -/
theorem test_decode_scopy : decodeX 0x000000000000040020004131#96 = .scopy 1#6 1#14 2#14 1#14 := by decide +kernel

/-- A reserved S opcode (R79). -/
theorem test_decode_reserved : decodeS 0x00000000000000FE#64 = .illegal := by decide +kernel

/-- The table gives its rows no bits. -/
theorem test_table_word : decodeTableWord 8 3 = none := rfl

/-! ### Terms that WellFormed refuses, one for each check -/

theorem test_wf_bundle : (Instr.add 0 1#5 2#5 3#5 0#5 { bare with x := .illegal }).wf = false := by decide +kernel
theorem test_wf_slot : (Instr.xXfer 0 1#6 true 2#5 0#14 0#14 bare).wf = false := by decide +kernel
theorem test_wf_surround : (Instr.put (pk 0x10 []) ⟨.ok, .ok, [12288], []⟩).wf = false := by decide +kernel
theorem test_wf_packet : (Instr.put { pk 0x10 [] with dst := 4096 } ⟨.ok, .ok, [], []⟩).wf = false := by decide +kernel
theorem test_wf_ecc : (Instr.mxLda 0 (.corrected 64 0)).wf = false := by decide +kernel
theorem test_wf_drop : (Instr.mxRd 0 [12288]).wf = false := by decide +kernel
theorem test_wf_message : (Instr.bcast { msg 5 0 with inst := 256 }).wf = false := by decide +kernel
theorem test_wf_config : (Instr.configurationRequest 0 (.hdmCommit 0 17)).wf = false := by decide +kernel
theorem test_wf_lengths : (Instr.sqFetch 0 []).wf = false := by decide +kernel
theorem test_wf_good : (Instr.add 0 1#5 2#5 3#5 0#5 bare).wf = true := by decide +kernel

/-! ### Single steps -/

/-- The state after a command, or the same state where it has none. -/
def after (c : Instr) (s : State) : State :=
  match exec c s with
  | .next t => t
  | _ => s

/-- Core 0 after a bundle of one S operation, with s2 and s3 as given. -/
def scalar (op : SOp) (c : Bundle → Instr) (x y : Word64) : Core :=
  (after (c bare) ((holding (withS bare op)).modCore 0 fun k => (k.setS 2 x).setS 3 y)).core 0

/-- ADD wraps, and the pc advances by one bundle (R77, R85). -/
theorem test_add_wraps :
    let k := scalar (.r .add 1#5 2#5 3#5 0#5) (.add 0 1#5 2#5 3#5 0#5) 0xFFFFFFFFFFFFFFFF#64 2#64
    k.s 1#5 = 1#64 ∧ k.pc = 64#48 := by decide +kernel

/-- Division by zero returns all ones, and the remainder is the dividend (R83). -/
theorem test_div_by_zero : (scalar (.r .div 1#5 2#5 3#5 0#5) (.div 0 1#5 2#5 3#5 0#5) 7#64 0#64).s 1#5 = 0xFFFFFFFFFFFFFFFF#64 := by
  decide +kernel
theorem test_rem_by_zero : (scalar (.r .rem 1#5 2#5 3#5 0#5) (.rem 0 1#5 2#5 3#5 0#5) 7#64 0#64).s 1#5 = 7#64 := by decide +kernel

/-- Signed division rounds toward zero: −7 / 2 is −3 (R85). -/
theorem test_div_toward_zero : (scalar (.r .div 1#5 2#5 3#5 0#5) (.div 0 1#5 2#5 3#5 0#5) (-7#64) 2#64).s 1#5 = -3#64 := by
  decide +kernel

/-- 1.5 + 2.5 is 4.0 in FP32 (R85). -/
theorem test_fadd :
    ((scalar (.r .fadd 1#5 2#5 3#5 0#5) (.faddFsubFmulFdiv 0 0 1#5 2#5 3#5 0#5) 0x3FC00000#64 0x40200000#64).s 1#5).setWidth 32 =
      0x40800000#32 := by decide +kernel

/-- STS then reads back little-endian (R80, R85). -/
theorem test_sts_bytes :
    (scalar (.sts 3#5 2#5 1#2 false 4#32) (.sts 0 3#5 2#5 1#2 4#32) 0x1000#64 0xABCD#64).scr =
      [(201, 1#8), (256, 1#8), (260, 64#8), (0x1004, 0xCD#8), (0x1005, 0xAB#8)] := by decide +kernel

/-- SLLI by 64, a reserved encoding, traps with cause 2 and does not advance the pc (R79, R85, R92). -/
theorem test_illegal_traps :
    let t := after (.slliSrliSrai 0 0 1#5 2#5 64#32 bare) (holding (withS bare (.i .slli 1#5 2#5 64#32)))
    t.coreState 0 = coreTrapped ∧ t.fld R.CORE_ECAUSE.CAUSE 0 = 2 ∧ (t.core 0).pc = 0#48 := by decide +kernel

/-- A bundle that the core's memory does not hold has no effect (log entry 100). -/
theorem test_other_bundle : after (.sub 0 1#5 2#5 3#5 0#5 bare) (holding (withS bare (.r .add 1#5 2#5 3#5 0#5))) =
    holding (withS bare (.r .add 1#5 2#5 3#5 0#5)) := by decide +kernel

/-- PWR_CAP takes 700 W and keeps its value on 699 W, a reserved encoding (R5, R439). -/
theorem test_cap : ((after (.pwrCapWrite 16 700#12) serving).fld R.PWR_CAP.CAP, (after (.pwrCapWrite 16 699#12) serving).fld R.PWR_CAP.CAP) =
    (700, 2000) := by decide +kernel

/-- TICK counts on an empty queue while the root PLL is locked, and not while it is not (R54, log entry 7). -/
theorem test_tick :
    (match step (State.reset.setFld R.CLK_STATUS.ROOT_LOCK 0 0 1) with | .next t => t.tick | _ => 0) = 1 ∧
      (match step State.reset with | .next t => t.tick | _ => 1) = 0 := by decide +kernel

/-- A command put in front of the queue is the one that a step runs (log entry 181). -/
theorem test_front : step { State.reset with pending := [.pwrEnAssert] } = exec .pwrEnAssert State.reset := rfl

/-! ### Hypotheses of the statements about every state -/

theorem wit_EveryStepKeepsTheMemoryForm : State.reset.memoryForm ∧ ∃ t, step State.reset = .next t :=
  ⟨⟨rfl, rfl, fun _ => rfl⟩, _, rfl⟩

theorem wit_BundleEncodingRoundTrip : bundleLegal (withX bare (.xfer 63#6 true 31#5 0x2FFF#14 12288#14)) = true := by decide +kernel

/-! ### Hypotheses that are met -/

theorem wit_ScalarIntegerCommands_bundles : ([(withS bare (.r .add 31#5 31#5 31#5 31#5)),
    (withS bare (.r .sub 31#5 31#5 31#5 31#5)),
    (withS bare (.r .mul 31#5 31#5 31#5 31#5)),
    (withS bare (.r .mulh 31#5 31#5 31#5 31#5)),
    (withS bare (.r .mulhu 31#5 31#5 31#5 31#5)),
    (withS bare (.r .div 31#5 31#5 31#5 31#5)),
    (withS bare (.r .divu 31#5 31#5 31#5 31#5)),
    (withS bare (.r .rem 31#5 31#5 31#5 31#5)),
    (withS bare (.r .remu 31#5 31#5 31#5 31#5)),
    (withS bare (.r .and 31#5 31#5 31#5 31#5)),
    (withS bare (.r .or 31#5 31#5 31#5 31#5)),
    (withS bare (.r .xor 31#5 31#5 31#5 31#5)),
    (withS bare (.r .sll 31#5 31#5 31#5 31#5)),
    (withS bare (.r .srl 31#5 31#5 31#5 31#5)),
    (withS bare (.r .sra 31#5 31#5 31#5 31#5)),
    (withS bare (.r .slt 31#5 31#5 31#5 31#5)),
    (withS bare (.r .sltu 31#5 31#5 31#5 31#5)),
    (withS bare (.r .min 31#5 31#5 31#5 31#5)),
    (withS bare (.r .max 31#5 31#5 31#5 31#5)),
    (withS bare (.r .minu 31#5 31#5 31#5 31#5)),
    (withS bare (.r .maxu 31#5 31#5 31#5 31#5)),
    (withS bare (.r .sel 31#5 31#5 31#5 31#5)),
    (withS bare (.i .addi 31#5 31#5 3#32)),
    (withS bare (.i .andi 31#5 31#5 3#32)),
    (withS bare (.i .ori 31#5 31#5 3#32)),
    (withS bare (.i .xori 31#5 31#5 3#32)),
    (withS bare (.i .slli 31#5 31#5 3#32)),
    (withS bare (.i .srli 31#5 31#5 3#32)),
    (withS bare (.i .srai 31#5 31#5 3#32)),
    (withS bare (.i .slti 31#5 31#5 3#32)),
    (withS bare (.li 31#5 3#48)),
    (withS bare (.lih 31#5 3#48)),
    (withS bare (.rdtick 31#5 0#5 0#5 0#5)),
    (withS bare (.rdtag 31#5 0#5 3#32)),
    (withS bare (.rdgauge 31#5 3#8))] : List Bundle).all
    (fun w => (holding w).takesBundle 0 w) = true := by decide +kernel

theorem wit_ScalarFloatCommands_bundles : ([(withS bare (.r .fadd 31#5 31#5 31#5 31#5)),
    (withS bare (.r .fsub 31#5 31#5 31#5 31#5)),
    (withS bare (.r .fmul 31#5 31#5 31#5 31#5)),
    (withS bare (.r .fdiv 31#5 31#5 31#5 31#5)),
    (withS bare (.r .fsqrt 31#5 31#5 31#5 31#5)),
    (withS bare (.r .fmin 31#5 31#5 31#5 31#5)),
    (withS bare (.r .fmax 31#5 31#5 31#5 31#5)),
    (withS bare (.r .fma 31#5 31#5 31#5 31#5)),
    (withS bare (.r .fcvtIF 31#5 31#5 31#5 31#5)),
    (withS bare (.r .fcvtFI 31#5 31#5 31#5 31#5)),
    (withS bare (.r .feq 31#5 31#5 31#5 31#5)),
    (withS bare (.r .flt 31#5 31#5 31#5 31#5)),
    (withS bare (.r .fle 31#5 31#5 31#5 31#5))] : List Bundle).all
    (fun w => (holding w).takesBundle 0 w) = true := by decide +kernel

theorem wit_ScratchpadAndUnifiedCommands_bundles : ([(withS bare (.lds 31#5 31#5 3#2 true 3#32)),
    (withS bare (.sts 31#5 31#5 3#2 false 3#32)),
    (withS bare (.ldu 31#5 31#5 3#2 true 3#32)),
    (withS bare (.stu 31#5 31#5 3#2 false 3#32)),
    (withS bare (.dinv 0#5 31#5 31#5)),
    (withS bare (.iflush 0#5 0#5 0#5 0#5))] : List Bundle).all
    (fun w => (holding w).takesBundle 0 w) = true := by decide +kernel

theorem wit_BranchCommands_bundles : ([(withB bare (.bc .eq 31#5 31#5 3#14)),
    (withB bare (.bc .ne 31#5 31#5 3#14)),
    (withB bare (.bc .lt 31#5 31#5 3#14)),
    (withB bare (.bc .ge 31#5 31#5 3#14)),
    (withB bare (.bc .ltu 31#5 31#5 3#14)),
    (withB bare (.bc .geu 31#5 31#5 3#14)),
    (withB bare (.j 3#24)),
    (withB bare (.call 3#24)),
    (withB bare (.jr 31#5)),
    (withB bare (.callr 31#5)),
    (withB bare (.ret)),
    (withB bare (.loop 3#2 31#5 3#17)),
    (withB bare (.lend 3#2)),
    (withB bare (.wait 31#5)),
    (withB bare (.halt 0#16)),
    (withB bare (.brk 3#16))] : List Bundle).all
    (fun w => (holding w).takesBundle 0 w) = true := by decide +kernel

theorem wit_VectorLaneCommands_bundles : ([(withV bare 0 .vadd ⟨1#5, 2#5, 3#5, 4#5, 0#3, false, 0#3, 0#3, false, false, 0#32⟩),
    (withV bare 0 .vsub ⟨1#5, 2#5, 3#5, 4#5, 0#3, false, 0#3, 0#3, false, false, 0#32⟩),
    (withV bare 0 .vmul ⟨1#5, 2#5, 3#5, 4#5, 0#3, false, 0#3, 0#3, false, false, 0#32⟩),
    (withV bare 0 .vfma ⟨1#5, 2#5, 3#5, 4#5, 0#3, false, 0#3, 0#3, false, false, 0#32⟩),
    (withV bare 0 .vmin ⟨1#5, 2#5, 3#5, 4#5, 0#3, false, 0#3, 0#3, false, false, 0#32⟩),
    (withV bare 0 .vmax ⟨1#5, 2#5, 3#5, 4#5, 0#3, false, 0#3, 0#3, false, false, 0#32⟩),
    (withV bare 0 .vabs ⟨1#5, 2#5, 3#5, 4#5, 0#3, false, 0#3, 0#3, false, false, 0#32⟩),
    (withV bare 0 .vneg ⟨1#5, 2#5, 3#5, 4#5, 0#3, false, 0#3, 0#3, false, false, 0#32⟩),
    (withV bare 0 .vand ⟨1#5, 2#5, 3#5, 4#5, 0#3, false, 2#3, 0#3, false, false, 0#32⟩),
    (withV bare 0 .vor ⟨1#5, 2#5, 3#5, 4#5, 0#3, false, 2#3, 0#3, false, false, 0#32⟩),
    (withV bare 0 .vxor ⟨1#5, 2#5, 3#5, 4#5, 0#3, false, 2#3, 0#3, false, false, 0#32⟩),
    (withV bare 0 .vshl ⟨1#5, 2#5, 3#5, 4#5, 0#3, false, 2#3, 0#3, false, false, 0#32⟩),
    (withV bare 0 .vsra ⟨1#5, 2#5, 3#5, 4#5, 0#3, false, 2#3, 0#3, false, false, 0#32⟩),
    (withV bare 0 .vsrl ⟨1#5, 2#5, 3#5, 4#5, 0#3, false, 2#3, 0#3, false, false, 0#32⟩),
    (withV bare 0 .vexp ⟨1#5, 2#5, 3#5, 4#5, 0#3, false, 0#3, 0#3, false, false, 0#32⟩),
    (withV bare 0 .vrcp ⟨1#5, 2#5, 3#5, 4#5, 0#3, false, 0#3, 0#3, false, false, 0#32⟩),
    (withV bare 0 .vrsqrt ⟨1#5, 2#5, 3#5, 4#5, 0#3, false, 0#3, 0#3, false, false, 0#32⟩),
    (withV bare 0 .vcvt ⟨1#5, 2#5, 3#5, 4#5, 0#3, false, 0#3, 0#3, false, false, 0#32⟩)] : List Bundle).all
    (fun w => (holding w).takesBundle 0 w) = true := by decide +kernel

theorem wit_VectorMoveCommands_bundles : ([(withV bare 0 .vperm ⟨1#5, 2#5, 3#5, 4#5, 0#3, false, 0#3, 0#3, false, false, 0#32⟩),
    (withV bare 0 .vbcast ⟨1#5, 2#5, 3#5, 4#5, 0#3, false, 0#3, 0#3, false, false, 0#32⟩),
    (withV bare 0 .vsel ⟨1#5, 2#5, 3#5, 4#5, 0#3, false, 0#3, 0#3, false, false, 0#32⟩),
    (withV bare 0 .vmov ⟨1#5, 2#5, 3#5, 4#5, 0#3, false, 0#3, 0#3, false, false, 0#32⟩),
    (withV bare 0 .vld ⟨1#5, 2#5, 3#5, 4#5, 0#3, false, 0#3, 0#3, false, false, 0#32⟩),
    (withV bare 0 .vst ⟨1#5, 2#5, 3#5, 4#5, 0#3, false, 0#3, 0#3, false, false, 0#32⟩),
    (withV bare 0 .vceq ⟨1#5, 2#5, 3#5, 4#5, 0#3, false, 0#3, 0#3, false, false, 0#32⟩),
    (withV bare 0 .vclt ⟨1#5, 2#5, 3#5, 4#5, 0#3, false, 0#3, 0#3, false, false, 0#32⟩),
    (withV bare 0 .vcle ⟨1#5, 2#5, 3#5, 4#5, 0#3, false, 0#3, 0#3, false, false, 0#32⟩),
    (withV bare 0 .vrsum ⟨1#5, 2#5, 3#5, 4#5, 0#3, false, 0#3, 0#3, false, false, 0#32⟩),
    (withV bare 0 .vrmax ⟨1#5, 2#5, 3#5, 4#5, 0#3, false, 0#3, 0#3, false, false, 0#32⟩),
    (withV bare 0 .vrmin ⟨1#5, 2#5, 3#5, 4#5, 0#3, false, 0#3, 0#3, false, false, 0#32⟩),
    (withV bare 0 .mand ⟨1#5, 2#5, 3#5, 4#5, 0#3, false, 0#3, 0#3, false, false, 0#32⟩),
    (withV bare 0 .mor ⟨1#5, 2#5, 3#5, 4#5, 0#3, false, 0#3, 0#3, false, false, 0#32⟩),
    (withV bare 0 .mxor ⟨1#5, 2#5, 3#5, 4#5, 0#3, false, 0#3, 0#3, false, false, 0#32⟩),
    (withV bare 0 .mnot ⟨1#5, 2#5, 3#5, 4#5, 0#3, false, 0#3, 0#3, false, false, 0#32⟩)] : List Bundle).all
    (fun w => (holding w).takesBundle 0 w) = true := by decide +kernel

theorem wit_NodeOperationCommands_bundles : ([(withS bare (.ldn 31#5 31#5 3#2 true 3#32)),
    (withS bare (.stn 31#5 31#5 3#2 false 3#32)),
    (withS bare (.amo 31#5 31#5 31#5 31#5 .add true)),
    (withS bare (.amo 31#5 31#5 31#5 31#5 .add false))] : List Bundle).all
    (fun w => (holding w).takesBundle 0 w) = true := by decide +kernel

theorem wit_TransferSlotCommands_bundles : ([(withX bare (.xfer 63#6 true 31#5 3#14 3#14)),
    (withX bare (.scopy 63#6 3#14 3#14 3#14)),
    (withX bare (.lmark 63#6 3#8)),
    (withX bare (.lwait 63#6 3#8)),
    (withX bare (.gsnap 63#6 3#14)),
    (withX bare (.asel 63#6 3#14 3#8 3#16)),
    (withX bare (.assay 63#6 3#14 3#14 15#4 3#8 3#25)),
    (withX bare (.awalk 63#6 3#14 3#14)),
    (withX bare (.xsamp 63#6 3#14 3#14))] : List Bundle).all
    (fun w => (holding w).takesBundle 0 w) = true := by decide +kernel

theorem wit_EngineSlotCommands_bundles : ([(withX bare (.rkpost 63#6 3#14 3#10 3#8 3#12 3#20 3#8)),
    (withX bare (.bsend 63#6 3#14 3#8 true 448#10 64#7 512#10)),
    (withX bare (.bwait 63#6 3#14 3#8 true true 3#12)),
    (withX bare (.bret 63#6 3#12 true)),
    (withX bare (.msg 63#6 4#14))] : List Bundle).all
    (fun w => (holding w).takesBundle 0 w) = true := by decide +kernel

theorem wit_BundleSlotsReadOldState_bundles : ([(withS { bare with b := .bc .eq 31#5 31#5 3#14 } (.r .add 31#5 31#5 31#5 0#5)),
    (withV { bare with v1 := .op .vmov ⟨2#5, 1#5, 0#5, 0#5, 0#3, false, 2#3, 0#3, false, false, 0#32⟩ } 0 .vmov ⟨1#5, 2#5, 0#5, 0#5, 0#3, false, 2#3, 0#3, false, false, 0#32⟩)] : List Bundle).all
    (fun w => (holding w).takesBundle 0 w) = true := by decide +kernel

theorem wit_WeirCommands_writes : ([(.pwr, 0, 0x100)] : List (Page × Nat × Nat)).all
    (fun w => serving.takesWrite 16 w.1 w.2.1 w.2.2) = true ∧ serving.on R.BIST_STATUS.BUSY = false ∧ serving.on R.DBG_STATUS.BUSY = false := by decide +kernel

theorem wit_PowerAndResetRegisterCommands_writes : ([(.clk, 0, 0x100), (.dev, 0, 0x100), (.rst, 0, 0x110), (.rst, 0, 0x108), (.rst, 0, 0x10C), (.rst, 0, 0x100), (.rst, 0, 0x104), (.ld, 15, 0x140), (.boot, 0, 0x114), (.boot, 0, 0x104)] : List (Page × Nat × Nat)).all
    (fun w => serving.takesWrite 16 w.1 w.2.1 w.2.2) = true ∧ serving.on R.BIST_STATUS.BUSY = false ∧ serving.on R.DBG_STATUS.BUSY = false := by decide +kernel

theorem wit_MemoryPathRegisterCommands_writes : ([(.core, 511, 0x108), (.assay, 15, 0xC00), (.sluice, 15, 0x100), (.sluice, 15, 0x14C), (.xlat, 15, 0x140), (.xlat, 15, 0x100), (.attn, 15, 0x100), (.rake, 15, 0x118)] : List (Page × Nat × Nat)).all
    (fun w => serving.takesWrite 16 w.1 w.2.1 w.2.2) = true ∧ serving.on R.BIST_STATUS.BUSY = false ∧ serving.on R.DBG_STATUS.BUSY = false := by decide +kernel

theorem wit_ServingAndFabricRegisterCommands_writes : ([(.barge, 15, 0x100), (.barge, 15, 0x180), (.mani, 15, 0x118), (.toll, 15, 0x118), (.link, 1, 0x108), (.lock, 0, 0x108), (.msf, 15, 0x100), (.msf, 15, 0x134), (.wharf, 0, 0x100), (.wharf, 0, 0x108)] : List (Page × Nat × Nat)).all
    (fun w => serving.takesWrite 16 w.1 w.2.1 w.2.2) = true ∧ serving.on R.BIST_STATUS.BUSY = false ∧ serving.on R.DBG_STATUS.BUSY = false := by decide +kernel

theorem wit_ContextRegisterCommands_writes : ([(.ld, 15, 0x100), (.ctx, 15, 0x100), (.ctx, 15, 0x118), (.duty, 15, 0x124)] : List (Page × Nat × Nat)).all
    (fun w => serving.takesWrite 16 w.1 w.2.1 w.2.2) = true ∧ serving.on R.BIST_STATUS.BUSY = false ∧ serving.on R.DBG_STATUS.BUSY = false := by decide +kernel

theorem wit_GaugeCommands_writes : ([(.gauge, 7, 0x100), (.gaugeM, 0, 0x100), (.gauge, 7, 0x184), (.gaugeM, 0, 0x118), (.gauge, 7, 0x10C)] : List (Page × Nat × Nat)).all
    (fun w => serving.takesWrite 16 w.1 w.2.1 w.2.2) = true ∧ serving.on R.BIST_STATUS.BUSY = false ∧ serving.on R.DBG_STATUS.BUSY = false := by decide +kernel

theorem wit_SecurityAndDebugRegisterCommands_writes : ([(.sec, 0, 0x138), (.dbg, 0, 0x108), (.dbg, 0, 0x110), (.dbg, 0, 0x120), (.dbg, 0, 0x138), (.bist, 0, 0x100), (.loop, 0, 0x104), (.fault, 0, 0x100)] : List (Page × Nat × Nat)).all
    (fun w => serving.takesWrite 16 w.1 w.2.1 w.2.2) = true ∧ serving.on R.BIST_STATUS.BUSY = false ∧ serving.on R.DBG_STATUS.BUSY = false := by decide +kernel

theorem wit_ContextCommandResults_writes : ([(.ctx, 15, 0x100)] : List (Page × Nat × Nat)).all
    (fun w => serving.takesWrite 16 w.1 w.2.1 w.2.2) = true ∧ serving.on R.BIST_STATUS.BUSY = false ∧ serving.on R.DBG_STATUS.BUSY = false := by decide +kernel

theorem wit_UpdateQueueResults_writes : ([(.xlat, 15, 0x140)] : List (Page × Nat × Nat)).all
    (fun w => serving.takesWrite 16 w.1 w.2.1 w.2.2) = true ∧ serving.on R.BIST_STATUS.BUSY = false ∧ serving.on R.DBG_STATUS.BUSY = false := by decide +kernel

theorem wit_ServiceCommandResults_writes : ([(.bist, 0, 0x100), (.loop, 0, 0x104), (.dbg, 0, 0x110), (.mani, 15, 0x118), (.msf, 15, 0x134), (.rake, 15, 0x118), (.core, 511, 0x108)] : List (Page × Nat × Nat)).all
    (fun w => serving.takesWrite 16 w.1 w.2.1 w.2.2) = true ∧ serving.on R.BIST_STATUS.BUSY = false ∧ serving.on R.DBG_STATUS.BUSY = false := by decide +kernel

theorem wit_ResetProgressCommands : ∃ (s : State) (d : Nat) (n : Nat), (s.haltBegun = false) ∧ ((∃ r ∈ s.resets, r.domain = d ∧ r.inst = n)) :=
  ⟨{ up with resets := [⟨1, 2, false, false⟩] }, 1, 2, by decide +kernel⟩

theorem wit_BootCommands :
    (∃ (s : State), (s.on R.CLK_STATUS.ROOT_LOCK = true) ∧ (s.fld R.BOOT_STATUS.STAGE = 1) ∧ (s.sec.fuses.life < 4)) ∧
    (∃ (s : State), s.fld R.BOOT_STATUS.STAGE = 3) ∧
    (∃ (s : State), s.fld R.BOOT_STATUS.STAGE = 3) ∧
    (∃ (s : State), s.fld R.BOOT_STATUS.STAGE = 4) ∧
    (∃ (s : State), (s.power.recovery = true) ∧ (s.fld R.BOOT_MBOX_STATUS.STATE = 1)) ∧
    (∃ (s : State), (s.power.running = true) ∧ (s.fld R.BOOT_MBOX_STATUS.STATE = 1)) :=
  ⟨⟨up.setFld R.CLK_STATUS.ROOT_LOCK 0 0 1 |>.setFld R.BOOT_STATUS.STAGE 0 0 1, by decide +kernel⟩,
  ⟨up.setFld R.BOOT_STATUS.STAGE 0 0 3, by decide +kernel⟩,
  ⟨up.setFld R.BOOT_STATUS.STAGE 0 0 3, by decide +kernel⟩,
  ⟨up.setFld R.BOOT_STATUS.STAGE 0 0 4, by decide +kernel⟩,
  ⟨{ up with power := { up.power with recovery := true } }.setFld R.BOOT_MBOX_STATUS.STATE 0 0 1, by decide +kernel⟩,
  ⟨up.setFld R.BOOT_MBOX_STATUS.STATE 0 0 1, by decide +kernel⟩⟩

theorem wit_JtagCommands : ∃ (s : State) (a : Nat), (s.jtagOpen = true) ∧ (s.jtagBar (a % 2 ^ 32) = 0) ∧ (s.board.mgmtUp = true) :=
  ⟨up.setFld R.DBG_SCOPE.SCOPES 0 0 4, 0x1000, by decide +kernel⟩

theorem wit_WeirCommands :
    (∃ (s : State), (s.on R.BIST_STATUS.BUSY = false ∨ s.power.heldTarget = none)) ∧
    (∃ (s : State), (s.on R.BIST_STATUS.BUSY = false ∨ s.power.heldTarget = none)) :=
  ⟨⟨up, by decide +kernel⟩,
  ⟨up, by decide +kernel⟩⟩

theorem wit_MatrixEngineCommands :
    (∃ (s : State) (core : Fin 512) (clrAcc : Bool) (clrFlags : Bool) (mode : BitVec 2) (bp : BitVec 8), s.mxHead core = some (.cfg clrAcc clrFlags mode bp)) ∧
    (∃ (s : State) (core : Fin 512) (ecc : Ecc) (src : BitVec 14) (rowsM1 : BitVec 4) (fmt : BitVec 2) (kuM1 : BitVec 9) (stride : BitVec 14) (scaleSrc : BitVec 14) (en : Bool), (mLegal (.lda src rowsM1 fmt kuM1 stride scaleSrc en) = true) ∧ (s.mxHead core = some (.lda src rowsM1 fmt kuM1 stride scaleSrc en)) ∧ (ecc ≠ .uncorrectable)) ∧
    (∃ (s : State) (core : Fin 512) (wsrc : BitVec 14) (len : BitVec 14) (slabsM1 : BitVec 7) (koff : BitVec 7), s.mxHead core = some (.mmw wsrc len slabsM1 koff)) ∧
    (∃ (s : State) (core : Fin 512) (bsrc : BitVec 14) (bfmt : BitVec 2) (chM1 : BitVec 10) (koff : BitVec 10), s.mxHead core = some (.mma bsrc bfmt chM1 koff)) ∧
    (∃ (s : State) (core : Fin 512) (dst : BitVec 14) (ofmt : BitVec 2) (tscale : Bool) (clr : Bool) (oshift : BitVec 8) (stride : BitVec 14), s.mxHead core = some (.rd dst ofmt tscale clr oshift stride)) ∧
    (∃ (s : State) (core : Fin 512) (dst : BitVec 14) (clr : Bool), s.mxHead core = some (.stf dst clr)) :=
  ⟨⟨engine (.cfg true true 2#2 3#8), 0, true, true, 2#2, 3#8, by decide +kernel⟩,
  ⟨engine (.lda 0#14 0#4 0#2 0#9 1#14 0#14 false), 0, .ok, 0#14, 0#4, 0#2, 0#9, 1#14, 0#14, false, by decide +kernel⟩,
  ⟨engine (.mmw 0#14 1#14 0#7 0#7), 0, 0#14, 1#14, 0#7, 0#7, by decide +kernel⟩,
  ⟨engine (.mma 0#14 0#2 1#10 0#10), 0, 0#14, 0#2, 1#10, 0#10, by decide +kernel⟩,
  ⟨engine (.rd 0#14 1#2 true true 3#8 1#14), 0, 0#14, 1#2, true, true, 3#8, 1#14, by decide +kernel⟩,
  ⟨engine (.stf 0x2FFF#14 true), 0, 0x2FFF#14, true, by decide +kernel⟩⟩

theorem wit_CoreEventCommands :
    (∃ (s : State) (core : Fin 512) (w : Bundle), (s.atPc core w = true) ∧ ((s.core core).ra = none)) ∧
    (∃ (s : State) (core : Fin 512) (tag : BitVec 6) (x : XPend), ((s.core core).xop tag.toNat 0x31 = some x) ∧ ((s.core core).xop tag.toNat 0x30 = none)) ∧
    (∃ (s : State) (core : Fin 512) (tag : BitVec 6) (x : XPend), ((s.core core).xop tag.toNat 0x30 = some x) ∧ (s.xferHeld core x = false)) ∧
    (∃ (s : State) (core : Fin 512), (s.executes core = true) ∧ ((s.core core).ra = none) ∧ ((s.fetch core).1 = .fail)) :=
  ⟨⟨holding bare, 0, bare, by decide +kernel⟩,
  ⟨withCore { Core.reset with xops := [pend 63 0x31 false] }, 0, 63#6, pend 63 0x31 false, by decide +kernel⟩,
  ⟨withCore { Core.reset with xops := [pend 63 0x30 false] }, 0, 63#6, pend 63 0x30 false, by decide +kernel⟩,
  ⟨((holding bare).setFld R.CORE_STATE.STATE 1 0 2).setFld R.XLAT_VA_LO.ADDR 0 0 1, 1, by decide +kernel⟩⟩

theorem wit_SluiceEventCommands :
    (∃ (s : State) (ctx : Fin 16) (sub : BitVec 32) (ue : Bool) (k : Copy), (s.halted = false) ∧ ((s.ctx ctx).copy sub.toNat = k) ∧ ((s.ctx ctx).move sub.toNat = Copy.none) ∧ (k.state = 0) ∧ (k ≠ Copy.none) ∧ (k.written = false) ∧ (k.immediate = false) ∧ (leafTier (s.leaf ctx sub.toNat) < 2) ∧ (k.tier < 2) ∧ (leafTier k.home < 2) ∧ (ue = false)) ∧
    (∃ (s : State) (ctx : Fin 16) (sub : BitVec 32) (ue : Bool) (k : Copy), (s.halted = false) ∧ ((s.ctx ctx).copy sub.toNat = k) ∧ ((s.ctx ctx).move sub.toNat = Copy.none) ∧ (k.state = 3) ∧ (k.written = false) ∧ (k.back = false) ∧ (k.tier < 2) ∧ (leafTier k.home < 2) ∧ (ue = false)) ∧
    (∃ (s : State) (ctx : Fin 16) (sub : BitVec 32), s.halted = true ∨ (s.ctx ctx).inFlight sub.toNat = false) ∧
    (∃ (s : State) (ctx : Fin 16), ((s.ctx ctx).waiting 0 = []) ∧ ((s.ctx ctx).waiting 1 = []) ∧ ((s.ctx ctx).cmd = none)) ∧
    (∃ (s : State) (ctx : Fin 16), tableWf Copy.none 0 (s.ctx ctx).copies = true) :=
  ⟨⟨withCtx { Ctx.reset with copies := [(1, { Copy.none with tier := 1 })] }, 0, 1#32, false, { Copy.none with tier := 1 }, by decide +kernel⟩,
  ⟨withCtx { Ctx.reset with copies := [(1, { Copy.none with state := 3 })] }, 0, 1#32, false, { Copy.none with state := 3 }, by decide +kernel⟩,
  ⟨up, 0, 3#32, by decide +kernel⟩,
  ⟨up, 0, by decide +kernel⟩,
  ⟨up, 0, by decide +kernel⟩⟩

theorem wit_TranslationEventCommands : ∃ (s : State) (die : Fin 8) (ctx : Fin 16) (page : BitVec 27) (w : Walk), (s.walks.find? fun w => decide (w.die = die.val ∧ w.ctx = ctx.val ∧ w.page = page.toNat) && !w.failed && !w.host) = some w :=
  ⟨{ up with walks := [⟨0, 0, 3, false, false, false, false, false, false, 0, 0⟩] }, 0, 0, 3#27, ⟨0, 0, 3, false, false, false, false, false, false, 0, 0⟩, by decide +kernel⟩

theorem wit_AttentionEventCommands :
    (∃ (s : State) (die : Fin 8), 32 ≤ s.walksOn die ∨ rotPick 64 (tget 0 s.walkPtr die) (fun i => s.walkWaits (64 * die + i)) = none) ∧
    (∃ (s : State) (die : Fin 8) (i : Fin 64), (s.walksOn die < 32) ∧ (rotPick 64 (tget 0 s.walkPtr die) (fun i => s.walkWaits (64 * die + i)) = some i.val)) ∧
    (∃ (s : State) (core : Fin 512) (tag : BitVec 6) (x : XPend), (s.core core).xop tag.toNat 0x48 = some x) :=
  ⟨⟨up, 0, by decide +kernel⟩,
  ⟨{ up with cores := [(63, { Core.reset with xops := [pend 0 0x48 false] })] }, 0, 63, by decide +kernel⟩,
  ⟨withCore { Core.reset with xops := [pend 63 0x48 true] }, 0, 63#6, pend 63 0x48 true, by decide +kernel⟩⟩

theorem wit_BargeEventCommands :
    (∃ (s : State) (core : Fin 512) (tag : BitVec 6) (x : XPend), (s.core core).xop tag.toNat 0x4D = some x) ∧
    (∃ (s : State) (ctx : Fin 16) (layer : BitVec 8) (expert : BitVec 12) (index : Fin 8) (p : Placement), ((s.ctx ctx).placements.find? fun p => decide (p.layer = layer.toNat ∧ p.expert = expert.toNat ∧ p.index = index.val ∧ p.kind = 2) && !p.ready) = some p) :=
  ⟨⟨withCore { Core.reset with xops := [pend 63 0x4D true] }, 0, 63#6, pend 63 0x4D true, by decide +kernel⟩,
  ⟨withCtx { Ctx.reset with placements := [⟨3, 3, 0, ⟨true, 1, 2, 3, 4⟩, false, 2⟩] }, 0, 3#8, 3#12, 0, ⟨3, 3, 0, ⟨true, 1, 2, 3, 4⟩, false, 2⟩, by decide +kernel⟩⟩

theorem wit_StepMessageCommands :
    (∃ (s : State) (m : StepMsg), s.stepTarget 1 m = none) ∧
    (∃ (s : State) (m : StepMsg) (ctx : Fin 16), s.stepTarget 1 m = some ctx.val) ∧
    (∃ (s : State) (m : StepMsg), s.stepTarget 2 m = none) ∧
    (∃ (s : State) (m : StepMsg) (ctx : Fin 16), s.stepTarget 2 m = some ctx.val) ∧
    (∃ (s : State) (m : StepMsg), s.stepTarget 3 m = none) ∧
    (∃ (s : State) (m : StepMsg) (ctx : Fin 16), s.stepTarget 3 m = some ctx.val) ∧
    (∃ (s : State) (m : StepMsg), s.stepTarget 4 m = none) ∧
    (∃ (s : State) (m : StepMsg) (ctx : Fin 16), s.stepTarget 4 m = some ctx.val) ∧
    (∃ (s : State) (m : StepMsg), s.stepTarget 5 m = none) ∧
    (∃ (s : State) (m : StepMsg) (ctx : Fin 16), s.stepTarget 5 m = some ctx.val) ∧
    (∃ (s : State) (m : StepMsg), s.stepTarget 6 m = none) ∧
    (∃ (s : State) (m : StepMsg) (ctx : Fin 16), s.stepTarget 6 m = some ctx.val) :=
  ⟨⟨convoyUp, msg 7 0, by decide +kernel⟩,
  ⟨convoyUp, msg 5 0, 0, by decide +kernel⟩,
  ⟨convoyUp, msg 7 0, by decide +kernel⟩,
  ⟨convoyUp, msg 6 0, 0, by decide +kernel⟩,
  ⟨convoyUp, msg 7 0, by decide +kernel⟩,
  ⟨convoyUp, msg 5 0, 0, by decide +kernel⟩,
  ⟨convoyUp, msg 7 0, by decide +kernel⟩,
  ⟨convoyUp, msg 6 0, 0, by decide +kernel⟩,
  ⟨convoyUp, msg 7 0, by decide +kernel⟩,
  ⟨convoyUp, msg 6 1, 0, by decide +kernel⟩,
  ⟨convoyUp, msg 7 0, by decide +kernel⟩,
  ⟨convoyUp, msg 5 0, 0, by decide +kernel⟩⟩

theorem wit_StepProgressCommands :
    (∃ (s : State) (ctx : Fin 16), (s.ctx ctx).helm.held = false) ∧
    (∃ (s : State) (ctx : Fin 16), ((s.ctx ctx).helm.held = true) ∧ (s.stepsRun ctx = false)) :=
  ⟨⟨up, 0, by decide +kernel⟩,
  ⟨withCtx { Ctx.reset with helm := { Helm.idle with held := true } }, 0, by decide +kernel⟩⟩

theorem wit_CrystalliserCommands :
    (∃ (s : State) (die : Fin 8), 2 ≤ s.lanesUsed die) ∧
    (∃ (s : State) (die : Fin 8), (∀ i : Fin 64, (s.core (64 * die + i)).xsamps.all fun x => x.granted) = true) ∧
    (∃ (s : State) (die : Fin 8) (ctx : Fin 16) (i : Fin 64) (x : XPend), (s.lanesUsed die < 2) ∧ ((s.xtalPick die).1 = some ctx.val) ∧ (rotPick 64 (tget 0 s.xtalPtr (16 * die + ctx)) (s.xsampWaits die ctx) = some i.val) ∧ (((s.core (64 * die + i)).xsamps.find? fun x => !x.granted) = some x)) ∧
    (∃ (s : State) (core : Fin 512) (tag : BitVec 6) (x : XPend), (s.core core).xop tag.toNat 0x50 = some x) :=
  ⟨⟨{ up with cores := [(5, { Core.reset with xops := [{ pend 0 0x50 true with d := 1 }, { pend 1 0x50 true with d := 1 }] })] }, 0, by decide +kernel⟩,
  ⟨up, 0, by decide +kernel⟩,
  ⟨waiter, 0, 0, 63, pend 0 0x50 false, by decide +kernel, waiter_granted, by decide +kernel⟩,
  ⟨withCore { Core.reset with xops := [pend 63 0x50 true] }, 0, 63#6, pend 63 0x50 true, by decide +kernel⟩⟩

theorem wit_QueueCommands :
    (∃ (s : State) (ld : Fin 16) (cid : BitVec 16) (q : SqCmd), s.nextCmd ld cid.toNat 0 = some q) ∧
    (∃ (s : State) (ld : Fin 16) (cid : BitVec 16), s.nextCmd ld cid.toNat 0 = none) ∧
    (∃ (s : State) (ld : Fin 16) (cid : BitVec 16) (q : SqCmd), s.nextCmd ld cid.toNat 1 = some q) ∧
    (∃ (s : State) (ld : Fin 16) (cid : BitVec 16) (q : SqCmd), s.nextCmd ld cid.toNat 1 = some q) ∧
    (∃ (s : State) (ld : Fin 16) (cid : BitVec 16) (q : SqCmd), s.nextCmd ld cid.toNat 2 = some q) ∧
    (∃ (s : State) (ld : Fin 16) (cid : BitVec 16) (q : SqCmd), s.nextCmd ld cid.toNat 3 = some q) ∧
    (∃ (s : State) (ld : Fin 16) (cid : BitVec 16) (q : SqCmd), s.nextCmd ld cid.toNat 4 = some q) ∧
    (∃ (s : State) (ld : Fin 16) (cid : BitVec 16) (q : SqCmd), s.runningCopy ld cid.toNat = some q) :=
  ⟨⟨queued 0 false, 0, 7#16, queued.sq 0 false, by decide +kernel⟩,
  ⟨up, 0, 3#16, by decide +kernel⟩,
  ⟨queued 1 false, 0, 7#16, queued.sq 1 false, by decide +kernel⟩,
  ⟨queued 1 false, 0, 7#16, queued.sq 1 false, by decide +kernel⟩,
  ⟨queued 2 false, 0, 7#16, queued.sq 2 false, by decide +kernel⟩,
  ⟨queued 3 false, 0, 7#16, queued.sq 3 false, by decide +kernel⟩,
  ⟨queued 4 false, 0, 7#16, queued.sq 4 false, by decide +kernel⟩,
  ⟨queued 4 true, 0, 7#16, queued.sq 4 true, by decide +kernel⟩⟩

theorem wit_HostMemoryCommands :
    (∃ (s : State) (ld : Fin 16), (s.trafficHeld = false ∧ s.power.retryStatus = false ∧ s.ldEnabled ld = true)) ∧
    (∃ (s : State) (ld : Fin 16), (s.trafficHeld = false ∧ s.ldServes ld = true)) ∧
    (∃ (s : State) (ld : Fin 16), (s.trafficHeld = false ∧ s.ldServes ld = true)) :=
  ⟨⟨up, 0, by decide +kernel⟩,
  ⟨up, 0, by decide +kernel⟩,
  ⟨up, 0, by decide +kernel⟩⟩

theorem wit_PacketCommands :
    (∃ (s : State) (k : Fin 32), s.linkTalks k = false) ∧
    (∃ (s : State) (k : Fin 32) (p : Packet), (s.linkState k = linkUp) ∧ (p.type < 0xF0) ∧ (p.payload.length ≤ 4096) ∧ ((s.peerPlane k = false ∧ (p.vc ≠ 7 ∧ p.slice ≠ s.peerSlice k ∨ p.vc = 7 ∧ p.slice = s.peerSlice k)))) ∧
    (∃ (s : State) (k : Fin 32) (p : Packet), (s.linkState k = linkUp) ∧ (p.type < 0xF0) ∧ (p.payload.length ≤ 4096) ∧ (¬(s.peerPlane k = false ∧ (p.vc ≠ 7 ∧ p.slice ≠ s.peerSlice k ∨ p.vc = 7 ∧ p.slice = s.peerSlice k))) ∧ (p.dst = s.node)) ∧
    (∃ (s : State) (k : Fin 32) (p : Packet), (s.linkState k = linkUp) ∧ (p.type < 0xF0) ∧ (p.payload.length ≤ 4096) ∧ (¬(s.peerPlane k = false ∧ (p.vc ≠ 7 ∧ p.slice ≠ s.peerSlice k ∨ p.vc = 7 ∧ p.slice = s.peerSlice k))) ∧ (p.dst ≠ s.node)) ∧
    (∃ (s : State) (k : Fin 32) (qid : BitVec 16), (s.fabric.queries.find? fun q => decide (q.link = k.val ∧ q.qid = qid.toNat)) = none) ∧
    (∃ (s : State) (k : Fin 32) (qid : BitVec 16) (q : Query), (s.fabric.queries.find? fun q => decide (q.link = k.val ∧ q.qid = qid.toNat)) = some q) ∧
    (∃ (s : State) (p : Packet) (seq : Nat) (t1 : Nat), (p.slice = s.slice) ∧ (s.slice ≠ 0) ∧ (s.fabric.timeSent = some (seq, t1))) :=
  ⟨⟨up, 0, by decide +kernel⟩,
  ⟨up.setFld R.LINK_STATE.STATE 0 0 2, 0, pk 1 [], by decide +kernel⟩,
  ⟨(inSlice.setFld R.LINK_STATE.STATE 0 0 2).setFld R.LINK_PEER.SLICE 0 0 5, 0, pk 1 [], by decide +kernel⟩,
  ⟨(inSlice.setFld R.LINK_STATE.STATE 0 0 2).setFld R.LINK_PEER.SLICE 0 0 5, 0, { pk 1 [] with dst := 4095, payload := List.replicate 4096 0#8 }, by decide +kernel⟩,
  ⟨up, 0, 3#16, by decide +kernel⟩,
  ⟨{ up with fabric := { up.fabric with queries := [⟨0, 3, 5, [], none, true⟩] } }, 0, 3#16, ⟨0, 3, 5, [], none, true⟩, by decide +kernel⟩,
  ⟨{ inSlice with fabric := { inSlice.fabric with timeSent := some (8, 9) } }, pk 0x21 [], 8, 9, by decide +kernel⟩⟩

theorem wit_LockCommands :
    (∃ (s : State), s.fabric.image = none) ∧
    (∃ (s : State) (i : LockImage) (n : Nat) (r : List Nat), (s.fabric.image = some i) ∧ (((s.fabric.queries.filter fun q => q.load && decide (q.answer ≠ some true)).map fun q => (q.ranges.head?.map Prod.fst).getD 0) = List.cons n r)) ∧
    (∃ (s : State) (i : LockImage) (g : Nat), (s.fabric.image = some i) ∧ (((s.fabric.queries.filter fun q => q.load && decide (q.answer ≠ some true)).map fun q => (q.ranges.head?.map Prod.fst).getD 0) = []) ∧ (((List.range 16).find? fun g => (s.fabric.pins.any fun p => decide (p.2.2 = g)) && (keptGrant i.grants (s.grant g)).isNone) = some g)) ∧
    (∃ (s : State) (i : LockImage), (s.fabric.image = some i) ∧ (((s.fabric.queries.filter fun q => q.load && decide (q.answer ≠ some true)).map fun q => (q.ranges.head?.map Prod.fst).getD 0) = []) ∧ (((List.range 16).find? fun g => (s.fabric.pins.any fun p => decide (p.2.2 = g)) && (keptGrant i.grants (s.grant g)).isNone) = none)) :=
  ⟨⟨up, by decide +kernel⟩,
  ⟨{ up with fabric := { up.fabric with image := some image, queries := [⟨4, 1, 5, [(17, 17)], none, true⟩] } }, image, 17, [], by decide +kernel⟩,
  ⟨{ up with fabric := { up.fabric with image := some image, pins := [(0, 0, 15)] } }, image, 15, by decide +kernel⟩,
  ⟨{ up with fabric := { up.fabric with image := some image } }, image, by decide +kernel⟩⟩

theorem wit_NodeRequestCommands :
    (∃ (p : Packet), [1, 2, 3].contains p.type = false) ∧
    (∃ (s : State) (p : Packet), ([1, 2, 3].contains p.type = true) ∧ ((p.slice ≠ s.slice ∨ s.slice = 0))) ∧
    (∃ (s : State) (p : Packet), s.admits [1, 2, 3] p = true) ∧
    (∃ (s : State) (p : Packet) (r : Packet), (s.admits [1, 2, 3] p = true) ∧ (reqOk p = true) ∧ ((s.pairIn p.src).v = true) ∧ (p.h 14 2 ≠ (s.pairIn p.src).expected) ∧ (((s.pairIn p.src).expected + 65536 - p.h 14 2) % 65536 ≤ 64) ∧ (((s.pairIn p.src).responses.find? fun (x : Nat × Option Packet) => decide (x.1 = p.h 14 2)) = some (p.h 14 2, some r))) ∧
    (∃ (s : State) (line : BitVec 34), s.lineHeads line.toNat = []) ∧
    (∃ (s : State) (line : BitVec 34) (q : HomeReq), (s.lineHeads line.toNat = [q]) ∧ (s.homeHeld q = true)) ∧
    (∃ (s : State) (line : BitVec 34) (q : HomeReq), (s.lineHeads line.toNat = [q]) ∧ (s.homeHeld q = false) ∧ (s.homeCheck q.pkt ≠ 0)) ∧
    (∃ (s : State) (line : BitVec 34) (q : HomeReq), (s.lineHeads line.toNat = [q]) ∧ (s.homeHeld q = false) ∧ (s.homeCheck q.pkt = 0) ∧ ((s.region (q.pkt.h 13 1)).kind = 1) ∧ (s.regionFenced (s.region (q.pkt.h 13 1)) = false) ∧ ((s.region (q.pkt.h 13 1)).core < 512) ∧ (q.pkt.type = 2)) ∧
    (∃ (s : State) (line : BitVec 34) (q : HomeReq), (s.lineHeads line.toNat = [q]) ∧ (s.homeHeld q = false) ∧ (s.homeCheck q.pkt = 0) ∧ ((s.region (q.pkt.h 13 1)).kind = 1) ∧ (s.regionFenced (s.region (q.pkt.h 13 1)) = false) ∧ ((s.region (q.pkt.h 13 1)).core < 512) ∧ (q.pkt.type = 1)) ∧
    (∃ (s : State) (line : BitVec 34) (q : HomeReq), (s.lineHeads line.toNat = [q]) ∧ (s.homeHeld q = false) ∧ (s.homeCheck q.pkt = 0) ∧ ((s.region (q.pkt.h 13 1)).kind = 1) ∧ (s.regionFenced (s.region (q.pkt.h 13 1)) = false) ∧ ((s.region (q.pkt.h 13 1)).core < 512) ∧ (q.pkt.type = 3)) ∧
    (∃ (s : State) (p : Packet), (s.admits [4] p = true) ∧ (p.h 16 1 % 16 = 12)) ∧
    (∃ (s : State) (p : Packet), (s.admits [4] p = true) ∧ (p.h 16 1 % 16 ≠ 12) ∧ (((s.pair p.src).open_.find? fun x => decide (x.seq = p.h 14 2) && x.sent) = none)) ∧
    (∃ (s : State) (p : Packet) (o : NodeOp), (s.admits [4] p = true) ∧ (p.h 16 1 % 16 ≠ 12) ∧ (((s.pair p.src).open_.find? fun x => decide (x.seq = p.h 14 2) && x.sent) = some o)) ∧
    (∃ (s : State) (p : Packet), s.admits [5] p = true) :=
  ⟨⟨pk 4 [], by decide +kernel⟩,
  ⟨inSlice, { pk 1 [] with slice := 4 }, by decide +kernel⟩,
  ⟨inSlice, pk 3 [], by decide +kernel⟩,
  ⟨inSlice.setPairIn 1 ⟨true, 64, 0, [(0, some (pk 4 []))]⟩, request 1, pk 4 [], by decide +kernel⟩,
  ⟨up, 3#34, by decide +kernel⟩,
  ⟨{ inSlice with ctxs := [(0, { Ctx.reset with copies := [(0, { Copy.none with state := 6 })] })], rack := { inSlice.rack with regions := [(3, ⟨0, 63, 0, 65536, 0, 0, 7, 0⟩)], homeQ := [⟨1, request 1, 0, [], false⟩] } }, 0#34, ⟨1, request 1, 0, [], false⟩, by decide +kernel⟩,
  ⟨{ inSlice with rack := { inSlice.rack with homeQ := [⟨1, pk 1 [(13, 3#8), (16, 6#8)], 0, [], false⟩] } }, 0#34, ⟨1, pk 1 [(13, 3#8), (16, 6#8)], 0, [], false⟩, by decide +kernel⟩,
  ⟨{ inSlice with rack := { inSlice.rack with homeQ := [⟨1, request 2, 0, [], false⟩] } }, 0#34, ⟨1, request 2, 0, [], false⟩, by decide +kernel⟩,
  ⟨{ inSlice with rack := { inSlice.rack with homeQ := [⟨1, request 1, 0, [], false⟩] } }, 0#34, ⟨1, request 1, 0, [], false⟩, by decide +kernel⟩,
  ⟨{ inSlice with rack := { inSlice.rack with homeQ := [⟨1, request 3, 0, [], false⟩] } }, 0#34, ⟨1, request 3, 0, [], false⟩, by decide +kernel⟩,
  ⟨inSlice, pk 4 [(16, 12#8)], by decide +kernel⟩,
  ⟨inSlice, pk 4 [], by decide +kernel⟩,
  ⟨inSlice.setPair 1 { Pair.none with open_ := [⟨0, 0, 0, 0, 1, 0, true, 3, false, 3#5, 0, 3, 7, [], 1, true⟩] }, pk 4 [], ⟨0, 0, 0, 0, 1, 0, true, 3, false, 3#5, 0, 3, 7, [], 1, true⟩, by decide +kernel⟩,
  ⟨inSlice, pk 5 [], by decide +kernel⟩⟩

theorem wit_MessageCommands :
    (∃ (s : State) (p : Packet), (s.admits [0x10] p = true) ∧ ((judge (s.record (recordKey p)) (p.h 12 2) (p.h 10 1)) = 0) ∧ (((s.record (recordKey p)).valid = false ∨ (s.record (recordKey p)).done = true)) ∧ (s.msgCheck p ≠ 0)) ∧
    (∃ (s : State) (p : Packet), (s.admits [0x13] p = true) ∧ ((judge (s.record (recordKey p)) (p.h 12 2) (p.h 10 1)) = 0) ∧ (((s.record (recordKey p)).valid = false ∨ (s.record (recordKey p)).done = true)) ∧ (s.msgCheck p ≠ 0)) ∧
    (∃ (s : State) (p : Packet), (s.admits [0x11] p = true) ∧ ((judge (s.record (recordKey p)) (p.h 12 2) (p.h 10 1)) = 0) ∧ (((s.record (recordKey p)).valid = false ∨ (s.record (recordKey p)).done = true)) ∧ (s.msgCheck p ≠ 0)) ∧
    (∃ (s : State) (p : Packet), (s.admits [0x10] p = true) ∧ ((judge (s.record (recordKey p)) (p.h 12 2) (p.h 10 1)) = 0) ∧ (((s.record (recordKey p)).valid = false ∨ (s.record (recordKey p)).done = true)) ∧ (s.msgCheck p = 0) ∧ ((s.region (p.h 29 1)).kind = 1) ∧ (s.regionFenced (s.region (p.h 29 1)) = false) ∧ ((s.region (p.h 29 1)).core < 512) ∧ ((p.h 16 4 % 2 ^ 25) ≤ 4096) ∧ (p.h 14 2 % 4096 = 0)) ∧
    (∃ (s : State) (p : Packet), (s.admits [0x13] p = true) ∧ ((judge (s.record (recordKey p)) (p.h 12 2) (p.h 10 1)) = 0) ∧ (((s.record (recordKey p)).valid = false ∨ (s.record (recordKey p)).done = true)) ∧ (s.msgCheck p = 0) ∧ (2 ≤ p.h 29 1) ∧ ((p.h 16 4 % 2 ^ 25) ≤ 4096) ∧ (p.h 14 2 % 4096 = 0)) ∧
    (∃ (s : State) (p : Packet) (env : Surround), (s.admits [0x11] p = true) ∧ ((judge (s.record (recordKey p)) (p.h 12 2) (p.h 10 1)) = 0) ∧ (((s.record (recordKey p)).valid = false ∨ (s.record (recordKey p)).done = true)) ∧ (s.msgCheck p = 0) ∧ ((s.region (p.h 29 1)).kind = 1) ∧ (s.regionFenced (s.region (p.h 29 1)) = false) ∧ (isUe env.scr = false)) ∧
    (∃ (s : State) (p : Packet) (m : Message), (s.admits [0x14] p = true) ∧ (s.answered p = some m) ∧ (m.who = 0) ∧ (s.rack.waiting = [])) ∧
    (∃ (s : State) (p : Packet) (m : Message), (s.admits [0x12] p = true) ∧ (s.answered p = some m) ∧ ((m.op ≠ 2 ∨ packetsOf m.len ≤ (p.h 14 2 % 4096) ∨ m.got.contains (p.h 14 2 % 4096) = true))) ∧
    (∃ (s : State) (p : Packet) (m : Message), (s.admits [0x12] p = true) ∧ (s.answered p = some m) ∧ (m.op = 2) ∧ (m.got = []) ∧ ((p.h 14 2 % 4096) < packetsOf m.len) ∧ (1 < packetsOf m.len) ∧ (m.unified = false) ∧ (s.coreState m.core ≠ coreFenced) ∧ (m.core < 512)) ∧
    (∃ (s : State) (p : Packet) (m : Message), (s.admits [0x12] p = true) ∧ (s.answered p = some m) ∧ (m.op = 2) ∧ (m.got = []) ∧ ((p.h 14 2 % 4096) = 0) ∧ (packetsOf m.len = 1) ∧ (m.who = 0) ∧ (s.rack.waiting = [])) :=
  ⟨⟨inSlice, toRegion 0x10 6, by decide +kernel⟩,
  ⟨inSlice, toRegion 0x13 6, by decide +kernel⟩,
  ⟨inSlice, toRegion 0x11 6, by decide +kernel⟩,
  ⟨inSlice, toRegion 0x10 7, by decide +kernel⟩,
  ⟨{ inSlice with rack := { inSlice.rack with regions := [(3, ⟨2, 63, 0, 65536, 0, 1, 7, 0⟩)] } }, toRegion 0x13 7, by decide +kernel⟩,
  ⟨inSlice, toRegion 0x11 7, ⟨.ok, .ok, [], []⟩, by decide +kernel⟩,
  ⟨sending 1 64, pk 0x14 [], (sending 1 64).message 0, by decide +kernel⟩,
  ⟨sending 2 4096, pk 0x12 [(14, 1#8)], (sending 2 4096).message 0, by decide +kernel⟩,
  ⟨sending 2 8192, pk 0x12 [(14, 1#8)], (sending 2 8192).message 0, by decide +kernel⟩,
  ⟨sending 2 4096, pk 0x12 [], (sending 2 4096).message 0, by decide +kernel⟩⟩

theorem wit_DutyTestAndLoopCommands :
    (∃ (s : State), s.bist.todo = []) ∧
    (∃ (s : State) (it : BistItem) (rest : List BistItem), s.bist.todo = List.cons it rest) ∧
    (∃ (s : State) (it : BistItem) (rest : List BistItem), s.bist.todo = List.cons it rest) ∧
    (∃ (s : State), s.bist.todo = []) ∧
    (∃ (s : State) (cls : BitVec 4) (inst : BitVec 5), (s.bist.running.find? fun q => decide (q.cls = cls.toNat ∧ q.inst = inst.toNat)) = none) ∧
    (∃ (s : State) (cls : BitVec 4) (inst : BitVec 5) (it : BistItem), (s.bist.running.find? fun q => decide (q.cls = cls.toNat ∧ q.inst = inst.toNat)) = some it) ∧
    (∃ (s : State), s.bist.loop = none) ∧
    (∃ (s : State) (l : Nat × Nat × Nat), s.bist.loop = some l) :=
  ⟨⟨up, by decide +kernel⟩,
  ⟨{ up with bist := { up.bist with todo := [item] } }, item, [], by decide +kernel⟩,
  ⟨{ up with bist := { up.bist with todo := [item, item] } }, item, [item], by decide +kernel⟩,
  ⟨up, by decide +kernel⟩,
  ⟨up, 15#4, 31#5, by decide +kernel⟩,
  ⟨{ up with bist := { up.bist with running := [item] } }, 1#4, 2#5, item, by decide +kernel⟩,
  ⟨up, by decide +kernel⟩,
  ⟨{ up with bist := { up.bist with loop := some (1, 2, 3) } }, (1, 2, 3), by decide +kernel⟩⟩

theorem wit_ContextRegisterCommands : ∃ (s : State) (req : Fin 18) (d : Fin 7) (inst : Fin 16), s.takesHeader req (dutyPage (d + 1)) (if d = 5 then 0 else inst) 0x008 = true :=
  ⟨serving, 16, 6, 15, by decide +kernel⟩

theorem wit_GaugeCommands : ∃ (d : Fin 9), d.val < 8 :=
  ⟨7, by decide +kernel⟩

theorem wit_SecurityAndDebugRegisterCommands : ∃ (s : State) (req : Fin 18), s.takesHeader req .dbg 0 0x120 = true :=
  ⟨serving, 16, by decide +kernel⟩

theorem wit_PageAccessCommands :
    (∃ (s : State) (req : Fin 18) (page : BitVec 13) (p : Page) (i : Nat), (pageAt (pageAddr page) = some (p, i)) ∧ (s.takesHeader req p i 0x008 = true)) ∧
    (∃ (s : State) (req : Fin 18) (page : BitVec 13) (p : Page) (i : Nat), (pageAt (pageAddr page) = some (p, i)) ∧ (s.takesHeader req p i 0x018 = true)) ∧
    (∃ (s : State) (req : Fin 18) (page : BitVec 13) (p : Page) (i : Nat), (pageAt (pageAddr page) = some (p, i)) ∧ (s.takesHeader req p i 0x01C = true)) ∧
    (∃ (s : State) (req : Fin 18) (page : BitVec 13) (p : Page) (i : Nat), (pageAt (pageAddr page) = some (p, i)) ∧ (s.takesHeader req p i 0x020 = true)) ∧
    (∃ (s : State) (req : Fin 18) (addr : BitVec 25) (a : Nat), (windowAddr req (addr.toNat / 8 * 8) = some a) ∧ (s.regReached req a = true)) ∧
    (∃ (s : State) (req : Fin 18) (addr : BitVec 25) (a : Nat), (windowAddr req addr.toNat = some a) ∧ (s.regReached req a = true)) ∧
    (∃ (s : State) (req : Fin 18) (addr : BitVec 25) (a : Nat), (windowAddr req addr.toNat = some a) ∧ (s.regReached req a = true)) :=
  ⟨⟨serving, 16, 9#13, .pwr, 0, by decide +kernel⟩,
  ⟨serving, 16, 9#13, .pwr, 0, by decide +kernel⟩,
  ⟨serving, 16, 9#13, .pwr, 0, by decide +kernel⟩,
  ⟨serving, 16, 9#13, .pwr, 0, by decide +kernel⟩,
  ⟨serving, 16, 0x9100#25, 0x9100, by decide +kernel⟩,
  ⟨serving, 16, 0x9100#25, 0x9100, by decide +kernel⟩,
  ⟨serving, 16, 0x9100#25, 0x9100, by decide +kernel⟩⟩

theorem wit_FrameOfLinkAndTimeCommands : ∃ (s : State), (s.on R.BIST_STATUS.BUSY = false) ∧ (s.bist.running = []) :=
  ⟨up, by decide +kernel⟩

theorem wit_EventForceSetsBitsOnly : ∃ (s : State) (req : Fin 18) (page : BitVec 13) (p : Page) (i : Nat), (pageAt (pageAddr page) = some (p, i)) ∧ (s.takesHeader req p i 0x018 = true) :=
  ⟨serving, 16, 9#13, .pwr, 0, by decide +kernel⟩

theorem wit_FlagsRecord : ∃ (s : State) (core : Fin 512) (dst : BitVec 14) (clr : Bool), (s.mxHead core = some (.stf dst clr)) ∧ (dst.toNat < 0x3000) :=
  ⟨engine (.stf 0x2FFF#14 true), 0, 0x2FFF#14, true, by decide +kernel⟩

theorem wit_SequenceRangeRefusals : ∃ (s : State) (ctx : Fin 16) (ed : Edit), (s.on R.XLAT_STATUS.ADV_PENDING ctx = true) ∧ (s.noneRuns ctx = true) ∧ (s.epochBlocked ctx = false) ∧ ((s.ctx ctx).queue = [ed]) ∧ (ed.op = 5) ∧ (ed.src = 0) ∧ ((ed.desc.base < s.addr R.XLAT_VA_LO.ADDR ctx ∨ s.addr R.XLAT_VA_HI.ADDR ctx < ed.desc.base + ed.desc.span ∨ ((s.ctx ctx).descs.any fun o => decide (o.1 ≠ field ed.arg0 0 10 ∧ o.2.base < ed.desc.base + ed.desc.span ∧ ed.desc.base < o.2.base + o.2.span)) = true)) :=
  ⟨{ up with ctxs := [(0, { Ctx.reset with queue := [edit] })] }.setFld R.XLAT_STATUS.ADV_PENDING 0 0 1 |>.setFld R.XLAT_VA_LO.ADDR 0 0 1, 0, edit, by decide +kernel⟩

theorem wit_RegisterAccessRules :
    (∃ (s : State) (req : Fin 18) (addr : BitVec 25) (a : Nat) (p : Page) (i : Nat) (r : RegRef), (windowAddr req addr.toNat = some a) ∧ (s.regReached req a = true) ∧ (pageAt a = some (p, i)) ∧ (regAt p i (a % 0x1000 / 4 * 4) = some r) ∧ (s.regInReset p i (a % 0x1000 / 4 * 4) = false) ∧ (s.writeBarred p i r.reg req = true)) ∧
    (∃ (s : State) (req : Fin 18) (addr : BitVec 25) (be : BitVec 4) (a : Nat) (p : Page) (i : Nat) (r : RegRef), (windowAddr req addr.toNat = some a) ∧ (s.regReached req a = true) ∧ (pageAt a = some (p, i)) ∧ (regAt p i (a % 0x1000 / 4 * 4) = some r) ∧ (be ≠ 15#4) ∧ (s.regInReset p i (a % 0x1000 / 4 * 4) = false)) ∧
    (∃ (s : State) (req : Fin 18) (addr : BitVec 25) (a : Nat) (p : Page) (i : Nat) (r : RegRef), (windowAddr req addr.toNat = some a) ∧ (s.regReached req a = true) ∧ (pageAt a = some (p, i)) ∧ (regAt p i (a % 0x1000 / 4 * 4) = some r) ∧ (s.regInReset p i (a % 0x1000 / 4 * 4) = true)) ∧
    (∃ (s : State) (req : Fin 18) (addr : BitVec 25) (a : Nat) (p : Page) (i : Nat) (r : RegRef), (windowAddr req addr.toNat = some a) ∧ (s.regReached req a = true) ∧ (pageAt a = some (p, i)) ∧ (regAt p i (a % 0x1000 / 4 * 4) = some r) ∧ (s.regInReset p i (a % 0x1000 / 4 * 4) = true)) ∧
    (∃ (s : State) (req : Fin 18) (addr : BitVec 25) (a : Nat) (p : Page) (i : Nat), (windowAddr req addr.toNat = some a) ∧ (s.regReached req a = true) ∧ (pageAt a = some (p, i)) ∧ (0x100 ≤ a % 0x1000) ∧ (regAt p i (a % 0x1000 / 4 * 4) = none)) ∧
    (∃ (s : State) (req : Fin 18) (addr : BitVec 25) (a : Nat) (p : Page) (i : Nat), (windowAddr req addr.toNat = some a) ∧ (s.regReached req a = true) ∧ (pageAt a = some (p, i)) ∧ (0x100 ≤ a % 0x1000) ∧ (regAt p i (a % 0x1000 / 4 * 4) = none)) ∧
    (∃ (s : State) (req : Fin 18) (addr : BitVec 25) (a : Nat) (p : Page) (i : Nat) (r : RegRef), (windowAddr req addr.toNat = some a) ∧ (s.regReached req a = true) ∧ (pageAt a = some (p, i)) ∧ (regAt p i (a % 0x1000 / 4 * 4) = some r) ∧ (s.regInReset p i (a % 0x1000 / 4 * 4) = false) ∧ (s.writeBarred p i r.reg req = false) ∧ (r.reg.b64 = false) ∧ (r.reg.view = false) ∧ ((([.weir, .therm, .mx, .scr, .basin, .route, .sluice, .rake, .barge, .attn, .mani, .msg] : List Page).contains p) = true) ∧ ((r.reg.flds.all fun f => decide (f.acc ≠ .wo)) = true)) :=
  ⟨⟨serving.setFld (hdrCfgLock .therm) 0 0 1, 16, 0xA100#25, 0xA100, .therm, 0, thermReg, by decide +kernel⟩,
  ⟨serving, 16, 0x9100#25, 3#4, 0x9100, .pwr, 0, pwrCap, by decide +kernel⟩,
  ⟨{ State.reset with board := up.board }, 16, 0xA100#25, 0xA100, .therm, 0, thermReg, by decide +kernel⟩,
  ⟨{ State.reset with board := up.board }, 16, 0xA100#25, 0xA100, .therm, 0, thermReg, by decide +kernel⟩,
  ⟨serving, 16, 0x9FFC#25, 0x9FFC, .pwr, 0, by decide +kernel⟩,
  ⟨serving, 16, 0x9FFC#25, 0x9FFC, .pwr, 0, by decide +kernel⟩,
  ⟨serving, 16, 0xA100#25, 0xA100, .therm, 0, thermReg, by decide +kernel⟩⟩


end Sys2Proof.Tests
end

section
/-! PROOF. Access rules of the register pages: the partial write of a register, for the requester that has no byte
enables. -/
namespace Sys2Proof.Machine

/-- A partial write by JTAG does nothing, as its port has no byte enables (R487; log entry 170). -/
theorem writeWindow_jtag_partial (s : State) (a v be : Nat) (far : List Byte) (e : Ecc) (h : be ≠ 15) :
    s.writeWindow 17 a v be far e = s := by
  unfold State.writeWindow
  cases windowAddr (17 : Fin 18) a with
  | none => rfl
  | some a' => exact (if_neg h).trans (if_pos rfl)

/-- A record made in an empty error log is counted among the page's records (R525). -/
theorem errlog_errSeq (s : State) (p : Page) (i kind addr bitPos detail : Nat) (h : s.on (hdrErrValid p) i = false) :
    tget 0 (s.errlog p i kind addr bitPos detail).errSeq (pageBase p i) = tget 0 s.errSeq (pageBase p i) + 1 := by
  unfold State.errlog
  rw [if_neg (ne_true_of_eq_false h)]
  exact tget_tset_self 0 _ _ _

/-- A record made in an empty error log changes the state. -/
theorem errlog_ne_self (s : State) (p : Page) (i kind addr bitPos detail : Nat) (h : s.on (hdrErrValid p) i = false) :
    s ≠ s.errlog p i kind addr bitPos detail := by
  intro heq
  have hcount := errlog_errSeq s p i kind addr bitPos detail h
  rw [← heq] at hcount
  omega

/-- The management domain is up, and the CORE debug scope is open, so that JTAG reaches the DBG page (R487, R488). -/
def coreScopeOpen : State :=
  { State.reset with board := { Board.reset with mgmtUp := true } }.setFld R.DBG_SCOPE.SCOPES 0 0 1

/-- `DBG_CORE_SEL`, the register that the refuting write names. -/
def dbgCoreSel : RegRef :=
  ⟨⟨"DBG_CORE_SEL", 0x10C, 0, 1, false, false, false, false, false, none, [⟨"CORE", 0, 9, .rw, 0, []⟩]⟩, 0, false⟩

/-- Refutes O53: its clause on partial writes leaves JTAG in. A write by JTAG of the low two bytes of `DBG_CORE_SEL`
under the CORE scope makes no record, as partial JTAG writes do nothing (log entry 170), where the clause asks for a
record of KIND 2. -/
theorem not_registerAccessRules : ¬ Obligations.RegisterAccessRules := by
  unfold Obligations.RegisterAccessRules
  intro h
  obtain ⟨-, hpartial, -⟩ := h coreScopeOpen
  obtain ⟨t, hexec, ht⟩ := hpartial 17 0x710C#25 0#32 [] .ok 3#4 0x710C .dbg 0 dbgCoreSel
    (by decide) (by decide) (by decide) (by decide) (by decide) (by decide)
  have hnone : exec (.registerWrite 17 0x710C#25 0#32 3#4 [] .ok) coreScopeOpen = .next coreScopeOpen :=
    congrArg Host.Outcome.next (writeWindow_jtag_partial coreScopeOpen 0x710C 0 3 [] .ok (by decide))
  have hsame : t = coreScopeOpen := Host.Outcome.next.inj (hexec.symm.trans hnone)
  exact errlog_ne_self coreScopeOpen .dbg 0 2 dbgCoreSel.off 0 (reqDetail 17) (by decide) (hsame.symm.trans ht)

end Sys2Proof.Machine
end

section
/-! PROOF. The state after reset. -/
namespace Sys2Proof.Machine

/-- Every field of every register reads its own reset value in the state after reset (R7). -/
theorem reset_fld (f : Fd) (i j : Nat) : State.reset.fld f i j = f.rst := tget_nil f.rst (f.key i j)

/-- Every core is in its reset state in the state after reset. -/
theorem reset_core (n : Nat) : State.reset.core n = Core.reset := tget_nil Core.reset n

/-- The memories after reset list nothing, and so are in their canonical form. -/
theorem reset_memoryForm : State.reset.memoryForm :=
  ⟨Memory.wf_nil, Memory.wf_nil, fun n => by rw [reset_core]; exact Memory.wf_nil⟩

/-- Settles O57: no register is listed in the state after reset, so each field reads its reset value. -/
theorem resetState : Obligations.ResetState :=
  ⟨fun p r _ f _ i j => reset_fld (f.fd p r) i j, rfl, reset_memoryForm, rfl, rfl, rfl, rfl, rfl⟩

end Sys2Proof.Machine
end

section
/-! PROOF. Every command completes. Most arms of `exec` are a next state outright; the lemmas below are for the arms
that choose between next states. -/
namespace Sys2Proof.Machine

/-- An outcome is a next state: neither a fault nor a refusal. -/
def IsNext (r : Result) : Prop := ∃ t, r = .next t

theorem isNext_next (t : State) : IsNext (.next t) := ⟨t, rfl⟩

/-- A choice between two next states is a next state. -/
theorem isNext_ite {c : Prop} [Decidable c] {a b : Result} (ha : IsNext a) (hb : IsNext b) : IsNext (if c then a else b) := by
  split
  · exact ha
  · exact hb

/-! ### The arms with more than one choice -/

theorem execResetDrainEnd_isNext (n : Fin 16) (s : State) : IsNext (execResetDrainEnd n s) := by
  unfold execResetDrainEnd
  split
  case h_1 => exact isNext_next _
  case h_2 => exact isNext_next s

theorem execResetDone_isNext (domain inst : Nat) (s : State) : IsNext (execResetDone domain inst s) := by
  unfold execResetDone
  split
  case h_1 => exact isNext_next _
  case h_2 => exact isNext_next s

theorem execFlashImageReadDone_isNext (readable : Bool) (s : State) : IsNext (execFlashImageReadDone readable s) :=
  isNext_ite (isNext_ite (isNext_next _) (isNext_ite (isNext_next _) (isNext_next _))) (isNext_next s)

theorem execRecoveryLoadDone_isNext (data : Option (List Byte)) (s : State) : IsNext (execRecoveryLoadDone data s) := by
  refine isNext_ite ?_ (isNext_next s)
  cases data with
  | none => exact isNext_next _
  | some img => exact isNext_ite (isNext_next _) (isNext_next _)

theorem execFlashWriteDone_isNext (data : Option (List Byte)) (s : State) : IsNext (execFlashWriteDone data s) := by
  refine isNext_ite ?_ (isNext_next s)
  cases data with
  | none => exact isNext_next _
  | some img => exact isNext_ite (isNext_next _) (isNext_next _)

theorem execSetOrphan_isNext (watts timeout : BitVec 16) (s : State) : IsNext (execSetOrphan watts timeout s) :=
  isNext_ite (isNext_next s) (isNext_ite (isNext_next _) (isNext_next _))

theorem execTempSample_isNext (dies iods hbms oes : List Int) (inlet outlet : Int) (s : State) :
    IsNext (execTempSample dies iods hbms oes inlet outlet s) := by
  refine isNext_ite (isNext_next s) (isNext_ite (isNext_next _) ?_)
  cases tripOf dies iods hbms oes with
  | none => exact isNext_next _
  | some trip => exact isNext_next _

/-! ### All commands -/

/-- No command faults and none is refused, whatever the state. The commands of the second group choose once between two
next states, as their condition holds or not. -/
theorem exec_isNext (c : Instr) (s : State) : IsNext (exec c s) := by
  cases c with
  | resetDrainEnd n => exact execResetDrainEnd_isNext n s
  | resetDone domain inst => exact execResetDone_isNext domain inst s
  | flashImageReadDone readable => exact execFlashImageReadDone_isNext readable s
  | recoveryLoadDone data => exact execRecoveryLoadDone_isNext data s
  | flashWriteDone data => exact execFlashWriteDone_isNext data s
  | setOrphan watts timeout => exact execSetOrphan_isNext watts timeout s
  | tempSample dies iods hbms oes inlet outlet => exact execTempSample_isNext dies iods hbms oes inlet outlet s
  | pwrEnOffHoldExpiry | mgmtResetEnd | mainRailOutOfRegulation | pwrGoodHoldElapsed | rootPllLock | mgmtPllFreeRun
  | hbmZeroFillDone | bootReady | setCap | setAlertCap | readStatus | i3cWake | powerSample | gainUpdate
  | currentGuardTrip | orphanTimeout | inputSag => exact isNext_ite (isNext_next _) (isNext_next _)
  | _ => exact isNext_next _

/-- Settles O56: each arm of `exec` ends in a next state. -/
theorem everyCommandCompletes : Obligations.EveryCommandCompletes := exec_isNext

end Sys2Proof.Machine
end

section
/-! PROOF. How a command completes, for the arms with one next state and for those that choose between two. -/
namespace Sys2Proof.Machine

/-- A command whose arm answers with one next state completes in it. -/
theorem completes_of_next {c : Instr} {s t : State} {P : State → Prop} (h : exec c s = .next t) (hP : P t) :
    Completes c s P := ⟨t, h, hP⟩

/-- A choice between two next states is a next state, with the result where each choice satisfies it. -/
theorem exists_next_ite {a b : State} {p : Prop} [Decidable p] {P : State → Prop} (ha : p → P a) (hb : ¬p → P b) :
    ∃ t, (if p then .next a else .next b : Result) = .next t ∧ P t := by
  by_cases hp : p
  · exact ⟨a, if_pos hp, ha hp⟩
  · exact ⟨b, if_neg hp, hb hp⟩

/-- A command whose arm chooses between two next states completes where each choice satisfies the result. -/
theorem completes_of_ite {c : Instr} {s a b : State} {p : Prop} [Decidable p] {P : State → Prop}
    (h : exec c s = if p then .next a else .next b) (ha : p → P a) (hb : ¬p → P b) : Completes c s P := by
  unfold Completes
  rw [h]
  exact exists_next_ite ha hb

end Sys2Proof.Machine
end

section
/-! PROOF. Power entry: what each shared operation of the supply does to the board. -/
namespace Sys2Proof.Machine

/-- THERM_TRIP_L stays unless PWR_EN has been off for 100 ms and the sensors read below 95 degrees (R43). -/
@[simp] theorem tripRelease_board (s : State) : s.tripRelease.board =
    { s.board with thermTrip := s.board.thermTrip && !(s.board.off100 && s.board.sensorsBelow95) } := by
  unfold State.tripRelease
  split
  case isTrue hrelease =>
    obtain ⟨⟨-, hoff⟩, hcool⟩ := by simpa only [Bool.and_eq_true] using hrelease
    simp [hoff, hcool]
  case isFalse hkept =>
    have hlatch : (s.board.thermTrip && !(s.board.off100 && s.board.sensorsBelow95)) = s.board.thermTrip := by
      simpa [or_assoc, Decidable.imp_iff_not_or] using hkept
    rw [hlatch]

/-- The main conversion starts where PWR_EN asks for it and nothing holds it (R18, R20, R30). -/
theorem tryStart_mainOn (s : State) : s.tryStart.board.mainOn = (s.board.mainOn || (s.board.pwrEn && s.board.standby &&
    s.board.vinOk && !s.board.offHold && !s.board.shutdown && !s.board.thermTrip && !s.board.p3)) := by
  unfold State.tryStart
  cases hon : s.board.mainOn
  case true => simp [hon]
  case false =>
    simp only [hon, Bool.false_or, Bool.not_false, Bool.and_true]
    split
    case isTrue hstart => exact hstart.symm
    case isFalse hheld =>
      rw [eq_false_of_ne_true hheld]
      split
      · rfl
      · exact hon

/-- An attempt to start the main conversion changes nothing of the board but `mainOn` and what it clears or notes. -/
theorem tryStart_board (s : State) :
    ∃ on held off, s.tryStart.board = { s.board with mainOn := on, pwrEnHeld := held, off100 := off } := by
  simp only [State.tryStart]
  split
  · exact ⟨_, _, _, rfl⟩
  · split <;> exact ⟨_, _, _, rfl⟩

@[simp] theorem tryStart_pwrEn (s : State) : s.tryStart.board.pwrEn = s.board.pwrEn := by
  obtain ⟨on, held, off, h⟩ := tryStart_board s; rw [h]
@[simp] theorem tryStart_vinOk (s : State) : s.tryStart.board.vinOk = s.board.vinOk := by
  obtain ⟨on, held, off, h⟩ := tryStart_board s; rw [h]
@[simp] theorem tryStart_offHold (s : State) : s.tryStart.board.offHold = s.board.offHold := by
  obtain ⟨on, held, off, h⟩ := tryStart_board s; rw [h]
@[simp] theorem tryStart_shutdown (s : State) : s.tryStart.board.shutdown = s.board.shutdown := by
  obtain ⟨on, held, off, h⟩ := tryStart_board s; rw [h]
@[simp] theorem tryStart_p3 (s : State) : s.tryStart.board.p3 = s.board.p3 := by
  obtain ⟨on, held, off, h⟩ := tryStart_board s; rw [h]

@[simp] theorem mainOff_board (s : State) :
    s.mainOff.board = { s.board with mainOn := false, railsOk := false, good1ms := false } := by
  simp [State.mainOff]

/-- Turning the main conversion off where it is on leaves it off, and the rest of the supply as it is. -/
theorem mainOff_if_on (s : State) : (if s.board.mainOn then s.mainOff else s).board.mainOn = false ∧
    (if s.board.mainOn then s.mainOff else s).board.standby = s.board.standby := by
  split
  case isTrue hon => simp
  case isFalse hoff => exact ⟨eq_false_of_ne_true hoff, rfl⟩

theorem inputShutdown_mainOn (s : State) (kind mv ma : Nat) : (s.inputShutdown kind mv ma).board.mainOn = false := by
  unfold State.inputShutdown
  split
  case isTrue hon => simp
  case isFalse hoff => exact eq_false_of_ne_true hoff

/-- The latch of R20 is set where the main conversion was on. -/
theorem inputShutdown_shutdown (s : State) (kind mv ma : Nat) :
    (s.inputShutdown kind mv ma).board.shutdown = (s.board.shutdown || s.board.mainOn) := by
  unfold State.inputShutdown
  split
  case isTrue hon => simp [hon]
  case isFalse hoff => simp [eq_false_of_ne_true hoff]

@[simp] theorem coolantCondition_board (s : State) (b : Nat) (on : Bool) :
    (s.coolantCondition b on).board = if b = 2 then { s.board with coolant := on } else s.board := by
  simp only [State.coolantCondition, apply_ite State.board, put_eq, setFld_board, raise_board, ite_self]

/-- A coolant pin that is applied as it stands leaves the board as it is. -/
theorem coolantCondition_board_same {s : State} {on : Bool} (h : s.board.coolant = on) :
    (s.coolantCondition 2 on).board = s.board := by
  subst h
  rw [coolantCondition_board, if_pos rfl]

/-- Starting the power-up sequence applies the inputs as they stand and changes none. -/
@[simp] theorem maybeStartSequence_board (s : State) : s.maybeStartSequence.board = s.board := by
  simp only [State.maybeStartSequence, State.startSequence]
  split
  · split
    case isTrue hcoolant => exact coolantCondition_board_same hcoolant
    case isFalse => rfl
  · rfl

/-- Settles O1: each clause follows from what the command's operation of the supply does to the board. -/
theorem powerEntryCommands : Obligations.PowerEntryCommands := by
  intro s
  refine ⟨?pwrEnAssert, ?pwrEnDeassert, ?offHoldExpiry, ?permitted, ?forcedOff, ?standbyOn, ?standbyOff, ?mgmtResetEnd,
    ?watchdog, ?overvoltage, ?overcurrent, ?railsGood, ?railLost, ?goodHold, ?perstAssert, ?perstRelease⟩
  case pwrEnAssert => exact completes_of_next rfl (by simp [tryStart_mainOn])
  case pwrEnDeassert => exact completes_of_next rfl (by simp [mainOff_if_on])
  case offHoldExpiry =>
    refine completes_of_ite rfl (fun hhold => ?_) (fun hnone => ?_)
    · cases hen : s.board.pwrEn <;> simp [hen, hhold]
    · simp [eq_false_of_ne_true hnone]
  case permitted => exact completes_of_next rfl (by simp [tryStart_mainOn])
  case forcedOff => exact completes_of_next rfl (by simp [mainOff_if_on])
  case standbyOn => exact completes_of_next rfl ⟨rfl, rfl⟩
  case standbyOff => exact completes_of_next rfl ⟨rfl, rfl, rfl, rfl, rfl, rfl⟩
  case mgmtResetEnd =>
    refine completes_of_ite rfl (fun hstart => ?_) (fun hnone => ?_)
    · obtain ⟨hstandby, -⟩ := (Bool.and_eq_true ..).mp hstart
      simp [hstandby]
    · cases hup : s.board.mgmtUp
      · simpa [hup] using hnone
      · rfl
  case watchdog => exact completes_of_next rfl ⟨rfl, rfl⟩
  case overvoltage => exact fun mv ma => completes_of_next rfl ⟨inputShutdown_mainOn .., inputShutdown_shutdown ..⟩
  case overcurrent => exact fun mv ma => completes_of_next rfl ⟨inputShutdown_mainOn .., inputShutdown_shutdown ..⟩
  case railsGood =>
    refine completes_of_next rfl ?_
    cases hon : s.board.mainOn <;> simp
  case railLost => exact completes_of_ite rfl (fun _ => rfl) eq_false_of_ne_true
  case goodHold =>
    refine completes_of_ite rfl (fun hgood => ?_) (fun hnone => ?_)
    · simp [hgood]
    · simp [eq_false_of_ne_true hnone]
  case perstAssert => exact completes_of_next rfl ⟨rfl, rfl⟩
  case perstRelease => exact completes_of_next rfl (by simp)

end Sys2Proof.Machine
end

section
/-! PROOF. The test access port: what `DBG_ACCESS` decodes from its 72 bits, and the access it then makes. -/
namespace Sys2Proof.Machine

/-- The 72 bits of `DBG_ACCESS` (R487): data, address in the page map, write. -/
def dbgWord (data addr : Nat) (write : Bool) : BitVec 72 := BitVec.ofNat 72 (data + 2 ^ 32 * addr + 2 ^ 64 * b2n write)

section
variable {data addr : Nat} (hd : data < 2 ^ 32) (ha : addr < 2 ^ 32) (write : Bool)
include hd ha

theorem dbgWord_toNat : (dbgWord data addr write).toNat = data + 2 ^ 32 * addr + 2 ^ 64 * b2n write := by
  have hbit : b2n write ≤ 1 := by cases write <;> decide
  exact (BitVec.toNat_ofNat ..).trans (Nat.mod_eq_of_lt (by omega))

theorem dbgWord_data : (dbgWord data addr write).toNat % 2 ^ 32 = data := by
  rw [dbgWord_toNat hd ha]; omega

theorem dbgWord_addr : field (dbgWord data addr write).toNat 32 32 = addr := by
  rw [dbgWord_toNat hd ha, field]; omega

theorem dbgWord_write : bit (dbgWord data addr write).toNat 64 = write := by
  have hquot : (data + 2 ^ 32 * addr + 2 ^ 64 * b2n write) / 2 ^ 64 = b2n write := by omega
  rw [dbgWord_toNat hd ha, bit, Nat.testBit_eq_decide_div_mod_eq, hquot]
  cases write <;> rfl

/-- `DBG_ACCESS` under an open scope makes the access that its parts name (R487). -/
theorem exec_dbgAccess {s : State} (hopen : s.jtagOpen = true) :
    exec (.dbgAccess (dbgWord data addr write)) s = .next (s.dbgAccess data addr write) := by
  refine congrArg Host.Outcome.next ((if_pos hopen).trans ?_)
  rw [dbgWord_data hd ha, dbgWord_addr hd ha, dbgWord_write hd ha]

end

/-- An access of JTAG that its scopes allow is one register access, as the management domain is up (R487). -/
theorem dbgAccess_of_allowed {s : State} {a : Nat} (hbar : s.jtagBar a = 0) (hup : s.board.mgmtUp = true) (data : Nat)
    (write : Bool) : s.dbgAccess data a write = if write then s.busWrite 17 a data 15 [] .ok
      else (s.busRead 17 a).2.emit (.regData 17 a (BitVec.ofNat 32 (s.busRead 17 a).1)) := by
  have hkind : s.accessKind 17 a = 3 := by simp [State.accessKind, hup]
  simp [State.dbgAccess, State.writeBy, State.readBy, hbar, hkind]

/-- Settles O6: the answers are those that the arms emit, and the 72 bits of `DBG_ACCESS` decode to their parts. -/
theorem jtagCommands : Obligations.JtagCommands := by
  intro s
  refine ⟨?idcode, ?boundaryScan, ?bypass, ?scanN, ?dbgAccess⟩
  case idcode => exact completes_of_next rfl rfl
  case boundaryScan => exact fun n => completes_of_next rfl ⟨rfl, rfl⟩
  case bypass => exact fun bits => completes_of_next rfl rfl
  case scanN =>
    refine fun chain bits => completes_of_next rfl ?_
    cases s.scope 6 <;> rfl
  case dbgAccess =>
    intro a v wr hopen hbar hup
    have ha : a % 2 ^ 32 < 2 ^ 32 := Nat.mod_lt _ (by decide)
    exact completes_of_next (exec_dbgAccess v.isLt ha wr hopen) (dbgAccess_of_allowed hbar hup v.toNat wr)

end Sys2Proof.Machine
end

section
/-! PROOF. Registers of the pages below those of the contexts: which of them an event leaves as it is. -/
namespace Sys2Proof.Machine

/-- Putting records into event rings writes `FAULT_COUNT` and registers of the LD pages, which lie from 0x401000 on. -/
theorem ringQuiet_of_lt {k : Nat} (hk : k < 0x401000 * 64) (hc : k ≠ R.FAULT_COUNT.COUNT.key 0 0) : ringQuiet k := by
  refine ⟨hc, fun ld => ?_⟩
  simp only [Fd.key, pageBase, R.LD_EVQ_TAIL.INDEX, R.LD_EVQ_DROPPED.COUNT, R.LD_STATUS.EVQ_OVF, hdrEvent]
  omega

/-- A register that an event of a page leaves as it is: it is no counter of events, not EVENT of that page, and of no
LD page. -/
theorem raise_page_fld {f : Fd} {i j code n : Nat} {p : Page} (hk : f.key i j < 0x401000 * 64)
    (hc : f.key i j ≠ R.FAULT_COUNT.COUNT.key 0 0) (hcls : f.key i j ≠ R.FAULT_COUNT.COUNT.key 0 (code / 0x1000))
    (hev : f.key i j ≠ (hdrEvent p).key n 0) (s : State) (c : Option Nat) (info : List Byte) :
    (s.raise (.page p n) c code info).fld f i j = s.fld f i j :=
  raise_fld ⟨ringQuiet_of_lt hk hc, hcls, hev⟩ s c info

end Sys2Proof.Machine
end

section
/-! PROOF. Sideband pins, laser sources, fibre arrays and clocks. -/
namespace Sys2Proof.Machine

/-- CAP_ALERT_L sets its own bit of the board, whatever else the alert does (R442). -/
theorem alertAssert_board (s : State) : s.alertAssert.board = { s.board with capAlert := true } := by
  simp only [State.alertAssert]
  split
  · rfl
  · rw [alertDuty_board, raise_board]
    have hload (u : State) (d n : Nat) :
        ∃ r, (if n = 0 then u else u.setFld R.WEIR_DIE.N 0 d (min (u.weirN d) (n - 1))) = { u with regs := r } := by
      split
      · exact ⟨_, rfl⟩
      · exact ⟨_, rfl⟩
    obtain ⟨r, hr⟩ := foldl_setFld_shape (List.range 8) _ (fun u d => hload u d (tget 0 u.weir.alert d)) _
    rw [hr]
    rfl

theorem alertRelease_board (s : State) : s.alertRelease.board = { s.board with capAlert := false } := by
  simp [State.alertRelease]

/-- COOLANT_PIN follows the pin while the main domain runs (R444). -/
theorem coolantCondition_pin {s : State} (hruns : s.mainRuns = true) (on : Bool) :
    (s.coolantCondition 2 on).fld R.THERM_STATUS.COOLANT_PIN = b2n on := by
  have hset : ∀ u : State, (u.put R.THERM_STATUS.COOLANT_PIN 0 (b2n on)).fld R.THERM_STATUS.COOLANT_PIN = b2n on :=
    fun u => (fld_setFld_self ..).trans (by cases on <;> rfl)
  have hraised (u : State) (info : List Byte) :
      (u.raise thermUnit none 0x1612 info).fld R.THERM_STATUS.COOLANT_PIN = u.fld R.THERM_STATUS.COOLANT_PIN :=
    raise_page_fld (by decide) (by decide) (by decide) (by decide) u none info
  unfold State.coolantCondition
  rw [if_pos rfl]
  dsimp only
  rw [if_neg (by simpa [State.mainRuns] using hruns)]
  split
  · rw [hraised, put_eq, fld_setFld_ne (h := by decide)]
    exact hset _
  · exact hset _

/-- Losing the clock leaves the board as it is. -/
theorem clockLost_if_board (s : State) (locked : Bool) (why : Nat) :
    (if locked then s.clockLost why else s).board = s.board := by
  cases locked
  · rfl
  · simp [State.clockLost]

/-- The main domain stops where the root PLL was locked (R50). -/
theorem clockLost_if_stopped (s : State) (locked : Bool) (why : Nat) :
    (if locked then s.clockLost why else s).power.stopped = (s.power.stopped || locked) := by
  cases locked
  · exact (Bool.or_false _).symm
  · exact (Bool.or_true _).symm

/-- Entering recovery wait leaves TICK and the sequence's hold as they are. -/
theorem enterRecovery_tick (s : State) (cause : Nat) : (s.enterRecovery cause).tick = s.tick := by
  simp [State.enterRecovery]

theorem enterRecovery_seqHold (s : State) (cause : Nat) : (s.enterRecovery cause).power.seqHold = s.power.seqHold := by
  simp [State.enterRecovery]

/-- Settles O2: what each pin or clock sets still stands after the events and duty requests that follow it. -/
theorem sidebandOpticsAndClockCommands : Obligations.SidebandOpticsAndClockCommands := by
  intro s
  refine ⟨?alertAssert, ?alertRelease, ?coolantAssert, ?coolantRelease, ?elsRemoved, ?elsInserted, ?unmated, ?mated,
    ?pllLock, ?refclkLoss, ?pllUnlock, ?freeRun, ?refclkReturn, ?boost⟩
  case alertAssert => exact completes_of_next rfl (by rw [alertAssert_board])
  case alertRelease => exact completes_of_next rfl (by rw [alertRelease_board])
  case coolantAssert => exact completes_of_next rfl ⟨by simp, fun hruns => coolantCondition_pin hruns true⟩
  case coolantRelease => exact completes_of_next rfl ⟨by simp, fun hruns => coolantCondition_pin hruns false⟩
  case elsRemoved => exact fun e => completes_of_next rfl rfl
  case elsInserted => exact fun e => completes_of_next rfl rfl
  case unmated => exact fun a => completes_of_next rfl rfl
  case mated => exact fun a => completes_of_next rfl rfl
  case pllLock =>
    refine completes_of_ite rfl (fun hlock => ?_) (fun hnone => ?_)
    · obtain ⟨hhold, hsysref⟩ := by simpa only [Bool.and_eq_true] using hlock
      split <;> simp [hhold, hsysref, enterRecovery_tick, enterRecovery_seqHold]
    · rw [if_neg hnone]
      refine ⟨rfl, ?_⟩
      cases hhold : s.power.seqHold
      · rfl
      · simpa [hhold] using hnone
  case refclkLoss =>
    exact completes_of_next rfl ⟨congrArg Board.sysref (clockLost_if_board _ _ 0), clockLost_if_stopped _ _ 0⟩
  case pllUnlock => exact completes_of_next rfl (clockLost_if_stopped _ _ 1)
  case freeRun =>
    refine completes_of_ite rfl (fun hon => ?_) (fun hoff => ?_)
    · simp [hon]
    · simp [eq_false_of_ne_true hoff]
  case refclkReturn => exact completes_of_next rfl ⟨rfl, rfl, fld_setFld_self ..⟩
  case boost =>
    refine fun d => completes_of_next rfl ?_
    split
    · exact fld_setFld_self ..
    · rfl

end Sys2Proof.Machine
end

section
/-! PROOF. The I3C commands (R34, R440). -/
namespace Sys2Proof.Machine

/-- A heartbeat writes ORPHAN and no other register. -/
theorem heartbeat_fld {f : Fd} {i j : Nat} (h : f.key i j ≠ R.PWR_STATUS.ORPHAN.key 0 0) (s : State) :
    s.heartbeat.fld f i j = s.fld f i j := fld_setFld_ne (h := h) ..

theorem heartbeat_orphan (s : State) : s.heartbeat.fld R.PWR_STATUS.ORPHAN = 0 := fld_setFld_self ..

/-- An ignored write changes the count of errors alone (R440). -/
theorem i3cIgnored_fld {f : Fd} {i j : Nat} (h : f.key i j ≠ R.PWR_I3C_ERRORS.COUNT.key 0 0) (s : State) :
    s.i3cIgnored.fld f i j = s.fld f i j := fld_setFld_ne (h := h) ..

/-- A cap in range fits its field (R440). -/
theorem cap_lt {watts : BitVec 16} (h : capInRange watts = true) : watts.toNat < 2 ^ 12 := by
  have hrange : 700 ≤ watts.toNat ∧ watts.toNat ≤ 2000 := of_decide_eq_true h
  omega

/-- `PWR_CAP` holds the cap that is written, also where it held it already (R439). -/
theorem setCap_cap (s : State) {cap : Nat} (h : cap < 2 ^ 12) (src : Nat) :
    (s.setCap cap src).fld R.PWR_CAP.CAP = cap := by
  have hraised (u : State) (info : List Byte) :
      (u.raise pwrUnit none 0x0602 info).fld R.PWR_CAP.CAP = u.fld R.PWR_CAP.CAP :=
    raise_page_fld (by decide) (by decide) (by decide) (by decide) u none info
  unfold State.setCap
  dsimp only
  split
  case isTrue hsame =>
    obtain ⟨hcap, -⟩ := (Bool.and_eq_true ..).mp hsame
    exact of_decide_eq_true hcap
  case isFalse =>
    have hquiet : dutyQuiet 0 (R.PWR_CAP.CAP.key 0 0) := by unfold dutyQuiet; decide
    rw [powerDuty_fld hquiet, hraised, put_eq, fld_setFld_ne (h := by decide), put_eq, fld_setFld_self]
    exact Nat.mod_eq_of_lt h

/-- A write that the target takes only where it has an address: elsewhere the state stays (R34, R440). -/
theorem completes_of_i3cWrite {c : Instr} {s : State} {r : Result} {P : State → Prop}
    (h : exec c s = if !s.i3cPrivate then .next s else r) (hclosed : s.i3cPrivate = false → P s)
    (hopen : s.i3cPrivate = true → ∃ t, r = .next t ∧ P t) : Completes c s P := by
  unfold Completes
  rw [h]
  cases hp : s.i3cPrivate
  · exact ⟨s, rfl, hclosed hp⟩
  · exact hopen hp

/-- Settles O5: a write is taken, ignored and counted, or not seen, and each case leaves the named field as it says. -/
theorem i3cCommands : Obligations.I3cCommands := by
  intro s
  refine ⟨?entdaa, ?setCap, ?setAlertCap, ?heartbeat, ?setOrphan, ?readStatus, ?wake, ?invalidWrite⟩
  case entdaa =>
    refine fun addr => completes_of_next rfl ?_
    cases s.i3cUp <;> rfl
  case setCap =>
    refine fun watts => completes_of_i3cWrite rfl (fun hclosed => ?_) (fun hopen => ⟨_, rfl, ?_⟩)
    · simp [hclosed]
    · rw [hopen, Bool.true_and]
      split
      case isTrue hrange => exact setCap_cap _ (cap_lt hrange) 2
      case isFalse => exact i3cIgnored_fld (by decide) s
  case setAlertCap =>
    refine fun watts => completes_of_i3cWrite rfl (fun hclosed => ?_) (fun hopen => ⟨_, rfl, ?_⟩)
    · simp [hclosed]
    · rw [hopen, Bool.true_and]
      split
      case isTrue hrange => exact (fld_setFld_self ..).trans (Nat.mod_eq_of_lt (cap_lt hrange))
      case isFalse => exact i3cIgnored_fld (by decide) s
  case heartbeat =>
    refine completes_of_next rfl ?_
    cases s.i3cPrivate
    · exact ⟨rfl, (Bool.or_false _).symm⟩
    · exact ⟨heartbeat_orphan s, rfl⟩
  case setOrphan =>
    refine fun watts timeout => completes_of_i3cWrite rfl (fun hclosed => ?_) (fun hopen => ?_)
    · simp [hclosed]
    · rw [hopen, Bool.true_and]
      refine exists_next_ite (fun hok => ?_) (fun hbad => ?_)
      · rw [if_pos hok]
        exact (fld_setFld_self ..).trans (Nat.mod_eq_of_lt timeout.isLt)
      · rw [if_neg hbad]
        exact i3cIgnored_fld (by decide) s
  case readStatus =>
    refine completes_of_ite rfl (fun hup => ?_) (fun hdown => ?_)
    · rw [if_pos hup]
      cases s.i3cPrivate <;> rfl
    · rw [if_neg hdown]
  case wake =>
    refine completes_of_ite rfl (fun hopen => ?_) (fun hclosed => ?_)
    · simp [hopen]
    · simp [eq_false_of_ne_true hclosed]
  case invalidWrite =>
    refine completes_of_next rfl ?_
    split
    · exact fld_setFld_self ..
    · rfl

end Sys2Proof.Machine
end

section
/-! PROOF. Flits: what one that is accepted and carries no NAK leaves as it is. -/
namespace Sys2Proof.Machine

theorem sendPort_regs (s : State) (k : Nat) (p : Packet) : (s.sendPort k p).regs = s.regs := by
  simp only [State.sendPort]
  split
  · rfl
  · rfl

/-- Starting the waiting packets of a port writes no register (R347). -/
theorem drainPort_regs (s : State) (k : Nat) : (s.drainPort k).regs = s.regs := by
  have hsend (q : List Packet) (u : State) : (q.foldl (fun s p => s.sendPort k p) u).regs = u.regs := by
    induction q generalizing u with
    | nil => rfl
    | cons p q ih => rw [List.foldl_cons, ih, sendPort_regs]
  exact hsend _ _

/-- An accepted flit without a NAK writes no register: the replay counter moves for a NAK only (R345). -/
theorem flitIn_regs {s : State} {k hdr crc : Nat} {data : List Byte} (hcrc : crc64 (leBytes hdr 8 ++ data) = crc)
    (hseq : field hdr 0 12 = (s.linkLayer k).rxNext) (hnak : bit hdr 24 = false) :
    (s.flitIn k hdr data crc).regs = s.regs := by
  simp only [State.flitIn]
  rw [if_neg (by simp [hcrc, hseq]), hnak]
  simp only [Bool.false_eq_true, if_false]
  split
  · exact drainPort_regs ..
  · exact drainPort_regs ..

/-- Over a link that carries link management, an accepted flit without a NAK leaves the replay counter as it is. -/
theorem flitReceive_replays {s t : State} {k : Fin 32} {hdr crc : Word64} {data : List Byte} {ce ue : BitVec 8}
    (htalks : s.linkTalks k = true) (hcrc : crc64 (leBytes hdr.toNat 8 ++ data) = crc.toNat)
    (hseq : field hdr.toNat 0 12 = (s.linkLayer k).rxNext) (hnak : bit hdr.toNat 24 = false)
    (hexec : exec (.flitReceive k hdr data crc ce ue) s = .next t) :
    t.fld R.LINK_REPLAYS.COUNT (k / 16) (k % 16) = s.fld R.LINK_REPLAYS.COUNT (k / 16) (k % 16) := by
  obtain rfl : _ = t := Host.Outcome.next.inj ((congrArg Host.Outcome.next (if_pos htalks)).symm.trans hexec)
  have hregs := flitIn_regs (s := (s.bumpAt R.LINK_FEC_CE.COUNT (k / 16) (k % 16) ce.toNat).bumpAt R.LINK_FEC_UE.COUNT
    (k / 16) (k % 16) ue.toNat) hcrc hseq hnak
  refine (State.sameReg.of_regs hregs).fld.trans ?_
  refine (fld_setFld_ne (h := ?_) ..).trans (fld_setFld_ne (h := ?_) ..)
  · simp only [Fd.key, R.LINK_REPLAYS.COUNT, R.LINK_FEC_UE.COUNT]; omega
  · simp only [Fd.key, R.LINK_REPLAYS.COUNT, R.LINK_FEC_CE.COUNT]; omega

/-- Link 0 is UP, and its replay counter holds 2^32, which its 32 bits cannot. -/
def replaysOverfull : State :=
  { State.reset with regs := [(R.LINK_STATE.STATE.key 0 0, linkUp), (R.LINK_REPLAYS.COUNT.key 0 0, 2 ^ 32)] }

/-- A flit without data whose header is 0 has a CRC of 0 (R345). -/
theorem emptyFlit_crc : crc64 (leBytes (0#64).toNat 8 ++ []) = (0#64).toNat := by decide +kernel

/-- Refutes O31: its clause on flits asks for the replay counter modulo 2^32 after every accepted flit, also after one
without a NAK, which leaves the counter as it is. The two differ where the counter holds 2^32, as in `replaysOverfull`
before a flit with header 0. A write cuts a register to its width (`fld_setFld_self`), so what fails is the clause's
reach over every state: it lacks the premise that the counter fits its 32 bits. -/
theorem not_linkCommands : ¬ Obligations.LinkCommands := by
  unfold Obligations.LinkCommands
  intro h
  obtain ⟨-, -, -, -, -, -, -, -, -, -, hflit, -⟩ := h replaysOverfull
  obtain ⟨t, hexec, ht⟩ := hflit 0 0#64 [] 0#64 0#8 0#8
  have hkept := flitReceive_replays (by decide) emptyFlit_crc (by decide) (by decide) hexec
  rw [if_neg (by decide), if_pos ⟨emptyFlit_crc, by decide⟩] at ht
  obtain ⟨-, -, -, -, -, hwrapped⟩ := ht
  exact absurd (hkept.symm.trans hwrapped) (by decide)

end Sys2Proof.Machine
end

section
/-! PROOF. Little-endian bytes: their number, and single bits of them. -/
namespace Sys2Proof.Machine

@[simp] theorem length_leBytes (v n : Nat) : (leBytes v n).length = n := by
  induction n generalizing v with
  | zero => rfl
  | succ n ih => rw [leBytes, List.length_cons, ih]

/-- Byte `i` of a number's little-endian bytes. -/
theorem getElem?_leBytes (v : Nat) {n i : Nat} (h : i < n) : (leBytes v n)[i]? = some (BitVec.ofNat 8 (v / 256 ^ i)) := by
  induction n generalizing v i with
  | zero => omega
  | succ n ih =>
    cases i with
    | zero => rw [leBytes, List.getElem?_cons_zero, Nat.pow_zero, Nat.div_one]
    | succ i => rw [leBytes, List.getElem?_cons_succ, ih _ (by omega), Nat.div_div_eq_div_mul, ← Nat.pow_succ']

/-- The number that a number's first `n` little-endian bytes spell. -/
theorem ofLe_leBytes (v n : Nat) : ofLe (leBytes v n) = v % 256 ^ n := by
  induction n generalizing v with
  | zero => rw [leBytes, ofLe, Nat.pow_zero, Nat.mod_one]
  | succ n ih => rw [leBytes, ofLe, ih, BitVec.toNat_ofNat, show 2 ^ 8 = 256 from rfl, Nat.pow_succ', Nat.mod_mul]

/-- Bit `b` of byte `i` of a number is the number's bit `8i + b`. -/
theorem getLsbD_leByte (v i : Nat) {b : Nat} (h : b < 8) : (BitVec.ofNat 8 (v / 256 ^ i)).getLsbD b = bit v (8 * i + b) := by
  rw [BitVec.getLsbD_ofNat, decide_eq_true h, Bool.true_and, show 256 ^ i = 2 ^ (8 * i) from (Nat.pow_mul 2 8 i).symm,
    Nat.testBit_div_two_pow, bit, Nat.add_comm]

/-- Scratchpad bytes that are a number's little-endian bytes, one by one, read as those bytes. -/
theorem scrRead_eq_leBytes {k : Core} {a v n : Nat}
    (h : ∀ i, i < n → tget 0#8 k.scr (a + i) = BitVec.ofNat 8 (v / 256 ^ i)) : k.scrRead a n = leBytes v n := by
  unfold Core.scrRead
  induction n generalizing a v with
  | zero => rfl
  | succ n ih =>
    rw [tgetAll, leBytes, show tget 0#8 k.scr a = _ from h 0 (by omega), Nat.pow_zero, Nat.div_one, ih fun i hi => ?_]
    rw [Nat.div_div_eq_div_mul, ← Nat.pow_succ', ← h (i + 1) (by omega), Nat.add_right_comm, Nat.add_assoc]

end Sys2Proof.Machine
end

section
/-! PROOF. The flags record of the matrix engine (R131). -/
namespace Sys2Proof.Machine

/-- Bytes 4-7 of the flags record: the mode, PAN_BP and the buffer's format (R131). -/
def Engine.modeWord (e : Engine) : Nat := e.mode % 4 + 4 * (e.bp % 256) + 1024 * (e.afmt % 4)

/-- The invalid bits that the flags record shows: those of the tile's rows (R131). -/
def Engine.badWord (e : Engine) : Nat := if e.mode = 2 then e.bad % 2 ^ 128 else e.bad

/-- The flags record by its named words (R131). -/
theorem record_eq (e : Engine) : e.record =
    leBytes (e.flags % 256) 4 ++ leBytes e.modeWord 4 ++ List.replicate 24 0#8 ++ leBytes e.badWord 32 := rfl

@[simp] theorem length_record (e : Engine) : e.record.length = 64 := by simp [record_eq]

/-- The bytes of the flags record, one by one. -/
theorem getElem?_record (e : Engine) {i : Nat} (h : i < 64) : e.record[i]? = some (
    if i < 4 then BitVec.ofNat 8 (e.flags % 256 / 256 ^ i)
    else if i < 8 then BitVec.ofNat 8 (e.modeWord / 256 ^ (i - 4))
    else if i < 32 then 0#8
    else BitVec.ofNat 8 (e.badWord / 256 ^ (i - 32))) := by
  rw [record_eq]
  split
  case isTrue h4 =>
    rw [List.append_assoc, List.append_assoc, List.getElem?_append_left (by simpa using h4), getElem?_leBytes _ h4]
  case isFalse h4 =>
    split
    case isTrue h8 =>
      rw [List.append_assoc, List.getElem?_append_left (by simpa using h8), List.getElem?_append_right (by simpa using h4),
        length_leBytes, getElem?_leBytes _ (by omega)]
    case isFalse h8 =>
      split
      case isTrue h32 =>
        rw [List.getElem?_append_left (by simpa using h32), List.getElem?_append_right (by simpa using h8),
          List.getElem?_replicate_of_lt (by simp; omega)]
      case isFalse h32 =>
        rw [List.getElem?_append_right (by simpa using h32), getElem?_leBytes _ (by simp; omega)]
        simp

@[simp] theorem setEngine_engine (k : Core) (e : Engine) : (k.setEngine e).engine = e := rfl
@[simp] theorem setEngine_scr (k : Core) (e : Engine) : (k.setEngine e).scr = k.scr := rfl
@[simp] theorem scrWrite_engine (k : Core) (a : Nat) (bs : List Byte) : (k.scrWrite a bs).engine = k.engine := rfl
@[simp] theorem mxNext_scr (k : Core) : k.mxNext.scr = k.scr := rfl
@[simp] theorem mxNext_flags (k : Core) : k.mxNext.engine.flags = k.engine.flags := rfl
@[simp] theorem mxNext_record (k : Core) : k.mxNext.engine.record = k.engine.record := rfl
@[simp] theorem lostWords_nil (a n : Nat) : lostWords a n [] = [] := rfl

/-- The core that MX_STF leaves where none of its words is lost: the head taken, the record written, the flags zeroed
under CLR (R131). -/
def Core.storeFlags (k : Core) (dst : BitVec 14) (clr : Bool) : Core :=
  let k := k.mxNext.scrWrite (64 * dst.toNat) k.engine.record
  if clr then k.setEngine { k.engine with flags := 0 } else k

/-- Where no word of it is lost, MX_STF changes its core as `storeFlags` says. -/
theorem exec_mxStf_core {s : State} {core : Fin 512} {dst : BitVec 14} {clr : Bool}
    (h : s.mxHead core = some (.stf dst clr)) :
    ∃ t, exec (.mxStf core []) s = .next t ∧ t.core core = (s.core core).storeFlags dst clr := by
  have hexec : exec (.mxStf core []) s = execMxStf core [] s := rfl
  simp only [hexec, execMxStf, h, State.mxPop, State.scrPut, lostWords_nil, List.foldl_nil, if_true]
  refine ⟨_, rfl, ?_⟩
  cases clr
  case false => simp [Core.storeFlags, Core.scrWriteBut, Nat.mul_comm 64]
  case true => simp [Core.storeFlags, Core.scrWriteBut, Nat.mul_comm 64]

theorem storeFlags_flags (k : Core) (dst : BitVec 14) (clr : Bool) :
    (k.storeFlags dst clr).engine.flags = if clr = true then 0 else k.engine.flags := by
  cases clr
  case false => simp [Core.storeFlags]
  case true => simp [Core.storeFlags]

theorem storeFlags_scr (k : Core) (dst : BitVec 14) (clr : Bool) :
    (k.storeFlags dst clr).scr = (k.scrWrite (64 * dst.toNat) k.engine.record).scr := by
  cases clr
  case false => simp only [Core.storeFlags, Core.scrWrite, mxNext_scr, if_false, Bool.false_eq_true]
  case true => simp only [Core.storeFlags, Core.scrWrite, mxNext_scr, setEngine_scr, if_true]

/-- After MX_STF, the 64 bytes of the word that it names are those of the flags record. -/
theorem tget_storeFlags (k : Core) (dst : BitVec 14) (clr : Bool) {i : Nat} (h : i < 64) :
    tget 0#8 (k.storeFlags dst clr).scr (64 * dst.toNat + i) = (k.engine.record[i]?).getD 0#8 := by
  rw [storeFlags_scr, scrWrite_tget, if_pos (by rw [length_record]; omega), Nat.add_sub_cancel_left]

section
variable (k : Core) (dst : BitVec 14) (clr : Bool)

/-- Bits [7:0] of the first byte are the sticky flags (R131). -/
theorem storeFlags_flagBit {i : Nat} (h : i < 8) :
    (tget 0#8 (k.storeFlags dst clr).scr (64 * dst.toNat)).getLsbD i = bit k.engine.flags i := by
  have hbyte := tget_storeFlags k dst clr (i := 0) (by omega)
  rw [getElem?_record _ (by omega), if_pos (by omega), Nat.add_zero] at hbyte
  rw [hbyte, Option.getD_some, getLsbD_leByte _ 0 h, bit, show 256 = 2 ^ 8 from rfl, Nat.testBit_mod_two_pow,
    decide_eq_true (by omega), Bool.true_and, bit, Nat.mul_zero, Nat.zero_add]

/-- Bits [31:8] of the first word are 0 (R131). -/
theorem storeFlags_flagPad {i : Nat} (h0 : 0 < i) (h : i < 4) :
    tget 0#8 (k.storeFlags dst clr).scr (64 * dst.toNat + i) = 0#8 := by
  have hsmall : k.engine.flags % 256 < 256 ^ i :=
    Nat.lt_of_lt_of_le (Nat.mod_lt _ (by omega)) (Nat.le_self_pow (by omega) 256)
  rw [tget_storeFlags _ _ _ (by omega), getElem?_record _ (by omega), if_pos h, Nat.div_eq_of_lt hsmall]
  rfl

/-- The second word holds the mode, PAN_BP and the buffer's format (R131). -/
theorem storeFlags_modeWord : ofLe ((k.storeFlags dst clr).scrRead (64 * dst.toNat + 4) 4) = k.engine.modeWord := by
  have hread : (k.storeFlags dst clr).scrRead (64 * dst.toNat + 4) 4 = leBytes k.engine.modeWord 4 := by
    refine scrRead_eq_leBytes fun i hi => ?_
    rw [Nat.add_assoc, tget_storeFlags _ _ _ (by omega), getElem?_record _ (by omega), if_neg (by omega), if_pos (by omega),
      Nat.add_sub_cancel_left]
    rfl
  rw [hread, ofLe_leBytes, Engine.modeWord]
  omega

/-- Bytes 8-31 of the record are 0 (R131). -/
theorem storeFlags_pad {i : Nat} (h : i < 24) :
    tget 0#8 (k.storeFlags dst clr).scr (64 * dst.toNat + 8 + i) = 0#8 := by
  rw [Nat.add_assoc, tget_storeFlags _ _ _ (by omega), getElem?_record _ (by omega), if_neg (by omega), if_neg (by omega),
    if_pos (by omega)]
  rfl

/-- Bit `i` of the invalid bits stands at bit `i` of the record's last 32 bytes (R131). -/
theorem storeFlags_badBit {i : Nat} (h : i < 256) :
    (tget 0#8 (k.storeFlags dst clr).scr (64 * dst.toNat + 32 + i / 8)).getLsbD (i % 8) = bit k.engine.badWord i := by
  rw [Nat.add_assoc, tget_storeFlags _ _ _ (by omega), getElem?_record _ (by omega), if_neg (by omega), if_neg (by omega),
    if_neg (by omega), Option.getD_some, Nat.add_sub_cancel_left, getLsbD_leByte _ _ (Nat.mod_lt _ (by omega)),
    Nat.div_add_mod]

end

/-- The flags record shows the invalid bits of the tile's rows: in deep mode, of rows 0-7 (R131). -/
theorem bit_badWord (e : Engine) (r n : Fin 16) :
    bit e.badWord (16 * r + n) = (bit e.bad (16 * r + n) && (decide (e.mode ≠ 2) || decide (r.val < 8))) := by
  unfold Engine.badWord
  split
  case isTrue hdeep =>
    have hrow : 16 * r.val + n.val < 128 ↔ r.val < 8 := by omega
    rw [bit, Nat.testBit_mod_two_pow, Bool.and_comm, bit]
    simp [hdeep, hrow]
  case isFalse hmode => simp [hmode]

/-- Settles O51: MX_STF leaves its core as `storeFlags` says, and the record's bytes are read field by field. -/
theorem flagsRecord : Obligations.FlagsRecord := by
  unfold Obligations.FlagsRecord
  intro s core dst clr hhead _
  obtain ⟨t, hexec, hcore⟩ := exec_mxStf_core hhead
  refine completes_of_next hexec ?_
  rw [hcore, storeFlags_modeWord]
  refine ⟨fun i => storeFlags_flagBit _ _ _ i.isLt, fun i => ?_, ?_, ?_, ?_, ?_, fun i => storeFlags_pad _ _ _ i.isLt,
    fun r n => ?_, storeFlags_flags _ _ _⟩
  case refine_1 => rw [Nat.add_assoc]; exact storeFlags_flagPad _ _ _ (by omega) (by omega)
  case refine_2 => simp only [field, Engine.modeWord]; omega
  case refine_3 => simp only [field, Engine.modeWord]; omega
  case refine_4 => simp only [field, Engine.modeWord]; omega
  case refine_5 => simp only [field, Engine.modeWord]; omega
  case refine_6 => rw [storeFlags_badBit _ _ _ (by omega), bit_badWord]

end Sys2Proof.Machine
end

section
/-! PROOF. The matrix engine's commands: a stream fault of MX_MMW ends the context, and with it the core's barge waits. -/
namespace Sys2Proof.Machine

/-- Core 0 of context 0 runs. It waits at tag 0 for a barge (X_BWAIT), and the head of its matrix queue is an MX_MMW of
one slab, whose stream of 64 bytes is too short for the slab's headers. -/
def shortStreamInBarge : State :=
  { State.reset with
    power := { Power.reset with inReset := false, running := true }
    cores := [(0, { Core.reset with
      engine := { Engine.reset with queue := [.mmw 0#14 1#14 0#7 0#7] }
      tags := [(0, ⟨true, 0, false⟩)]
      xops := [.mk' 0 0x4D 2 0 0 0] })]
    regs := [(R.CORE_STATE.STATE.key 0 0, coreRunning)] }.setFld R.CTX_CORES.BITS 0 0 1

theorem shortStreamInBarge_head : shortStreamInBarge.mxHead (0 : Fin 512) = some (.mmw 0#14 1#14 0#7 0#7) := by decide

/-- The stream fault (R122) ends the context, which abandons its barges (R507): the wait's tag completes (R271, R276). -/
theorem shortStreamInBarge_tags {t : State} (hexec : exec (.mxMmw 0 .ok) shortStreamInBarge = .next t) :
    (t.core (0 : Fin 512)).tags = [] := by
  obtain rfl : _ = t := Host.Outcome.next.inj hexec
  decide +kernel

/-- Refutes O19: its clause on MX_MMW keeps every tag of the core also where the stream has a fault. The fault ends the
context, so that a barge wait of the core is abandoned and its tag is no longer BUSY, as after the MX_MMW of
`shortStreamInBarge`. The clause lacks the premise that the stream has no fault. -/
theorem not_matrixEngineCommands : ¬ Obligations.MatrixEngineCommands := by
  unfold Obligations.MatrixEngineCommands
  intro h
  obtain ⟨-, -, hmmw, -⟩ := h shortStreamInBarge
  obtain ⟨t, hexec, ht⟩ := hmmw 0 .ok 0#14 1#14 0#7 0#7 shortStreamInBarge_head
  rw [if_neg (by decide), if_neg (by decide)] at ht
  obtain ⟨⟨-, -, -, -, hkept, -⟩, -⟩ := ht
  exact absurd ((shortStreamInBarge_tags hexec).symm.trans hkept) (by decide)

end Sys2Proof.Machine
end

section
/-! PROOF. Copying a subpage: the bytes that arrive, and what the traffic that is booked for it leaves as it is. -/
namespace Sys2Proof.Machine

/-- Byte `i` of consecutive entries of a table. -/
theorem getElem?_tgetAll {α : Type} (d : α) (t : Table α) {k n i : Nat} (h : i < n) :
    (tgetAll d t k n)[i]? = some (tget d t (k + i)) := by
  induction n generalizing k i with
  | zero => omega
  | succ n ih =>
    cases i with
    | zero => rfl
    | succ i => rw [tgetAll, List.getElem?_cons_succ, ih (by omega), Nat.add_right_comm, Nat.add_assoc]

@[simp] theorem tgetAll_one {α : Type} (d : α) (t : Table α) (k : Nat) : tgetAll d t k 1 = [tget d t k] := rfl

theorem length_tgetAll {α : Type} (d : α) (t : Table α) (k n : Nat) : (tgetAll d t k n).length = n := by
  induction n generalizing k with
  | zero => rfl
  | succ n ih => rw [tgetAll, List.length_cons, ih]

@[simp] theorem length_physRead (s : State) (tier loc off n : Nat) : (s.physRead tier loc off n).length = n := by
  unfold State.physRead
  split
  · exact length_tgetAll ..
  · exact length_tgetAll ..

/-- An offset of a subpage counts from the address of its first byte. -/
theorem physAddr_eq_add (loc : Nat) {o : Nat} (h : o < 65536) : physAddr loc o = physAddr loc 0 + o := by
  unfold physAddr
  omega

/-- One byte of a subpage, out of the whole subpage. -/
theorem getElem?_physRead_subpage (s : State) (tier loc : Nat) {o : Nat} (h : o < 65536) :
    [(s.physRead tier loc 0 65536)[o]?.getD 0#8] = s.physRead tier loc o 1 := by
  unfold State.physRead
  split
  · rw [getElem?_tgetAll _ _ h, physAddr_eq_add loc h, tgetAll_one, Option.getD_some]
  · rw [getElem?_tgetAll _ _ h, physAddr_eq_add loc h, tgetAll_one, Option.getD_some]

/-- One byte of a subpage whose bytes have just been written. -/
theorem physRead_physWrite (s : State) (tier loc : Nat) {bs : List Byte} (hlen : bs.length = 65536) {o : Nat} (h : o < 65536) :
    (s.physWrite tier loc 0 bs).physRead tier loc o 1 = [bs[o]?.getD 0#8] := by
  have hbyte (m : Table Byte) : tgetAll 0#8 (tsetAll 0#8 m (physAddr loc 0) bs) (physAddr loc o) 1 = [bs[o]?.getD 0#8] := by
    rw [physAddr_eq_add loc h, tgetAll_one, tget_tsetAll, if_pos (by omega), Nat.add_sub_cancel_left]
  unfold State.physRead State.physWrite
  split
  · exact hbyte _
  · exact hbyte _

@[simp] theorem physRead_setFld (s : State) (f : Fd) (i j v tier loc off n : Nat) :
    (s.setFld f i j v).physRead tier loc off n = s.physRead tier loc off n := rfl
@[simp] theorem physRead_setCtx (s : State) (c : Nat) (x : Ctx) (tier loc off n : Nat) :
    (s.setCtx c x).physRead tier loc off n = s.physRead tier loc off n := rfl
@[simp] theorem physRead_hbmBytes (s : State) (c k tier loc off n : Nat) :
    (s.hbmBytes c k).physRead tier loc off n = s.physRead tier loc off n := rfl
@[simp] theorem physRead_internalEdit (s : State) (c src op t a0 a1 count tier loc off n : Nat) :
    (s.internalEdit c src op t a0 a1 count).physRead tier loc off n = s.physRead tier loc off n := rfl

/-- Of context `c`, `t` differs from `s` in the remainder of its HBM account; of the registers, in that account. -/
structure State.sameButHbmAcct (c : Nat) (s t : State) : Prop where
  ctx : ∃ r, t.ctx c = { s.ctx c with remHbm := r }
  reg : ∀ k, k ≠ R.CTX_ACCT_HBM.COUNT.key c 0 → s.sameReg k t

theorem State.sameButHbmAcct.refl (c : Nat) (s : State) : s.sameButHbmAcct c s := ⟨⟨_, rfl⟩, fun _ _ => .refl s⟩

theorem State.sameButHbmAcct.trans {c : Nat} {s t u : State} (h : s.sameButHbmAcct c t) (h' : t.sameButHbmAcct c u) :
    s.sameButHbmAcct c u := by
  obtain ⟨r, hr⟩ := h.ctx
  obtain ⟨r', hr'⟩ := h'.ctx
  exact ⟨⟨r', by rw [hr', hr]⟩, fun k hk => (h.reg k hk).trans (h'.reg k hk)⟩

theorem hbmBytes_acct (s : State) (c n : Nat) : s.sameButHbmAcct c (s.hbmBytes c n) :=
  ⟨⟨(unitsOf (s.ctx c).remHbm n 4096).2, by simp [State.hbmBytes]⟩, fun _ hk => (setFld_reg (s.setCtx c _) _ _ _ _ hk).from_regs rfl⟩

theorem physWrite_acct (s : State) (c tier loc off : Nat) (bs : List Byte) :
    s.sameButHbmAcct c (s.physWrite tier loc off bs) := by
  unfold State.physWrite
  split
  · exact ⟨⟨_, rfl⟩, fun _ _ => .of_regs rfl⟩
  · exact ⟨⟨_, rfl⟩, fun _ _ => .of_regs rfl⟩

/-- Traffic of T1 and T2 is booked where it reaches T2 (R421). -/
theorem hbmBytes_if_acct (s : State) (c n : Nat) (p : Prop) [Decidable p] :
    s.sameButHbmAcct c (if p then s.hbmBytes c n else s) := by
  split
  · exact hbmBytes_acct ..
  · exact .refl c s

theorem physRead_hbmBytes_if (s : State) (c k tier loc off n : Nat) (p : Prop) [Decidable p] :
    (if p then s.hbmBytes c k else s).physRead tier loc off n = s.physRead tier loc off n := by
  split
  · exact physRead_hbmBytes ..
  · rfl

theorem pathOk_of_lt (s : State) (c : Nat) {tier : Nat} (h : tier < 2) : s.pathOk c tier = s := if_neg (by omega)

theorem subCost_of_lt (s : State) (c : Nat) {e : Nat} (h : leafTier e < 2) :
    s.subCost c e = if leafTier e = 1 then s.hbmBytes c 65536 else s := by
  rw [State.subCost, pathOk_of_lt s c h]

theorem subBytes_of_lt (s : State) {e : Nat} (h : leafTier e < 2) (data : List Byte) :
    s.subBytes e data = s.physRead (leafTier e) (leafLoc e) 0 65536 := if_neg (by omega)

theorem subPut_of_lt (s : State) (c : Nat) {tier : Nat} (h : tier < 2) (loc : Nat) (bs : List Byte) : s.subPut c tier loc bs =
    if tier = 1 then (s.physWrite tier loc 0 bs).hbmBytes c 65536 else s.physWrite tier loc 0 bs := if_neg (by omega)

theorem subPut_acct (s : State) (c : Nat) {tier : Nat} (h : tier < 2) (loc : Nat) (bs : List Byte) :
    s.sameButHbmAcct c (s.subPut c tier loc bs) := by
  rw [subPut_of_lt s c h]
  exact (physWrite_acct ..).trans (hbmBytes_if_acct ..)

/-- A subpage's bytes that are put at a location of T1 or T2 stand there. -/
theorem physRead_subPut (s u : State) (c : Nat) {tier : Nat} (h : tier < 2) (loc tier' loc' : Nat) {o : Nat} (ho : o < 65536) :
    (s.subPut c tier loc (u.physRead tier' loc' 0 65536)).physRead tier loc o 1 = u.physRead tier' loc' o 1 := by
  rw [subPut_of_lt s c h, physRead_hbmBytes_if, physRead_physWrite _ _ _ (length_physRead ..) ho,
    getElem?_physRead_subpage _ _ _ ho]

end Sys2Proof.Machine
end

section
/-! PROOF. The ends of the Sluice's transfers between T1 and T2 (R182, R186, R187). -/
namespace Sys2Proof.Machine

@[simp] theorem copy_setCopy_self (x : Ctx) (sub : Nat) (k : Copy) : (x.setCopy sub k).copy sub = k := tget_tset_self ..

theorem copy_setCopy_ne (x : Ctx) {sub sub' : Nat} (k : Copy) (h : sub' ≠ sub) : (x.setCopy sub k).copy sub' = x.copy sub' :=
  tget_tset_ne _ _ _ _ h

/-- A leaf entry names the tier that it was made for. -/
theorem leafTier_mkLeaf (perm loc : Nat) {tier : Nat} (h : tier < 4) : leafTier (mkLeaf perm tier loc) = tier := by
  unfold leafTier mkLeaf field
  omega

section
variable {s : State} {c sub : Nat} {k : Copy} (hcopy : (s.ctx c).copy sub = k)
include hcopy

section
variable (hrun : s.halted = false) (hmove : (s.ctx c).move sub = Copy.none) (data : List Byte) (failed : Bool)
include hrun hmove

/-- The end of a fill from T1 or T2 meets no failure of T3. -/
theorem transferDone_filling (hstate : k.state = 0) (hk : k ≠ Copy.none) (hsrc : leafTier (s.leaf c sub) < 2) :
    s.transferDone c sub data failed false = s.fillDone c sub data := by
  have hpooled : leafTier (s.leaf c sub) ≠ 2 := by omega
  simp [State.transferDone, Ctx.inFlight, hcopy, hmove, hrun, hk, hstate, hpooled, Nat.not_le.mpr hsrc]

/-- The end of a write-back from T1 or T2 to a home in T1 or T2 meets no failure of T3. -/
theorem transferDone_writingBack (hstate : k.state = 3) (htier : k.tier < 2) (hhome : leafTier k.home < 2) :
    s.transferDone c sub data failed false = s.writtenBack c sub := by
  have hk : k ≠ Copy.none := by rintro rfl; exact absurd hstate (by decide)
  have hpooled : leafTier k.home ≠ 2 := by omega
  have hcopied : k.tier ≠ 2 := by omega
  simp [State.transferDone, Ctx.inFlight, hcopy, hmove, hrun, hk, hstate, leafTier_mkLeaf _ _ (show k.tier < 4 by omega),
    hpooled, hcopied, Nat.not_le.mpr htier, Nat.not_le.mpr hhome]

end

/-- A fill that no write has overtaken, of a copy whose switch waits for a boundary (R186, R187). -/
theorem fillDone_of_unwritten (hwritten : k.written = false) (himm : k.immediate = false) (data : List Byte) :
    s.fillDone c sub data = ((((s.subCost c (s.leaf c sub)).subPut c k.tier k.loc (s.subBytes (s.leaf c sub) data)).bump
      R.SLUICE_STAGED.COUNT c).modCtx c fun x => x.setCopy sub { k with state := 1 }).internalEdit c 1 20 0 (sub * 65536) 0 1 := by
  simp [State.fillDone, hcopy, hwritten, himm]

/-- A write-back that no write has overtaken, of a copy that stays (R182). -/
theorem writtenBack_of_unwritten (hwritten : k.written = false) (hback : k.back = false) :
    s.writtenBack c sub =
      ((if k.tier = 1 then (s.subPut c (leafTier k.home) (leafLoc k.home) (s.physRead k.tier k.loc 0 65536)).hbmBytes c 65536
        else s.subPut c (leafTier k.home) (leafLoc k.home) (s.physRead k.tier k.loc 0 65536)).bump
          R.SLUICE_WRITTEN_BACK.COUNT c).modCtx c fun x => x.setCopy sub { k with state := 2, dirty := false, stuck := false } := by
  simp [State.writtenBack, hcopy, hwritten, hback]

/-- A fill's end makes the copy READY, counts it, queues its switch, and leaves the source's bytes at the copy (R186,
R187). -/
theorem fillDone_ready (hwritten : k.written = false) (himm : k.immediate = false) (hsrc : leafTier (s.leaf c sub) < 2)
    (htier : k.tier < 2) (data : List Byte) {o : Nat} (ho : o < 65536) :
    ((s.fillDone c sub data).ctx c).copy sub = { k with state := 1 } ∧
    (s.fillDone c sub data).fld R.SLUICE_STAGED.COUNT c = (s.fld R.SLUICE_STAGED.COUNT c + 1) % 2 ^ 64 ∧
    (s.fillDone c sub data).physRead k.tier k.loc o 1 =
      s.physRead (leafTier (s.leaf c sub)) (leafLoc (s.leaf c sub)) o 1 ∧
    ((s.fillDone c sub data).ctx c).queue.length = (s.ctx c).queue.length + 1 := by
  rw [fillDone_of_unwritten hcopy hwritten himm, subCost_of_lt s c hsrc, subBytes_of_lt s hsrc]
  have hbytes := physRead_subPut (if leafTier (s.leaf c sub) = 1 then s.hbmBytes c 65536 else s) s c htier k.loc
    (leafTier (s.leaf c sub)) (leafLoc (s.leaf c sub)) ho
  obtain ⟨⟨r, hctx⟩, hreg⟩ := (hbmBytes_if_acct s c 65536 (leafTier (s.leaf c sub) = 1)).trans
    (subPut_acct _ c htier k.loc (s.physRead (leafTier (s.leaf c sub)) (leafLoc (s.leaf c sub)) 0 65536))
  have hcount := (hreg (R.SLUICE_STAGED.COUNT.key c 0)
    (by simp only [Fd.key, pageBase, R.SLUICE_STAGED.COUNT, R.CTX_ACCT_HBM.COUNT]; omega)).fld
  refine ⟨?_, ?_, ?_, ?_⟩
  · simp [State.internalEdit, Ctx.copy, Ctx.setCopy]
  · simp only [State.internalEdit, modCtx_eq, fld_setCtx, bump_eq, fld_setFld_self, hcount]
    rfl
  · simpa using hbytes
  · simp [State.internalEdit, hctx, Ctx.setCopy]

/-- A write-back's end makes the copy clean, counts it, and leaves the copy's bytes at its home (R182). -/
theorem writtenBack_clean (hwritten : k.written = false) (hback : k.back = false) (hhome : leafTier k.home < 2)
    {o : Nat} (ho : o < 65536) :
    ((s.writtenBack c sub).ctx c).copy sub = { k with state := 2, dirty := false, stuck := false } ∧
    (s.writtenBack c sub).fld R.SLUICE_WRITTEN_BACK.COUNT c = (s.fld R.SLUICE_WRITTEN_BACK.COUNT c + 1) % 2 ^ 64 ∧
    (s.writtenBack c sub).physRead (leafTier k.home) (leafLoc k.home) o 1 = s.physRead k.tier k.loc o 1 := by
  rw [writtenBack_of_unwritten hcopy hwritten hback]
  have hbytes := physRead_subPut s s c hhome (leafLoc k.home) k.tier k.loc ho
  obtain ⟨-, hreg⟩ := (subPut_acct s c hhome (leafLoc k.home) (s.physRead k.tier k.loc 0 65536)).trans
    (hbmBytes_if_acct _ c 65536 (k.tier = 1))
  have hcount := (hreg (R.SLUICE_WRITTEN_BACK.COUNT.key c 0)
    (by simp only [Fd.key, pageBase, R.SLUICE_WRITTEN_BACK.COUNT, R.CTX_ACCT_HBM.COUNT]; omega)).fld
  refine ⟨?_, ?_, ?_⟩
  · simp
  · simp only [modCtx_eq, fld_setCtx, bump_eq, fld_setFld_self, hcount]
    rfl
  · simpa [physRead_hbmBytes_if] using hbytes

end

/-- The end of a transfer that is none in flight, or on a halted module, changes nothing (R511). -/
theorem transferDone_idle {s : State} {c sub : Nat} (h : s.halted = true ∨ (s.ctx c).inFlight sub = false) (data : List Byte)
    (failed ue : Bool) : s.transferDone c sub data failed ue = s :=
  if_pos (by rcases h with h | h <;> simp [h])

end Sys2Proof.Machine
end

section
/-! PROOF. The release of copies, the late layers and pages, and the retry of stuck write-backs (R189, R194, R199, R203). -/
namespace Sys2Proof.Machine

/-- What one step after another leaves as it is. -/
theorem foldl_keeps {α β : Type} {f : State → α → State} {p : State → β} (h : ∀ s a, p (f s a) = p s) (l : List α)
    (s : State) : p (l.foldl f s) = p s := by
  induction l generalizing s with
  | nil => rfl
  | cons a l ih => rw [List.foldl_cons, ih, h]

/-! ### Release (R189) -/

theorem physZero_ctxs (s : State) (tier loc : Nat) : (s.physZero tier loc).ctxs = s.ctxs := by
  unfold State.physZero
  split <;> rfl

@[simp] theorem useSub_ctxs (s : State) (c tier n : Nat) : (s.useSub c tier n).ctxs = s.ctxs := rfl

theorem drop_ctxs (s : State) (c tier loc : Nat) : (s.drop c tier loc).ctxs = s.ctxs := by
  unfold State.drop
  split
  · rw [useSub_ctxs, physZero_ctxs]
  · split
    · rw [useSub_ctxs, physZero_ctxs]
    · rfl

theorem dropHome_ctxs (s : State) (c tier loc : Nat) : (s.dropHome c tier loc).ctxs = s.ctxs := by
  unfold State.dropHome
  split
  · split
    · exact drop_ctxs ..
    · rfl
  · exact drop_ctxs ..

/-- Freeing locations changes no context. -/
theorem freed_ctxs (c : Nat) (l : List Release) (s : State) : (l.foldl (fun s r =>
    if r.isCopy then s.drop c r.tier r.loc else s.dropHome c r.tier r.loc) s).ctxs = s.ctxs := by
  refine foldl_keeps (fun s r => ?_) l s
  split
  · exact drop_ctxs ..
  · exact dropHome_ctxs ..

theorem fillWaiting_of_nil {s : State} {c tier : Nat} (h : (s.ctx c).waiting tier = []) : s.fillWaiting c tier = s := by
  simp [State.fillWaiting, h]

theorem cmdAdvance_of_none {s : State} {c : Nat} (h : (s.ctx c).cmd = none) : s.cmdAdvance c = s := by
  simp [State.cmdAdvance, h]

/-- Where nothing waits for the space and no command runs, a release leaves the locations that a reader can still hold. -/
theorem freeReleased_releases {s : State} {c : Nat} (h0 : (s.ctx c).waiting 0 = []) (h1 : (s.ctx c).waiting 1 = [])
    (hcmd : (s.ctx c).cmd = none) : ((s.freeReleased c).ctx c).releases =
      (s.ctx c).releases.filter fun r => !(decide (r.epoch ≤ s.oldest c) && !s.locInUse c r.tier r.loc) := by
  unfold State.freeReleased
  extract_lets ready l kept freed
  have hctx : freed.ctx c = { s.ctx c with releases := (s.ctx c).releases.filter fun r => !ready r } := by
    rw [State.ctx, freed_ctxs]
    exact ctx_setCtx_self ..
  have hw0 : (freed.ctx c).waiting 0 = [] := by rw [hctx]; exact h0
  have hw1 : (freed.ctx c).waiting 1 = [] := by rw [hctx]; exact h1
  have hnone : (freed.ctx c).cmd = none := by rw [hctx]; exact hcmd
  rw [fillWaiting_of_nil hw0, fillWaiting_of_nil hw1, cmdAdvance_of_none hnone, hctx]

/-! ### Late layers and pages (R194, R199) -/

/-- A field of a register of the Sluice's page past the common header (R519). -/
def Fd.ofSluice (f : Fd) : Prop := f.page = .sluice ∧ 0x100 ≤ f.off ∧ f.off < 0x1000 ∧ f.lo < 64

theorem sluiceLate_ofSluice : R.SLUICE_LATE.COUNT.ofSluice := ⟨rfl, by decide⟩

theorem tierFaults_ofSluice : R.SLUICE_TIER_FAULTS.COUNT.ofSluice := ⟨rfl, by decide⟩

section
variable {f : Fd} {code : Nat} (hf : f.ofSluice) (hcode : code < 0x6000)
include hf hcode

/-- An event of a Sluice page leaves the registers past that page's header as they are: it writes `FAULT_COUNT`, EVENT of
the header, and registers of the LD pages. -/
theorem raise_sluice_fld (s : State) (c : Nat) (ctx : Option Nat) (info : List Byte) :
    (s.raise (sluiceUnit c) ctx code info).fld f c = s.fld f c := by
  obtain ⟨hpage, hheader, hend, hlo⟩ := hf
  refine raise_fld ⟨⟨?_, fun ld => ?_⟩, ?_, ?_⟩ s ctx info
  all_goals
    simp only [sluiceUnit, Fd.key, hpage, pageBase, R.FAULT_COUNT.COUNT, R.LD_EVQ_TAIL.INDEX, R.LD_EVQ_DROPPED.COUNT,
      R.LD_STATUS.EVQ_OVF, hdrEvent]
    omega

/-- A request's fault that the Sluice records leaves the registers past its page's header as they are. -/
theorem reqFault_fld (s : State) (c slot gen fault : Nat) :
    (s.reqFault c slot gen fault code (sluiceUnit c)).fld f c = s.fld f c := by
  unfold State.reqFault
  extract_lets m noted told
  have hnoted : noted.fld f c = s.fld f c := by
    unfold noted
    split <;> rfl
  split
  · exact (raise_sluice_fld hf hcode ..).trans hnoted
  · exact hnoted

end

/-- A late page is counted once, however many requests map it. -/
theorem tierFault_count {s : State} {c tier loc : Nat} (h : s.kvMaps c tier loc ≠ []) :
    (s.tierFault c tier loc).fld R.SLUICE_TIER_FAULTS.COUNT c = (s.fld R.SLUICE_TIER_FAULTS.COUNT c + 1) % 2 ^ 32 := by
  have hkept : (s.kvFault c tier loc 6 0x3202 (sluiceUnit c)).fld R.SLUICE_TIER_FAULTS.COUNT c =
      s.fld R.SLUICE_TIER_FAULTS.COUNT c :=
    foldl_keeps (p := fun s => s.fld R.SLUICE_TIER_FAULTS.COUNT c)
      (fun s slot => reqFault_fld tierFaults_ofSluice (by decide) ..) _ s
  rw [State.tierFault, if_neg h, bump_eq, fld_setFld_self, hkept]
  rfl

/-- A KV page is late where its home is in T3 and it is being moved into T2 or a walk runs. -/
def State.pageLate (s : State) (c sub : Nat) : Prop :=
  2 ≤ leafTier (s.homeLeaf c sub) ∧ (((s.ctx c).move sub ≠ Copy.none ∧ ((s.ctx c).move sub).state = 0 ∧
    ((s.ctx c).move sub).tier = 1) ∨ s.walkRuns c = true)

theorem pageLate_iff (s : State) (c sub : Nat) :
    (decide (2 ≤ leafTier (s.homeLeaf c sub)) && ((s.ctx c).move sub != Copy.none &&
      decide (((s.ctx c).move sub).state = 0) && decide (((s.ctx c).move sub).tier = 1) || s.walkRuns c)) = true ↔
      s.pageLate c sub := by
  simp [State.pageLate, and_assoc]

/-- A late page that some sequence maps is counted. -/
theorem tierWait_of_pageLate {s : State} {c sub : Nat} (h : s.pageLate c sub)
    (hmaps : s.kvMaps c (leafTier (s.homeLeaf c sub)) (leafLoc (s.homeLeaf c sub)) ≠ []) :
    (s.tierWait c sub).fld R.SLUICE_TIER_FAULTS.COUNT c = (s.fld R.SLUICE_TIER_FAULTS.COUNT c + 1) % 2 ^ 32 := by
  rw [State.tierWait, if_pos ((pageLate_iff s c sub).mpr h), tierFault_count hmaps]

/-- A page that is not late, or that no sequence maps, changes nothing. -/
theorem tierWait_of_not_pageLate {s : State} {c sub : Nat}
    (h : ¬(s.pageLate c sub ∧ s.kvMaps c (leafTier (s.homeLeaf c sub)) (leafLoc (s.homeLeaf c sub)) ≠ [])) :
    s.tierWait c sub = s := by
  unfold State.tierWait
  dsimp only
  split
  case isTrue hlate => exact if_pos (Decidable.not_not.mp fun hmaps => h ⟨(pageLate_iff s c sub).mp hlate, hmaps⟩)
  case isFalse => rfl

/-- The Sluice tells of a layer that a core of the context waits for, that cannot be read, and that it has not told of in
this step. -/
def State.tellsLate (s : State) (c l : Nat) : Prop :=
  (∃ n ∈ s.coresOf c, ∃ x ∈ (s.core n).xops, x.kind = 0x45 ∧ x.a = l) ∧ s.layerReady c l = false ∧
    l ∉ (s.ctx c).member.lateTold

theorem tellsLate_iff (s : State) (c l : Nat) :
    (((s.coresOf c).any fun n => (s.core n).xops.any fun x => decide (x.kind = 0x45 ∧ x.a = l)) &&
      !s.layerReady c l && !(s.ctx c).member.lateTold.contains l) = true ↔ s.tellsLate c l := by
  simp [State.tellsLate, and_assoc]

/-- A late layer is counted and noted. -/
theorem sluiceLate_of_tellsLate {s : State} {c l : Nat} (h : s.tellsLate c l) :
    (s.sluiceLate c l).fld R.SLUICE_LATE.COUNT c = (s.fld R.SLUICE_LATE.COUNT c + 1) % 2 ^ 32 ∧
      ((s.sluiceLate c l).ctx c).member.lateTold = (s.ctx c).member.lateTold ++ [l] := by
  rw [State.sluiceLate, if_pos ((tellsLate_iff s c l).mpr h), ctx_raise,
    raise_sluice_fld sluiceLate_ofSluice (by decide)]
  exact ⟨fld_setFld_self .., by simp⟩

theorem sluiceLate_of_not_tellsLate {s : State} {c l : Nat} (h : ¬s.tellsLate c l) : s.sluiceLate c l = s := by
  rw [State.sluiceLate, if_neg fun hlate => h ((tellsLate_iff s c l).mp hlate)]

/-! ### The retry of stuck write-backs (R203) -/

/-- What a retry makes of a copy: a write-back that a failure holds begins again. -/
def Copy.retried (k : Copy) : Copy :=
  if k.stuck = true ∧ k.state = 2 then { k with state := 3, written := false, retries := 0 } else k

/-- The retry of one entry of the context's copies. -/
def State.retryEntry (c : Nat) (s : State) (e : Nat × Copy) : State :=
  if e.2.stuck && decide (e.2.state = 2) then
    s.modCtx c fun x => x.setCopy e.1 { e.2 with state := 3, written := false, retries := 0 }
  else s

theorem retryStuck_eq (s : State) (c : Nat) : s.retryStuck c = (s.ctx c).copies.foldl (State.retryEntry c) s := rfl

theorem retryEntry_copy_ne (s : State) (c : Nat) (e : Nat × Copy) {sub : Nat} (h : sub ≠ e.1) :
    ((s.retryEntry c e).ctx c).copy sub = (s.ctx c).copy sub := by
  unfold State.retryEntry
  split
  · rw [modCtx_eq, ctx_setCtx_self, copy_setCopy_ne _ _ h]
  · rfl

theorem retryEntry_copy_self {s : State} {c sub : Nat} {k : Copy} (h : (s.ctx c).copy sub = k) :
    ((s.retryEntry c (sub, k)).ctx c).copy sub = k.retried := by
  unfold State.retryEntry Copy.retried
  by_cases hdue : k.stuck = true ∧ k.state = 2
  · rw [if_pos hdue, if_pos (by simp [hdue]), modCtx_eq, ctx_setCtx_self, copy_setCopy_self]
  · rw [if_neg hdue, if_neg (by simpa using hdue), h]

/-- A copy below the lowest key of the entries that are retried stays as it is. -/
theorem retryEntries_copy_of_lt (c : Nat) {t : Table Copy} {lo sub : Nat} (ht : tableWf Copy.none lo t = true)
    (hsub : sub < lo) (s : State) : ((t.foldl (State.retryEntry c) s).ctx c).copy sub = (s.ctx c).copy sub := by
  induction t generalizing lo s with
  | nil => rfl
  | cons e t ih =>
    obtain ⟨j, w⟩ := e
    simp only [tableWf, Bool.and_eq_true, decide_eq_true_eq] at ht
    obtain ⟨⟨hj, -⟩, ht⟩ := ht
    rw [List.foldl_cons, ih ht (by omega), retryEntry_copy_ne _ _ _ (by dsimp only; omega)]

/-- A copy that the context holds as a canonical table has it is retried with the table's entries. -/
theorem retryEntries_copy (c : Nat) {t : Table Copy} {lo sub : Nat} (ht : tableWf Copy.none lo t = true) (hsub : lo ≤ sub)
    {s : State} (hs : (s.ctx c).copy sub = tget Copy.none t sub) :
    ((t.foldl (State.retryEntry c) s).ctx c).copy sub = ((s.ctx c).copy sub).retried := by
  induction t generalizing lo s with
  | nil => rw [hs]; exact hs
  | cons e t ih =>
    obtain ⟨j, w⟩ := e
    simp only [tableWf, Bool.and_eq_true, decide_eq_true_eq] at ht
    obtain ⟨-, ht⟩ := ht
    rw [tget_cons] at hs
    rw [List.foldl_cons]
    rcases Nat.lt_trichotomy sub j with hlt | rfl | hgt
    · rw [if_pos hlt] at hs
      rw [retryEntries_copy_of_lt c ht (by omega), retryEntry_copy_ne _ _ _ (by dsimp only; omega), hs]
      rfl
    · rw [if_neg (Nat.lt_irrefl _), if_pos rfl] at hs
      rw [retryEntries_copy_of_lt c ht (Nat.lt_succ_self _), retryEntry_copy_self hs, hs]
    · rw [if_neg (by omega), if_neg (by omega)] at hs
      have hkept := retryEntry_copy_ne s c (j, w) (sub := sub) (by dsimp only; omega)
      rw [ih ht hgt (hkept.trans hs), hkept]

/-- The retry of a context retries each of its copies. -/
theorem retryStuck_copy {s : State} {c : Nat} (h : tableWf Copy.none 0 (s.ctx c).copies = true) (sub : Nat) :
    ((s.retryStuck c).ctx c).copy sub = ((s.ctx c).copy sub).retried :=
  retryEntries_copy c h (Nat.zero_le sub) rfl

end Sys2Proof.Machine
end

section
/-! PROOF. The statement about the Sluice's events. -/
namespace Sys2Proof.Machine

/-- A choice between two statements says that each holds in its case. -/
theorem ite_iff_cases {p a b : Prop} [Decidable p] : (if p then a else b) ↔ (p → a) ∧ (¬p → b) := by
  by_cases hp : p
  · simp only [hp, if_true, not_true_eq_false, forall_const, false_implies, and_true]
  · simp only [hp, if_false, not_false_eq_true, forall_const, false_implies, true_and]

/-- Settles O22: each clause is what the named operation of the Sluice does, on the path that its premises choose. -/
theorem sluiceEventCommands : Obligations.SluiceEventCommands := by
  unfold Obligations.SluiceEventCommands
  intro s
  refine ⟨?filled, ?writtenBack, ?idle, ?release, ?late, ?tierWait, ?retry⟩
  case filled =>
    rintro ctx sub data failed _ k o hrun hcopy hmove hstate hk hwritten himm hsrc htier - rfl
    refine completes_of_next (congrArg Host.Outcome.next (transferDone_filling hcopy hrun hmove data failed hstate hk hsrc)) ?_
    exact fillDone_ready hcopy hwritten himm hsrc htier data o.isLt
  case writtenBack =>
    rintro ctx sub data failed _ k o hrun hcopy hmove hstate hwritten hback htier hhome rfl
    refine completes_of_next
      (congrArg Host.Outcome.next (transferDone_writingBack hcopy hrun hmove data failed hstate htier hhome)) ?_
    exact writtenBack_clean hcopy hwritten hback hhome o.isLt
  case idle => exact fun ctx sub data failed ue h => completes_of_next rfl (transferDone_idle h data failed ue)
  case release => exact fun ctx h0 h1 hcmd => completes_of_next rfl (freeReleased_releases h0 h1 hcmd)
  case late =>
    refine fun ctx layer => completes_of_next rfl ?_
    rw [ite_iff_cases]
    exact ⟨sluiceLate_of_tellsLate, sluiceLate_of_not_tellsLate⟩
  case tierWait =>
    refine fun ctx sub => completes_of_next rfl ?_
    rw [ite_iff_cases]
    exact ⟨fun ⟨htier, hwaits, hmaps⟩ => tierWait_of_pageLate ⟨htier, hwaits⟩ hmaps,
      fun h => tierWait_of_not_pageLate fun ⟨⟨htier, hwaits⟩, hmaps⟩ => h ⟨htier, hwaits, hmaps⟩⟩
  case retry => exact fun ctx sub h => completes_of_next rfl (retryStuck_copy h sub.toNat)

end Sys2Proof.Machine
end

section
/-! PROOF. A pending advance whose apply subtracts from the epoch: the tier of a copy is out of range. -/
namespace Sys2Proof.Machine

/-- Context 0 waits to advance from epoch 1. Its queue holds the FREE of subpage 0, whose leaf entry stands in a page
table that is its own directory at each level. The Sluice's record of that subpage names tier 1014, which no tier code
is: entry 1014 of `SLUICE_USAGE` would lie where `XLAT_EPOCH` does. -/
def freeOfTier1014 : State :=
  { State.reset with
    regs := [(R.XLAT_STATUS.ADV_PENDING.key 0 0, 1), (R.XLAT_EPOCH.EPOCH.key 0 0, 1), (R.XLAT_OLDEST.EPOCH.key 0 0, 1)]
    hbm := [(0, 1#8)]
    ctxs := [(0, { Ctx.reset with
      copies := [(0, { Copy.none with state := 2, tier := 1014, home := 1 })]
      queue := [⟨0, 0, 3, 0, 0, 0, 1⟩] })] }

/-- The FREE drops the copy, and its count of tier 1014 takes one off the epoch before the advance adds one. -/
theorem freeOfTier1014_epoch {t : State} (hexec : exec (.advanceApply 0) freeOfTier1014 = .next t) : t.epoch 0 = 1 := by
  obtain rfl : _ = t := Host.Outcome.next.inj hexec
  decide +kernel

/-- What the obligation asks of a pending advance that nothing holds back: the epoch advances. -/
theorem advance_epoch_of_obligation (h : Obligations.TranslationEventCommands) {s : State} {ctx : Fin 16}
    (hpending : s.on R.XLAT_STATUS.ADV_PENDING ctx = true) (hcores : s.coresOf ctx = [])
    (hlive : s.oldest ctx = s.epoch ctx) :
    ∃ t, exec (.advanceApply ctx) s = .next t ∧ t.epoch ctx = (s.epoch ctx + 1) % 2 ^ 32 := by
  unfold Obligations.TranslationEventCommands at h
  obtain ⟨-, hadvance, -⟩ := h s
  obtain ⟨t, hexec, ht⟩ := hadvance ctx
  have hgoes : ¬(s.on R.XLAT_STATUS.ADV_PENDING ctx = false ∨ ∃ n ∈ s.coresOf ctx, s.coreState n = coreRunning) := by
    rw [hpending, hcores]
    simp
  rw [if_neg hgoes, if_neg (not_not_intro hlive)] at ht
  obtain ⟨-, -, hepoch⟩ := ht
  exact ⟨t, hexec, hepoch⟩

/-- Refutes O23: its clause on a pending advance asks for the next epoch from every state. In `freeOfTier1014` the FREE that
the advance applies gives a copy of tier 1014 up, and the count of that tier is the register bits of `XLAT_EPOCH`, so
that the epoch ends at 1 and not at 2. A tier code has two bits, so what fails is the clause's reach over every state: it
lacks the premise that the Sluice's records name tiers below 4. -/
theorem not_translationEventCommands : ¬ Obligations.TranslationEventCommands := by
  intro h
  obtain ⟨t, hexec, hepoch⟩ := advance_epoch_of_obligation h (s := freeOfTier1014) (ctx := 0)
    (by decide) (by decide +kernel) (by decide)
  exact absurd ((freeOfTier1014_epoch hexec).symm.trans hepoch) (by decide)

end Sys2Proof.Machine
end

section
/-! PROOF. The refusal of a SEQ_SET at apply (R218, R222): what a pending advance leaves of descriptors, queue and counts. -/
namespace Sys2Proof.Machine

/-! ### Registers of one page -/

/-- Where a field lies in its page, in bits. -/
def Fd.place (f : Fd) : Nat := f.off * 64 + f.lo

/-- Writing a field leaves the fields at other places of the same page alone. -/
theorem fld_put_ne (s : State) {f g : Fd} (i v : Nat) (hpage : g.page = f.page) (h : g.place ≠ f.place) :
    (s.put f i v).fld g i = s.fld g i := by
  refine fld_setFld_ne (h := fun hkey => h ?_) ..
  simp only [Fd.key, hpage] at hkey
  unfold Fd.place
  omega

/-! ### The withdrawal of switches (R188) -/

/-- `t` has the registers of `s`, and context `c`'s descriptors and queued edits. -/
structure State.sameEdits (c : Nat) (s t : State) : Prop where
  regs : t.regs = s.regs
  descs : (t.ctx c).descs = (s.ctx c).descs
  queue : (t.ctx c).queue = (s.ctx c).queue

theorem State.sameEdits.refl (c : Nat) (s : State) : s.sameEdits c s := ⟨rfl, rfl, rfl⟩

theorem State.sameEdits.trans {c : Nat} {s t u : State} (h : s.sameEdits c t) (h' : t.sameEdits c u) : s.sameEdits c u :=
  ⟨h'.regs.trans h.regs, h'.descs.trans h.descs, h'.queue.trans h.queue⟩

theorem State.sameEdits.fld {c : Nat} {s t : State} (h : s.sameEdits c t) (f : Fd) (i j : Nat) : t.fld f i j = s.fld f i j :=
  (State.sameReg.of_regs h.regs).fld

/-- No queued edit of the context is a switch of the Sluice. -/
def State.switchless (s : State) (c : Nat) : Prop := ∀ e ∈ (s.ctx c).queue, e.op < 20

theorem State.sameEdits.switchless {c : Nat} {s t : State} (h : s.sameEdits c t) (hs : s.switchless c) : t.switchless c := by
  unfold State.switchless
  rw [h.queue]
  exact hs

/-- Where no switch is queued, a withdrawal takes no edit out. -/
theorem withdraw_sameEdits {s : State} {c : Nat} (h : s.switchless c) (sub : Nat) : s.sameEdits c (s.withdraw c sub) := by
  have hkept : ((s.ctx c).queue.filter fun e => !(decide (20 ≤ e.op ∧ e.op ≤ 23) && decide (e.arg0 = sub * 65536))) =
      (s.ctx c).queue := by
    refine List.filter_eq_self.mpr fun e he => ?_
    have hop := h e he
    simp only [Bool.not_and, Bool.or_eq_true, Bool.not_eq_true', decide_eq_false_iff_not]
    omega
  have hctx : (s.withdraw c sub).ctx c = { s.ctx c with queue := (s.ctx c).queue.filter fun e =>
      !(decide (20 ≤ e.op ∧ e.op ≤ 23) && decide (e.arg0 = sub * 65536)) } := ctx_setCtx_self ..
  exact ⟨rfl, by rw [hctx], by rw [hctx, hkept]⟩

/-- Asking T3 for a subpage only gives an output. -/
theorem askSub_sameEdits (s : State) (c e : Nat) : s.sameEdits c (s.askSub c e) := by
  unfold State.askSub State.farAsk
  split
  · split
    · split <;> exact ⟨rfl, rfl, rfl⟩
    · exact ⟨rfl, rfl, rfl⟩
  · exact .refl c s

theorem setCopy_sameEdits (s : State) (c sub : Nat) (k : Copy) : s.sameEdits c (s.modCtx c fun x => x.setCopy sub k) :=
  ⟨rfl, by simp [Ctx.setCopy], by simp [Ctx.setCopy]⟩

theorem setMove_sameEdits (s : State) (c sub : Nat) (k : Copy) : s.sameEdits c (s.modCtx c fun x => x.setMove sub k) :=
  ⟨rfl, by simp [Ctx.setMove], by simp [Ctx.setMove]⟩

/-- Steps that each leave the edits as they are do so one after another. -/
theorem foldl_sameEdits {α : Type} {c : Nat} {f : State → α → State}
    (hf : ∀ (t : State) (a : α), t.switchless c → t.sameEdits c (f t a)) (l : List α) {s : State} (h : s.switchless c) :
    s.sameEdits c (l.foldl f s) := by
  induction l generalizing s with
  | nil => exact .refl c s
  | cons a l ih =>
    have hstep := hf s a h
    exact hstep.trans (ih (hstep.switchless h))

/-- Where no switch is queued, the check of the switches leaves registers, descriptors and queue as they are. -/
theorem checkSwitches_sameEdits {s : State} {c : Nat} (h : s.switchless c) : s.sameEdits c (s.checkSwitches c) := by
  unfold State.checkSwitches
  extract_lets checked
  have hchecked : s.sameEdits c checked := by
    refine foldl_sameEdits (fun t e ht => ?_) _ h
    split
    · exact (withdraw_sameEdits ht _).trans ((setCopy_sameEdits ..).trans (askSub_sameEdits ..))
    · split
      · exact (withdraw_sameEdits ht _).trans (setCopy_sameEdits ..)
      · exact .refl c t
  refine hchecked.trans (foldl_sameEdits (fun t e ht => ?_) _ (hchecked.switchless h))
  split
  · exact (withdraw_sameEdits ht _).trans ((setMove_sameEdits ..).trans (askSub_sameEdits ..))
  · exact .refl c t

/-! ### The refusal (R218, R222) -/

/-- The range of a SEQ_SET reaches outside the context's window, or overlaps that of another valid descriptor (R218). -/
def State.rangeBarred (s : State) (c : Nat) (e : Edit) : Prop :=
  e.desc.base < s.addr R.XLAT_VA_LO.ADDR c ∨ s.addr R.XLAT_VA_HI.ADDR c < e.desc.base + e.desc.span ∨
    ((s.ctx c).descs.any fun o => decide (o.1 ≠ field e.arg0 0 10 ∧ o.2.base < e.desc.base + e.desc.span ∧
      e.desc.base < o.2.base + o.2.span)) = true

theorem applyEdit_of_rangeBarred {s : State} {c : Nat} {e : Edit} (hop : e.op = 5) (h : s.rangeBarred c e) :
    ∃ cause, s.applyEdit c e = .error cause := by
  unfold State.applyEdit
  simp only [hop]
  by_cases hwindow : e.desc.base < s.addr R.XLAT_VA_LO.ADDR c ∨ s.addr R.XLAT_VA_HI.ADDR c < e.desc.base + e.desc.span
  · exact ⟨1, if_pos hwindow⟩
  · rw [if_neg hwindow]
    exact ⟨2, if_pos ((h.resolve_left fun hlo => hwindow (.inl hlo)).resolve_left fun hhi => hwindow (.inr hhi))⟩

/-- Whether a range is barred depends on the window's registers and the descriptors only. -/
theorem State.rangeBarred.of_eq {s t : State} {c : Nat} {e : Edit} (h : s.rangeBarred c e)
    (hlo : t.fld R.XLAT_VA_LO.ADDR c = s.fld R.XLAT_VA_LO.ADDR c)
    (hhi : t.fld R.XLAT_VA_HI.ADDR c = s.fld R.XLAT_VA_HI.ADDR c) (hdescs : (t.ctx c).descs = (s.ctx c).descs) :
    t.rangeBarred c e := by
  unfold State.rangeBarred State.addr
  rw [hlo, hhi, hdescs]
  exact h

/-- An event of a context's XLAT page leaves `XLAT_UQ_REFUSED` as it is. -/
theorem raise_xlat_refused (s : State) (c : Nat) (ctx : Option Nat) (info : List Byte) :
    (s.raise (xlatUnit c) ctx 0x0221 info).fld R.XLAT_UQ_REFUSED.COUNT c = s.fld R.XLAT_UQ_REFUSED.COUNT c := by
  refine raise_fld ⟨⟨?_, fun ld => ?_⟩, ?_, ?_⟩ s ctx info
  all_goals
    simp only [xlatUnit, Fd.key, pageBase, R.XLAT_UQ_REFUSED.COUNT, R.FAULT_COUNT.COUNT, R.LD_EVQ_TAIL.INDEX,
      R.LD_EVQ_DROPPED.COUNT, R.LD_STATUS.EVQ_OVF, hdrEvent]
    omega

/-- A host edit that is refused is counted, and changes no context. -/
theorem editRefused_host {s : State} {c : Nat} {e : Edit} (hsrc : e.src = 0) (cause : Nat) :
    (s.editRefused c e cause).ctx c = s.ctx c ∧ (s.editRefused c e cause).fld R.XLAT_UQ_REFUSED.COUNT c =
      (s.fld R.XLAT_UQ_REFUSED.COUNT c + 1) % 2 ^ 32 := by
  rw [State.editRefused, if_pos hsrc, raise_xlat_refused]
  exact ⟨by simp, fld_setFld_self ..⟩

/-- Retiring an epoch changes no context (R224). -/
theorem retireEpoch_ctx (s : State) (c d : Nat) : (s.retireEpoch c).ctx d = s.ctx d := by
  unfold State.retireEpoch
  split <;> rfl

/-- The advance of the epoch, with the retirement that may follow it, leaves `XLAT_UQ_REFUSED` as it is. -/
theorem epochAdvanced_refused (s : State) (c v : Nat) :
    ((s.put R.XLAT_EPOCH.EPOCH c v).retireEpoch c).fld R.XLAT_UQ_REFUSED.COUNT c = s.fld R.XLAT_UQ_REFUSED.COUNT c := by
  have hput : (s.put R.XLAT_EPOCH.EPOCH c v).fld R.XLAT_UQ_REFUSED.COUNT c = s.fld R.XLAT_UQ_REFUSED.COUNT c :=
    fld_put_ne s c v rfl (by decide)
  unfold State.retireEpoch
  split
  · exact (fld_put_ne (f := R.XLAT_OLDEST.EPOCH) (g := R.XLAT_UQ_REFUSED.COUNT) _ c _ rfl (by decide)).trans hput
  · exact hput

/-- The state with nothing queued for the context, on which an apply takes the edits in turn. -/
def State.emptied (s : State) (c : Nat) : State := s.modCtx c fun x => { x with queue := [] }

theorem emptied_ctx (s : State) (c : Nat) : (s.emptied c).ctx c = { s.ctx c with queue := [] } := ctx_setCtx_self ..

/-- The apply of a queue that holds one host edit, which is refused: no page is edited, no allocation of the Rake is to be
answered, and the epoch advances. -/
theorem applyQueue_refused {s : State} {c cause : Nat} {e : Edit} (hqueue : (s.ctx c).queue = [e]) (hsrc : e.src = 0)
    (h : (s.emptied c).applyEdit c e = .error cause) :
    s.applyQueue c = ((((s.emptied c).editRefused c e cause).put R.XLAT_EPOCH.EPOCH c
      (((s.emptied c).editRefused c e cause).epoch c + 1)).retireEpoch c, []) := by
  have hedits : s.applyEdits c = ((s.emptied c).editRefused c e cause, [], []) := by
    change (s.ctx c).queue.foldl _ (s.emptied c, [], []) = _
    simp only [hqueue, List.foldl_cons, List.foldl_nil, h, hsrc]
    rfl
  rw [State.applyQueue, hedits]
  rfl

/-- What the apply of a queue with one SEQ_SET of the host leaves, where its range is barred: the edit is gone and its
refusal counted, the descriptors are as they were, and no allocation of the Rake is to be answered. -/
theorem applyQueue_of_rangeBarred {s : State} {c : Nat} {e : Edit} (hqueue : (s.ctx c).queue = [e]) (hop : e.op = 5)
    (hsrc : e.src = 0) (h : s.rangeBarred c e) :
    ((s.applyQueue c).1.ctx c).descs = (s.ctx c).descs ∧ ((s.applyQueue c).1.ctx c).queue = [] ∧
      (s.applyQueue c).1.fld R.XLAT_UQ_REFUSED.COUNT c = (s.fld R.XLAT_UQ_REFUSED.COUNT c + 1) % 2 ^ 32 ∧
      (s.applyQueue c).2 = [] := by
  obtain ⟨cause, hcause⟩ := applyEdit_of_rangeBarred hop (h.of_eq (t := s.emptied c) rfl rfl (by rw [emptied_ctx]))
  obtain ⟨hctx, hcount⟩ := editRefused_host (s := s.emptied c) (c := c) hsrc cause
  rw [applyQueue_refused hqueue hsrc hcause]
  dsimp only
  rw [retireEpoch_ctx, epochAdvanced_refused, hcount, put_eq, ctx_setFld, hctx, emptied_ctx]
  exact ⟨rfl, rfl, rfl, rfl⟩

/-! ### The advance (R226) -/

/-- The state in which a pending advance of the context begins to apply. -/
def State.advancing (s : State) (c : Nat) : State := (s.put R.XLAT_STATUS.EPOCH_WAIT c 0).put R.XLAT_STATUS.ADV_PENDING c 0

theorem advanceApply_of_ready {s : State} {c : Nat} (hpending : s.on R.XLAT_STATUS.ADV_PENDING c = true)
    (hruns : s.noneRuns c = true) (hlive : s.epochBlocked c = false) : s.advanceApply c =
      (((((s.advancing c).checkSwitches c).applyQueue c).1.kvQuotaRefused c
        (((s.advancing c).checkSwitches c).applyQueue c).2).settleReady c).modCtx c Ctx.takeNext := by
  unfold State.advanceApply
  rw [hpending, hruns, hlive]
  rfl

/-- Settling the sequences that are not ready and taking reloaded tables over changes neither descriptors nor queue. -/
theorem settled_sameEdits (s : State) (c : Nat) : s.sameEdits c ((s.settleReady c).modCtx c Ctx.takeNext) :=
  ⟨rfl, by simp [State.settleReady, Ctx.takeNext], by simp [State.settleReady, Ctx.takeNext]⟩

/-- A register of the XLAT page other than the two flags of an advance is as before when the switches have been checked. -/
theorem checked_fld {s : State} {c : Nat} (h : s.switchless c) {f : Fd} (hpage : f.page = .xlat)
    (hwait : f.place ≠ R.XLAT_STATUS.EPOCH_WAIT.place) (hpending : f.place ≠ R.XLAT_STATUS.ADV_PENDING.place) :
    ((s.advancing c).checkSwitches c).fld f c = s.fld f c :=
  calc
    _ = (s.advancing c).fld f c := (checkSwitches_sameEdits (s := s.advancing c) h).fld f c 0
    _ = (s.put R.XLAT_STATUS.EPOCH_WAIT c 0).fld f c := fld_put_ne _ c 0 hpage hpending
    _ = s.fld f c := fld_put_ne s c 0 hpage hwait

/-- Settles O52: the check of the switches takes nothing from a queue without switches, the apply refuses the edit, and
what follows the apply leaves descriptors, queue and counter as they are. -/
theorem sequenceRangeRefusals : Obligations.SequenceRangeRefusals := by
  unfold Obligations.SequenceRangeRefusals
  intro s ctx e hpending hruns hlive hqueue hop hsrc (hbarred : s.rangeBarred ctx e)
  have hswitchless : s.switchless ctx := by
    intro e' he'
    obtain rfl : e' = e := List.mem_singleton.mp (hqueue ▸ he')
    omega
  have hchecked := checkSwitches_sameEdits (s := s.advancing ctx) hswitchless
  have hkept {f : Fd} := checked_fld (s := s) (f := f) hswitchless
  have hstill : ((s.advancing ctx).checkSwitches ctx).rangeBarred ctx e :=
    hbarred.of_eq (hkept rfl (by decide) (by decide)) (hkept rfl (by decide) (by decide)) hchecked.descs
  obtain ⟨hdescs, hgone, hcount, hnone⟩ := applyQueue_of_rangeBarred (hchecked.queue.trans hqueue) hop hsrc hstill
  refine completes_of_next (congrArg Host.Outcome.next (advanceApply_of_ready hpending hruns hlive)) ?_
  rw [hnone]
  have hsettled := settled_sameEdits (((s.advancing ctx).checkSwitches ctx).applyQueue ctx).1 ctx
  refine ⟨hsettled.descs.trans (hdescs.trans hchecked.descs), hsettled.queue.trans hgone, (hsettled.fld ..).trans ?_⟩
  rw [hcount, hkept rfl (by decide) (by decide)]

end Sys2Proof.Machine
end

section
/-! PROOF. The launch of a step: the entry PC that a member's cores take. -/
namespace Sys2Proof.Machine

/-- Context 0 is ACTIVE with an empty step in flight, and its one core is READY. Bits [47:6] of the entry PC hold 2^42,
which their 42 bits cannot. -/
def entryPcOverwide : State :=
  (({ State.reset with
    regs := [(R.STEP_ENTRY_PC.PC.key 0 0, 2 ^ 42)]
    ctxs := [(0, { Ctx.reset with member := { Member.idle with active := true } })] }.setFld
      R.CTX_STATUS.STATE 0 0 ctxActive).setFld R.CTX_CORES.BITS 0 0 1).setFld R.CORE_STATE.STATE 0 0 coreReady

theorem entryPcOverwide_addr : entryPcOverwide.addr R.STEP_ENTRY_PC.PC (0 : Fin 16) = 2 ^ 48 := by decide

theorem entryPcOverwide_coresOf : entryPcOverwide.coresOf (0 : Fin 16) = [0] := by decide +kernel

/-- The launch does not end the context, so that the obligation asks for the PC of its core. -/
theorem entryPcOverwide_ended {t : State} (hexec : exec (.stepLaunch 0) entryPcOverwide = .next t) :
    t.ended (0 : Fin 16) = false := by
  obtain rfl : _ = t := Host.Outcome.next.inj hexec
  decide +kernel

/-- What the obligation asks of a member that may launch (R300): its cores stand at the entry address. -/
theorem launch_pc_of_obligation (h : Obligations.StepProgressCommands) {s : State} {ctx : Fin 16}
    (hactive : (s.ctx ctx).member.active = true) (hlaunched : (s.ctx ctx).member.launched = false)
    (hreplaying : (s.ctx ctx).member.replaying = false) (hruns : s.ctxRuns ctx = true)
    (hready : ∀ n ∈ s.coresOf ctx, s.coreState n = coreReady) :
    ∃ t, exec (.stepLaunch ctx) s = .next t ∧
      (t.ended ctx = false → ∀ n ∈ s.coresOf ctx, (t.core n).pc.toNat = s.addr R.STEP_ENTRY_PC.PC ctx) := by
  unfold Obligations.StepProgressCommands at h
  obtain ⟨hlaunch, -⟩ := h s
  obtain ⟨t, hexec, ht⟩ := hlaunch ctx
  rw [if_pos ⟨hactive, hlaunched, hreplaying, hruns, hready⟩] at ht
  obtain ⟨-, hcores⟩ := ht
  exact ⟨t, hexec, fun hended n hn => (hcores hended n hn).2⟩

/-- Refutes O27: its clause on the launch asks for a core whose PC is the entry address, from every state. In
`entryPcOverwide` that address is 2^48, and a PC has 48 bits. A write cuts a register to its width (`fld_setFld_self`), so
what fails is the clause's reach over every state: it lacks the premise that the entry address fits its 48 bits. -/
theorem not_stepProgressCommands : ¬ Obligations.StepProgressCommands := by
  intro h
  have hready : ∀ n ∈ entryPcOverwide.coresOf (0 : Fin 16), entryPcOverwide.coreState n = coreReady := by
    rw [entryPcOverwide_coresOf]
    decide
  obtain ⟨t, hexec, hpc⟩ := launch_pc_of_obligation h (s := entryPcOverwide) (ctx := 0)
    (by decide) (by decide) (by decide) (by decide) hready
  have hcore : (0 : Nat) ∈ entryPcOverwide.coresOf (0 : Fin 16) := by
    rw [entryPcOverwide_coresOf]
    exact List.mem_singleton_self 0
  exact Nat.ne_of_lt (t.core 0).pc.isLt ((hpc (entryPcOverwide_ended hexec) 0 hcore).trans entryPcOverwide_addr)

end Sys2Proof.Machine
end

section
/-! PROOF. The close of a half whose dispatch part no route takes: the barge fails, and its REPLAY drops the half. -/
namespace Sys2Proof.Machine

/-- A layer-table record of a layer that exchanges by barge: one choice per row, one sender, and node 1 the only host. -/
def oneHostLayer : BargeLayer := { BargeLayer.none with k := 1, moe := true, nsend := 1, hlo := 1, hcount := 1, nexp := 1 }

/-- Half H0 of layer 0, full with its one row, whose choice is expert 0 with gate 1.0. -/
def fullHalf : Half :=
  { Half.none with total := 1, rows := [(0, List.replicate 24 0#8 ++ leBytes 0x3F800000 4 ++ List.replicate 36 0#8)], full := true }

/-- The context whose half closes: it runs a step, expert 0 of layer 0 lies on node 1, and every tag is FREE. -/
def closingCtx : Ctx :=
  { Ctx.reset with
    layers := [(0, oneHostLayer)]
    dirs := [(0, [⟨true, 1, 0, 128, 1⟩])]
    halves := [(0, fullHalf)]
    member := { Member.idle with active := true, launched := true } }

/-- Node 0 of slice 1 has a route to itself, where the helm is, and none to node 1, the host of the barge. -/
def hostUnrouted : State :=
  (((({ State.reset with
    fabric := { Fabric.reset with routes := [(0, { Route.none with v := true, slice := 1 })] }
    ctxs := [(0, closingCtx)] }.setFld R.LOCK_SELF.SLICE 0 0 1).setFld R.CTX_STATUS.STATE 0 0 ctxActive).setFld
      R.BARGE_CTRL.EN 0 0 1).setFld R.BARGE_CFG.DUNITS 0 0 1).setFld R.STEP_STATUS.PHASE 0 0 1

theorem hostUnrouted_half_full : ((hostUnrouted.ctx 0).half (halfKey 0 false)).full = true := by decide

theorem hostUnrouted_half_open : ((hostUnrouted.ctx 0).half (halfKey 0 false)).tag = none := by decide

theorem hostUnrouted_freeTag : (hostUnrouted.ctx 0).freeTag = some 0 := by decide +kernel

/-- The SEND of the part to node 1 is refused, so the barge fails and the member asks for a replay (R277), which abandons
the half that has just closed with all others (R276). -/
theorem hostUnrouted_closed {t : State} (hexec : exec (.bargeClose 0 0 false []) hostUnrouted = .next t) :
    (t.ctx 0).member.replaying = true ∧ (t.ctx 0).halves = [] := by
  obtain rfl : _ = t := Host.Outcome.next.inj hexec
  decide +kernel

/-- What the obligation asks of a full half that has no tag while one is FREE (R274): it holds that tag. -/
theorem close_tag_of_obligation (h : Obligations.BargeEventCommands) {s : State} {ctx : Fin 16} {layer : BitVec 8}
    {half : Bool} {tag : Nat} (far : List Byte) (hfull : ((s.ctx ctx).half (halfKey layer.toNat half)).full = true)
    (hopen : ((s.ctx ctx).half (halfKey layer.toNat half)).tag = none) (hfree : (s.ctx ctx).freeTag = some tag) :
    ∃ t, exec (.bargeClose ctx layer half far) s = .next t ∧
      ((t.ctx ctx).half (halfKey layer.toNat half)).tag = some tag := by
  unfold Obligations.BargeEventCommands at h
  obtain ⟨hclose, -⟩ := h s
  obtain ⟨t, hexec, ht⟩ := hclose ctx layer half far
  have hcloses : ¬(((s.ctx ctx).half (halfKey layer.toNat half)).full = false ∨
      ((s.ctx ctx).half (halfKey layer.toNat half)).tag.isSome = true) := by
    simp [hfull, hopen]
  rw [if_neg hcloses, hfree, if_neg (Option.some_ne_none tag)] at ht
  exact ⟨t, hexec, ht⟩

/-- Refutes O25: its clause on the close asks that a full half keep the tag it takes, whatever becomes of its dispatch
parts. In `hostUnrouted` no route leads to the barge's host: the barge fails as it closes (R277), and the REPLAY that
follows abandons it (R276), so that the half ends with no tag. The clause lacks the premise that every part is sent. -/
theorem not_bargeEventCommands : ¬ Obligations.BargeEventCommands := by
  intro h
  obtain ⟨t, hexec, htag⟩ := close_tag_of_obligation h (s := hostUnrouted) (ctx := 0) (layer := 0) (half := false) []
    hostUnrouted_half_full hostUnrouted_half_open hostUnrouted_freeTag
  obtain ⟨-, hhalves⟩ := hostUnrouted_closed hexec
  have hnone : ((t.ctx 0).half (halfKey 0 false)).tag = none := by
    rw [Ctx.half, hhalves]
    rfl
  exact absurd (htag.symm.trans hnone) (Option.some_ne_none 0)

end Sys2Proof.Machine
end

section
/-! PROOF. A broadcast that a member accepts while it holds a bad dispatch part: the part is taken with the step and ends
the context. -/
namespace Sys2Proof.Machine

/-- Context 0 is ACTIVE and a member of convoy 9, whose helm is node 5. No step is in flight, and no host entry is VALID. -/
def awaitingStep : State :=
  State.reset.setFld R.CTX_STATUS.STATE 0 0 ctxActive |>.setFld R.STEP_CTRL.EN 0 0 1 |>.setFld R.STEP_NODES.HELM_NODE 0 0 5
    |>.setFld R.STEP_NODES.NODE_LO 0 0 5 |>.setFld R.STEP_NODE_COUNT.COUNT 0 0 2 |>.setFld R.BARGE_CTRL.EN 0 0 1
    |>.setFld R.BARGE_CFG.CONVOY 0 0 9 |>.setFld R.BARGE_CFG.DUNITS 0 0 1

/-- A dispatch part of node 6 for step 1, with one row for host entry 0 and 64 bytes of activation. -/
def earlyPart : Part :=
  ⟨6, partHeader 1 false 9 1 0 0 0 0 1 1 0 ++ pad64 (leBytes (2 ^ 12) 4) ++ List.replicate 128 0#8⟩

/-- The member holds the part until it accepts the broadcast of step 1 (R270). -/
def partHeld : State :=
  awaitingStep.modCtx 0 fun x => { x with member := { x.member with heldParts := [earlyPart] } }

/-- The broadcast of step 1, with an empty work list. -/
def firstBcast : StepMsg := ⟨5, 9, 1, 0, 0, 0, List.replicate 256 0#8⟩

/-- `partHeld` is what the arrival of the part leaves. -/
theorem earlyPart_held : exec (.dispatchPart earlyPart) awaitingStep = .next partHeld := by
  have hheld : awaitingStep.partOf 1 earlyPart = partHeld := by decide +kernel
  exact congrArg Host.Outcome.next hheld

/-- The row names a host entry that is not VALID, so the part that comes in with the step ends the context with
`EV_BARGE_PROTO` (R270), and the step with it (R507). -/
theorem firstBcast_ends {t : State} (hexec : exec (.bcast firstBcast) partHeld = .next t) :
    t.ended 0 = true ∧ t.fld R.FAULT_CTX.CODE 0 0 = 0x4311 ∧ (t.ctx 0).member.active = false := by
  obtain rfl : _ = t := Host.Outcome.next.inj hexec
  decide +kernel

/-- What the obligation asks of a member with no step in flight that a broadcast of a later step reaches (R300): it runs
the step. -/
theorem bcast_active_of_obligation (h : Obligations.StepMessageCommands) {s : State} {m : StepMsg} {ctx : Fin 16}
    (htarget : s.stepTarget 1 m = some ctx.val) (hended : s.ended ctx = false) (hreset : s.ctxInReset ctx = false)
    (hidle : (s.ctx ctx).member.active = false) (hlater : s.fld R.STEP_NUMBER.STEP ctx < m.step) :
    ∃ t, exec (.bcast m) s = .next t ∧ (t.ctx ctx).member.active = true := by
  unfold Obligations.StepMessageCommands at h
  obtain ⟨-, hbcast, -⟩ := h s
  obtain ⟨t, hexec, ht⟩ := hbcast m ctx htarget
  have hserves : ¬(s.ended ctx = true ∨ s.ctxInReset ctx = true) := by simp [hended, hreset]
  rw [if_neg hserves, if_pos hidle, if_pos (.inl hlater)] at ht
  obtain ⟨hactive, -⟩ := ht
  exact ⟨t, hexec, hactive⟩

/-- Refutes O26: its clause on the broadcast asks that a member with no step in flight run the step it is sent, whatever
dispatch parts it holds for it. In `partHeld` it holds one whose row names no VALID host entry: the part is taken with the
broadcast and ends the context (R270), which runs no step. The clause lacks the premise that every held part of the step
fits. -/
theorem not_stepMessageCommands : ¬ Obligations.StepMessageCommands := by
  intro h
  obtain ⟨t, hexec, hactive⟩ := bcast_active_of_obligation h (s := partHeld) (m := firstBcast) (ctx := 0)
    (by decide +kernel) (by decide) (by decide) (by decide) (by decide)
  obtain ⟨-, -, hidle⟩ := firstBcast_ends hexec
  exact Bool.false_ne_true (hidle.symm.trans hactive)

end Sys2Proof.Machine
end

section
/-! PROOF. The end of a Lock configuration load (R359, R360): a refusal, and the swap to the new configuration. -/
namespace Sys2Proof.Machine

/-! ### Registers of the Lock page -/

/-- Entry `j` of a field of a register of the Lock page past the common header (R519). -/
abbrev Fd.ofLock (f : Fd) (j : Nat) : Prop := f.page = .lock ∧ 0x100 ≤ f.off ∧ f.off + j * f.stride < 0x1000 ∧ f.lo < 64

/-- A field of `LOCK_SELF`. -/
abbrev Fd.inLockSelf (f : Fd) : Prop := f.page = .lock ∧ f.off = 0x110 ∧ f.lo < 64

/-- An event of class 0 of the Lock leaves the registers of its page past the common header as they are. -/
theorem raise_lock_fld {f : Fd} {j code : Nat} (h : f.ofLock j) (hclass : code / 0x1000 = 0) (s : State) (c : Option Nat)
    (info : List Byte) : (s.raise lockUnit c code info).fld f 0 j = s.fld f 0 j := by
  obtain ⟨hpage, hlow, hhigh, hlo⟩ := h
  refine raise_page_fld ?_ ?_ ?_ ?_ s c info
  case refine_1 => simp only [Fd.key, hpage, pageBase]; omega
  case refine_2 => simp only [Fd.key, hpage, pageBase, R.FAULT_COUNT.COUNT]; omega
  case refine_3 => simp only [hclass, Fd.key, hpage, pageBase, R.FAULT_COUNT.COUNT]; omega
  case refine_4 => simp only [Fd.key, hpage, pageBase, hdrEvent]; omega

/-! ### A field of every entry of a table -/

section
variable (f : Fd) (v : Nat → Nat)

/-- Writing a field of some entries leaves the registers of every other key alone. -/
theorem foldl_setFld_reg {k : Nat} {l : List Nat} (h : ∀ j ∈ l, k ≠ f.key 0 j) (s : State) :
    s.sameReg k (l.foldl (fun s j => s.setFld f 0 j (v j)) s) := by
  induction l generalizing s with
  | nil => exact .refl s
  | cons a l ih =>
    exact (setFld_reg s f 0 a _ (h a (List.mem_cons_self ..))).trans (ih (fun j hj => h j (List.mem_cons_of_mem a hj)) _)

/-- A field that has been written in distinct entries holds each entry's value cut to its width. -/
theorem foldl_setFld_fld (hstride : 0 < f.stride) {l : List Nat} (hl : l.Nodup) {j : Nat} (hj : j ∈ l) (s : State) :
    (l.foldl (fun s j => s.setFld f 0 j (v j)) s).fld f 0 j = v j % 2 ^ f.width := by
  induction l generalizing s with
  | nil => exact absurd hj List.not_mem_nil
  | cons a l ih =>
    obtain ⟨ha, hl⟩ := List.nodup_cons.mp hl
    obtain rfl | hj := List.mem_cons.mp hj
    · have hrest : ∀ i ∈ l, f.key 0 j ≠ f.key 0 i := by
        intro i hi heq
        have hmul : j * f.stride = i * f.stride := by simp only [Fd.key] at heq; omega
        exact ha (Nat.eq_of_mul_eq_mul_right hstride hmul ▸ hi)
      exact (foldl_setFld_reg f v hrest _).fld.trans (fld_setFld_self ..)
    · exact ih hl hj _

end

/-- The grants lie above the other registers of the Lock page. -/
theorem grant_key_ne {f : Fd} (h : f.ofLock 0) (hbelow : f.off < 0x200) (g : Nat) :
    R.LOCK_TRANSIT.GRANT.key 0 g ≠ f.key 0 0 := by
  obtain ⟨hpage, -, -, hlo⟩ := h
  simp only [Fd.key, hpage, pageBase, R.LOCK_TRANSIT.GRANT]
  omega

/-! ### The end of a load, whatever its result -/

/-- `LOCK_RESULT` holds the result of the load that ends, and an event tells of it (R359, R360). -/
def State.lockEnded (s : State) (result index code : Nat) (info : List Byte) : State :=
  (((s.put R.LOCK_RESULT.BUSY 0 0).put R.LOCK_RESULT.RESULT 0 result).put R.LOCK_RESULT.INDEX 0 index).raise lockUnit none
    code info

@[simp] theorem lockEnded_fabric (s : State) (result index code : Nat) (info : List Byte) :
    (s.lockEnded result index code info).fabric = s.fabric := by
  simp [State.lockEnded]

section
variable {code : Nat} (hclass : code / 0x1000 = 0) (s : State) (result index : Nat) (info : List Byte)
include hclass

theorem lockEnded_index : (s.lockEnded result index code info).fld R.LOCK_RESULT.INDEX = index % 2 ^ 12 := by
  rw [State.lockEnded, raise_lock_fld (by decide) hclass]
  exact fld_setFld_self ..

theorem lockEnded_result : (s.lockEnded result index code info).fld R.LOCK_RESULT.RESULT = result % 2 ^ 4 := by
  rw [State.lockEnded, raise_lock_fld (by decide) hclass, put_eq, fld_setFld_ne (h := by decide)]
  exact fld_setFld_self ..

theorem lockEnded_busy : (s.lockEnded result index code info).on R.LOCK_RESULT.BUSY = false := by
  rw [on_eq, State.lockEnded, raise_lock_fld (by decide) hclass, put_eq, fld_setFld_ne (h := by decide),
    put_eq, fld_setFld_ne (h := by decide), put_eq, fld_setFld_self]
  rfl

/-- The registers of the Lock page other than `LOCK_RESULT` stay. -/
theorem lockEnded_fld {f : Fd} {j : Nat} (h : f.ofLock j) (hbusy : f.key 0 j ≠ R.LOCK_RESULT.BUSY.key 0 0)
    (hresult : f.key 0 j ≠ R.LOCK_RESULT.RESULT.key 0 0) (hindex : f.key 0 j ≠ R.LOCK_RESULT.INDEX.key 0 0) :
    (s.lockEnded result index code info).fld f 0 j = s.fld f 0 j := by
  rw [State.lockEnded, raise_lock_fld h hclass, put_eq, fld_setFld_ne (h := hindex), put_eq, fld_setFld_ne (h := hresult),
    put_eq, fld_setFld_ne (h := hbusy)]

/-- `LOCK_SELF` stays. -/
theorem lockEnded_self_fld {f : Fd} (h : f.inLockSelf) : (s.lockEnded result index code info).fld f = s.fld f := by
  obtain ⟨hpage, hoff, hlo⟩ := h
  have hne {g : Fd} (hg : g.ofLock 0) (hbelow : g.off < 0x110) : f.key 0 0 ≠ g.key 0 0 := by
    obtain ⟨hgpage, -, -, hglo⟩ := hg
    simp only [Fd.key, hpage, hgpage, pageBase, hoff]
    omega
  exact lockEnded_fld hclass s result index info ⟨hpage, by omega, by omega, hlo⟩ (hne (by decide) (by decide))
    (hne (by decide) (by decide)) (hne (by decide) (by decide))

theorem lockEnded_grant (g : Fin 16) : (s.lockEnded result index code info).grant g = s.grant g :=
  have hgrant : R.LOCK_TRANSIT.GRANT.ofLock g := ⟨rfl, by decide, by simp only [R.LOCK_TRANSIT.GRANT]; omega, by decide⟩
  lockEnded_fld hclass s result index info hgrant (grant_key_ne (by decide) (by decide) _)
    (grant_key_ne (by decide) (by decide) _) (grant_key_ne (by decide) (by decide) _)

end

/-! ### Refusal (R360) -/

/-- A refusal drops the image and keeps the routes and every register but `LOCK_RESULT`. -/
theorem lockRefuse_shape (s : State) (result index : Nat) : ∃ (u : State) (info : List Byte), s.lockRefuse result index =
    u.lockEnded result index 0x0412 info ∧ u.regs = s.regs ∧ u.fabric.image = none ∧ u.fabric.routes = s.fabric.routes :=
  ⟨_, _, rfl, rfl, rfl, rfl⟩

theorem lockRefuse_result (s : State) {result : Nat} (h : result < 16) (index : Nat) :
    (s.lockRefuse result index).fld R.LOCK_RESULT.RESULT = result ∧
    (s.lockRefuse result index).fld R.LOCK_RESULT.INDEX = index % 2 ^ 12 ∧
    (s.lockRefuse result index).on R.LOCK_RESULT.BUSY = false ∧
    (s.lockRefuse result index).fabric.image = none ∧
    (s.lockRefuse result index).fabric.routes = s.fabric.routes ∧
    (s.lockRefuse result index).fld R.LOCK_SELF.CFGGEN = s.fld R.LOCK_SELF.CFGGEN := by
  obtain ⟨u, info, heq, hregs, himage, hroutes⟩ := lockRefuse_shape s result index
  rw [heq, lockEnded_fabric]
  exact ⟨(lockEnded_result rfl ..).trans (Nat.mod_eq_of_lt h), lockEnded_index rfl .., lockEnded_busy rfl .., himage,
    hroutes, (lockEnded_self_fld rfl u result index info (by decide)).trans (State.sameReg.of_regs hregs).fld⟩

/-! ### The swap (R359) -/

/-- The registers that a new configuration sets: its grants, and `LOCK_SELF` with the next CFGGEN. -/
def State.lockNamed (s : State) (i : LockImage) : State :=
  let s := (List.range 16).foldl (fun (s : State) g => s.setFld R.LOCK_TRANSIT.GRANT 0 g (i.grants[g]?.getD 0)) s
  (((s.put R.LOCK_SELF.NODE 0 i.node).put R.LOCK_SELF.SLICE 0 i.slice).put R.LOCK_SELF.GRANTS 0 i.inUse).bump
    R.LOCK_SELF.CFGGEN 0

section
variable (s : State) (i : LockImage)

theorem lockNamed_node : (s.lockNamed i).fld R.LOCK_SELF.NODE = i.node % 2 ^ 12 := by
  simp only [State.lockNamed, put_eq, bump_eq]
  rw [fld_setFld_ne (h := by decide), fld_setFld_ne (h := by decide), fld_setFld_ne (h := by decide)]
  exact fld_setFld_self ..

theorem lockNamed_slice : (s.lockNamed i).fld R.LOCK_SELF.SLICE = i.slice % 2 ^ 8 := by
  simp only [State.lockNamed, put_eq, bump_eq]
  rw [fld_setFld_ne (h := by decide), fld_setFld_ne (h := by decide)]
  exact fld_setFld_self ..

theorem lockNamed_grants : (s.lockNamed i).fld R.LOCK_SELF.GRANTS = i.inUse % 2 ^ 5 := by
  simp only [State.lockNamed, put_eq, bump_eq]
  rw [fld_setFld_ne (h := by decide)]
  exact fld_setFld_self ..

theorem lockNamed_cfggen : (s.lockNamed i).fld R.LOCK_SELF.CFGGEN = (s.fld R.LOCK_SELF.CFGGEN + 1) % 2 ^ 7 := by
  have hgrants := (foldl_setFld_reg (k := R.LOCK_SELF.CFGGEN.key 0 0) R.LOCK_TRANSIT.GRANT (fun g => i.grants[g]?.getD 0)
    (l := List.range 16) (by decide) s).fld
  simp only [State.lockNamed, put_eq, bump_eq]
  rw [fld_setFld_self, fld_setFld_ne (h := by decide), fld_setFld_ne (h := by decide), fld_setFld_ne (h := by decide), hgrants]
  rfl

theorem lockNamed_grant (g : Fin 16) : (s.lockNamed i).grant g = (i.grants[g.val]?).getD 0 % 2 ^ 64 := by
  have hne {f : Fd} (h : f.ofLock 0) (hbelow : f.off < 0x200) := grant_key_ne h hbelow g
  simp only [State.grant, State.lockNamed, put_eq, bump_eq]
  rw [fld_setFld_ne (h := hne (by decide) (by decide)), fld_setFld_ne (h := hne (by decide) (by decide)),
    fld_setFld_ne (h := hne (by decide) (by decide)), fld_setFld_ne (h := hne (by decide) (by decide))]
  exact foldl_setFld_fld R.LOCK_TRANSIT.GRANT (fun g => i.grants[g]?.getD 0) (by decide) List.nodup_range
    (List.mem_range.mpr g.isLt) s

/-- A swap takes the image's tables, sets the registers that it names, and sends packets; then the load ends with result 0. -/
theorem lockSwap_shape : ∃ (u v : State) (info : List Byte), s.lockSwap i = v.lockEnded 0 0 0x0411 info ∧
    v.regs = (u.lockNamed i).regs ∧ u.regs = s.regs ∧
    v.fabric.image = none ∧ v.fabric.routes = i.routes ∧ v.fabric.expects = i.expects := by
  unfold State.lockSwap
  extract_lets old news pins fabric sec taken granted named counted told released ended
  have hregs : released.regs = counted.regs :=
    calc
      _ = told.regs := foldl_keeps (p := State.regs) (by intros; rfl) _ told
      _ = counted.regs := foldl_keeps (p := State.regs) (by intros; rfl) _ counted
  have hfabric : released.fabric = taken.fabric :=
    calc
      _ = told.fabric := foldl_keeps (p := State.fabric) (by intros; rfl) _ told
      _ = counted.fabric := foldl_keeps (p := State.fabric) (by intros; rfl) _ counted
      _ = granted.fabric := by simp only [counted, named, bump_eq, put_eq, setFld_fabric]
      _ = taken.fabric := foldl_keeps (p := State.fabric) (by intros; rfl) _ taken
  refine ⟨taken, released, _, rfl, hregs, rfl, ?_⟩
  rw [hfabric]
  exact ⟨rfl, rfl, rfl⟩

/-- After a swap the new configuration stands in the tables and in the registers of the Lock page (R359). -/
theorem lockSwap_result :
    (s.lockSwap i).fld R.LOCK_RESULT.RESULT = 0 ∧ (s.lockSwap i).on R.LOCK_RESULT.BUSY = false ∧
    (s.lockSwap i).fabric.image = none ∧ (s.lockSwap i).fabric.routes = i.routes ∧
    (s.lockSwap i).fabric.expects = i.expects ∧
    (s.lockSwap i).fld R.LOCK_SELF.CFGGEN = (s.fld R.LOCK_SELF.CFGGEN + 1) % 2 ^ 7 ∧
    (s.lockSwap i).node = i.node % 2 ^ 12 ∧ (s.lockSwap i).slice = i.slice % 2 ^ 8 ∧
    (s.lockSwap i).fld R.LOCK_SELF.GRANTS = i.inUse % 2 ^ 5 ∧
    ∀ g : Fin 16, (s.lockSwap i).grant g = (i.grants[g.val]?).getD 0 % 2 ^ 64 := by
  obtain ⟨u, v, info, heq, hregs, htaken, himage, hroutes, hexpects⟩ := lockSwap_shape s i
  have hnamed {f : Fd} {j : Nat} : v.fld f 0 j = (u.lockNamed i).fld f 0 j := (State.sameReg.of_regs hregs).fld
  have hself {f : Fd} (hf : f.inLockSelf) := (lockEnded_self_fld (code := 0x0411) rfl v 0 0 info hf).trans hnamed
  have hcfggen : u.fld R.LOCK_SELF.CFGGEN = s.fld R.LOCK_SELF.CFGGEN := (State.sameReg.of_regs htaken).fld
  rw [heq, lockEnded_fabric]
  refine ⟨lockEnded_result rfl .., lockEnded_busy rfl .., himage, hroutes, hexpects, ?_, ?_, ?_, ?_, fun g => ?_⟩
  case refine_1 => rw [hself (by decide), lockNamed_cfggen, hcfggen]
  case refine_2 => exact (hself (by decide)).trans (lockNamed_node u i)
  case refine_3 => exact (hself (by decide)).trans (lockNamed_slice u i)
  case refine_4 => exact (hself (by decide)).trans (lockNamed_grants u i)
  case refine_5 => exact ((lockEnded_grant rfl ..).trans hnamed).trans (lockNamed_grant u i g)

end

/-! ### Checks 9 and 10 (R360) -/

/-- First nodes of the transit queries of the load that no yes has answered (check 9 of R360). -/
def State.unansweredNodes (s : State) : List Nat :=
  (s.fabric.queries.filter fun q => q.load && decide (q.answer ≠ some true)).map fun q => (q.ranges.head?.map Prod.fst).getD 0

/-- The first committed grant that is pinned and that the new configuration does not keep (check 10 of R360). -/
def State.lostGrant (s : State) (i : LockImage) : Option Nat :=
  (List.range 16).find? fun g => (s.fabric.pins.any fun p => decide (p.2.2 = g)) && (keptGrant i.grants (s.grant g)).isNone

section
variable {s : State} {i : LockImage} (himage : s.fabric.image = some i)
include himage

theorem lockCommit_unanswered {n : Nat} {r : List Nat} (h : s.unansweredNodes = n :: r) :
    s.lockCommit = s.lockRefuse 9 (r.foldl min n) := by
  unfold State.unansweredNodes at h
  simp only [State.lockCommit, himage, h]

theorem lockCommit_lostGrant {g : Nat} (h : s.unansweredNodes = []) (hlost : s.lostGrant i = some g) :
    s.lockCommit = s.lockRefuse 10 g := by
  unfold State.unansweredNodes at h
  unfold State.lostGrant at hlost
  simp only [State.lockCommit, himage, h, hlost]

theorem lockCommit_passed (h : s.unansweredNodes = []) (hlost : s.lostGrant i = none) : s.lockCommit = s.lockSwap i := by
  unfold State.unansweredNodes at h
  unfold State.lostGrant at hlost
  simp only [State.lockCommit, himage, h, hlost]

end

theorem lockCommit_idle {s : State} (h : s.fabric.image = none) : s.lockCommit = s := by
  simp only [State.lockCommit, h]

/-- Settles O33: the load ends with the refusal of check 9, with that of check 10, or with the swap, and each leaves the
Lock as its lemma says. -/
theorem lockCommands : Obligations.LockCommands := by
  unfold Obligations.LockCommands
  intro s
  refine ⟨?idle, ?unanswered, ?lostGrant, ?passed⟩
  case idle => exact fun himage => completes_of_next rfl (lockCommit_idle himage)
  case unanswered =>
    intro i n r himage hunanswered
    exact completes_of_next (congrArg Host.Outcome.next (lockCommit_unanswered himage hunanswered))
      (lockRefuse_result s (by decide) _)
  case lostGrant =>
    intro i g himage hanswered hlost
    exact completes_of_next (congrArg Host.Outcome.next (lockCommit_lostGrant himage hanswered hlost))
      (lockRefuse_result s (by decide) g)
  case passed =>
    intro i himage hanswered hkept
    exact completes_of_next (congrArg Host.Outcome.next (lockCommit_passed himage hanswered hkept)) (lockSwap_result s i)

end Sys2Proof.Machine
end

section
/-! PROOF. The refill of a copy by UIO: the bytes of pooled memory arrive in T1 or T2. -/
namespace Sys2Proof.Machine

@[simp] theorem length_subBytes (s : State) (e : Nat) (data : List Byte) : (s.subBytes e data).length = 65536 := by
  unfold State.subBytes
  split
  case isTrue => simp only [List.length_append, List.length_take, List.length_replicate]; omega
  case isFalse => exact length_physRead ..

/-- The bytes of a subpage of pooled memory are those that it answered, and zeros where it answered fewer. -/
theorem getElem?_subBytes_pooled (s : State) {e : Nat} (h : leafTier e = 2) (data : List Byte) {o : Nat} (ho : o < 65536) :
    (s.subBytes e data)[o]?.getD 0#8 = data[o]?.getD 0#8 := by
  rw [State.subBytes, if_pos (by omega)]
  by_cases hlt : o < data.length
  case pos => rw [List.getElem?_append_left (by simp; omega), List.getElem?_take_of_lt ho]
  case neg =>
    rw [List.getElem?_append_right (by simp; omega), List.getElem?_eq_none (Nat.not_lt.mp hlt), List.getElem?_replicate]
    split <;> rfl

section
variable {s : State} {c sub : Nat} {k : Copy} (hcopy : (s.ctx c).copy sub = k)
include hcopy

/-- A refill leaves the bytes that it read at the copy (R202). -/
theorem refilled_physRead (htier : k.tier < 2) (data : List Byte) {o : Nat} (ho : o < 65536) :
    (s.refilled c sub data).physRead k.tier k.loc o 1 = [(s.subBytes k.home data)[o]?.getD 0#8] := by
  simp only [State.refilled, hcopy, bump_eq, modCtx_eq, physRead_setCtx, physRead_setFld]
  rw [subPut_of_lt _ c htier, physRead_hbmBytes_if, physRead_physWrite _ _ _ (length_subBytes ..) ho]

section
variable (hstate : k.state = 6)
include hstate

theorem inFlight_of_refilling : (s.ctx c).inFlight sub = true := by
  have hk : k ≠ Copy.none := by rintro rfl; exact absurd hstate (by decide)
  simp [Ctx.inFlight, hcopy, hk, hstate]

/-- The end of a refill from pooled memory meets no failure while the host port has UIO (R184, R400), and leaves what was
read at the copy (R202). -/
theorem transferDone_refills (hmove : (s.ctx c).move sub = Copy.none) (hrun : s.halted = false)
    (huio : s.on R.WHARF_LINK.UIO = true) (hhome : leafTier k.home = 2) (data : List Byte) (htier : k.tier < 2)
    {o : Nat} (ho : o < 65536) :
    (s.transferDone c sub data false false).physRead k.tier k.loc o 1 = [data[o]?.getD 0#8] := by
  have hflight := inFlight_of_refilling hcopy hstate
  have hrefilled : s.transferDone c sub data false false = s.refilled c sub data := by
    simp [State.transferDone, hflight, hcopy, hmove, hrun, hstate, hhome, (on_eq ..).symm.trans huio]
  rw [hrefilled, refilled_physRead hcopy htier data ho, getElem?_subBytes_pooled s hhome data ho]

end

end

/-- The last completion of a transfer's UIO reads counts its bytes and ends the transfer (R400). -/
theorem exec_uioCompletion_last {s : State} {ctx : Fin 16} {sub : BitVec 32}
    (hserves : (s.trafficHeld || s.ldInReset ctx || s.ctxInReset ctx) = false)
    (hflight : (s.ctx ctx).inFlight sub.toNat = true) (n : BitVec 17) (data : List Byte) :
    exec (.uioCompletion ctx sub false n data true true) s =
      .next ((s.bump R.WHARF_UIO_RD_BYTES.COUNT 0 n.toNat).transferDone ctx sub.toNat data false false) :=
  (congrArg Host.Outcome.next (if_neg (ne_true_of_eq_false hserves))).trans (congrArg Host.Outcome.next (if_pos hflight))

/-- The last UIO completion of a refill from pooled memory leaves what was read at the copy (R202, R400). -/
theorem uioCompletion_refills {s t : State} {ctx : Fin 16} {sub : BitVec 32} {k : Copy} {n : BitVec 17} {data : List Byte}
    (hcopy : (s.ctx ctx).copy sub.toNat = k) (hstate : k.state = 6) (htier : k.tier < 2) (hhome : leafTier k.home = 2)
    (hmove : (s.ctx ctx).move sub.toNat = Copy.none) (hrun : s.halted = false) (huio : s.on R.WHARF_LINK.UIO = true)
    (hserves : (s.trafficHeld || s.ldInReset ctx || s.ctxInReset ctx) = false)
    (hexec : exec (.uioCompletion ctx sub false n data true true) s = .next t) {o : Nat} (ho : o < 65536) :
    t.physRead k.tier k.loc o 1 = [data[o]?.getD 0#8] := by
  obtain rfl : _ = t :=
    Host.Outcome.next.inj ((exec_uioCompletion_last hserves (inFlight_of_refilling hcopy hstate) n data).symm.trans hexec)
  have hcounted : (s.bump R.WHARF_UIO_RD_BYTES.COUNT 0 n.toNat).on R.WHARF_LINK.UIO = true := by
    rw [← huio, on_eq, on_eq, bump_eq, fld_setFld_ne (h := by decide)]
  exact transferDone_refills (s := s.bump R.WHARF_UIO_RD_BYTES.COUNT 0 n.toNat) hcopy hstate hmove hrun hcounted hhome data
    htier ho

/-- What a location holds is read from the Basin and HBM alone. -/
theorem physRead_congr {s t : State} (hhbm : t.hbm = s.hbm) (hbasin : t.basin = s.basin) (tier loc off n : Nat) :
    t.physRead tier loc off n = s.physRead tier loc off n := by
  rw [State.physRead, State.physRead, hhbm, hbasin]

/-- The copy of subpage 0 in T2 is being read again from its home in pooled memory (R202). -/
def refillingCopy : Copy := { Copy.none with state := 6, tier := 1, loc := 0, home := mkLeaf 0 2 0 }

/-- Context 0 refills that copy over UIO, and HBM holds zeros. -/
def refilling : State :=
  { State.reset with
    power := { Power.reset with inReset := false, running := true }
    ctxs := [(0, { Ctx.reset with copies := [(0, refillingCopy)] })] }.setFld R.WHARF_LINK.UIO 0 0 1

/-- Refutes O47: its clause on UIO completions asks that HBM stay as it was whatever the completion ends. In `refilling` the
completion is the last of a refill that reads the byte 1, and the refill writes it to the copy in HBM (R202, R400), where a
0 stood. The clause lacks the premise that the completion ends no transfer of the Sluice. -/
theorem not_frameOfLinkAndTimeCommands : ¬ Obligations.FrameOfLinkAndTimeCommands := by
  unfold Obligations.FrameOfLinkAndTimeCommands
  intro h
  obtain ⟨-, -, -, -, -, -, -, -, -, -, -, -, -, -, -, -, -, -, -, -, -, huio, -⟩ := h refilling
  obtain ⟨t, hexec, hhbm, hbasin, -⟩ := huio 0 0#32 false 1#17 [1#8] true true
  have hread := uioCompletion_refills (k := refillingCopy) (by decide) (by decide) (by decide) (by decide) (by decide)
    (by decide) (by decide) (by decide) hexec (o := 0) (by decide)
  exact absurd ((physRead_congr hhbm hbasin ..).symm.trans hread) (by decide)

end Sys2Proof.Machine
end
section
/-! PROOF. The answers of the SPDM responder, of the CXL mailbox and of the fabric manager's commands. -/
namespace Sys2Proof.Machine

/-- An SPDM answer goes out where LD0 is served, and nothing else where it is not. -/
theorem spdm_out (s : State) (answer : String) (bytes : List Byte) :
    (if s.spdmServes then s.spdm answer bytes else s).out =
      if s.spdmServes then s.out ++ [.answer ("SPDM " ++ answer) bytes] else s.out := by
  cases s.spdmServes <;> rfl

/-- A mailbox command is answered, or completes as an unsupported request where its LD is not served (R396). -/
theorem mailbox_out {answer whole : String} (h : "CXL " ++ answer = whole) (s : State) (ld : Nat) (bytes : List Byte) :
    (s.mailbox ld answer bytes).out = s.out ++ [if s.ldServes ld then .answer whole bytes else .unsupported ld] := by
  subst h
  unfold State.mailbox
  cases s.ldServes ld <;> rfl

/-- An unsigned request for measurements: how many there are, all of them, an index that none has, or one (R478). -/
theorem exec_getMeasurements_out (s : State) (i : BitVec 8) (tr : List Byte) :
    Completes (.getMeasurements i false tr) s fun t => t.out = if s.spdmServes then s.out ++ [
      if i = 0 then .answer "SPDM MEASUREMENTS" [7]
      else if i = 0xFF then .answer "SPDM MEASUREMENTS" ([1, 2, 3, 4, 5, 6, 7].flatMap fun k => leBytes k 1 ++ Config.sha512 (s.measured k))
      else if 7 < i.toNat then .answer "SPDM ERROR InvalidRequest" []
      else .answer "SPDM MEASUREMENTS" (leBytes i.toNat 1 ++ Config.sha512 (s.measured i.toNat))] else s.out := by
  refine completes_of_next rfl ?_
  cases s.spdmServes
  case false => rfl
  case true =>
    by_cases hcount : i = 0#8
    · subst hcount; rfl
    · by_cases hall : i = 0xFF#8
      · subst hall; rfl
      · by_cases hnone : 7 < i.toNat
        · simp [hcount, hall, hnone, State.spdm]
        · simp [hcount, hall, hnone, State.spdm]

/-- Settles O7: each answer is the one that its arm emits, where the responder or the LD serves. -/
theorem attestationAndMailboxCommands : Obligations.AttestationAndMailboxCommands := by
  intro s
  refine ⟨?version, ?capabilities, ?algorithms, ?digests, ?certificate, ?challenge, ?measurements, ?identify, ?partition,
    ?supportedLogs, ?log, ?ldInfo, ?ldAllocations⟩
  case version => exact completes_of_next rfl (spdm_out ..)
  case capabilities => exact completes_of_next rfl (spdm_out ..)
  case algorithms => exact completes_of_next rfl (spdm_out ..)
  case digests => exact completes_of_next rfl (spdm_out ..)
  case certificate =>
    refine fun slot offset length => completes_of_next rfl ?_
    cases s.spdmServes
    · rfl
    · by_cases hslot : slot = 0#3
      · subst hslot; rfl
      · simp [hslot, State.spdmUnsupported, State.spdm]
  case challenge =>
    refine fun tr => completes_of_next rfl ?_
    cases s.spdmServes
    · rfl
    · cases s.hasIdentity <;> rfl
  case measurements => exact exec_getMeasurements_out s
  case identify => exact fun ld => completes_of_next rfl (mailbox_out rfl ..)
  case partition => exact fun ld => completes_of_next rfl (mailbox_out rfl ..)
  case supportedLogs => exact fun ld => completes_of_next rfl (mailbox_out rfl ..)
  case log =>
    refine fun ld ce => completes_of_next rfl ?_
    cases ce
    · exact mailbox_out rfl ..
    · exact mailbox_out (by decide +kernel) ..
  case ldInfo =>
    refine completes_of_next rfl ?_
    cases s.wharf.up <;> rfl
  case ldAllocations =>
    refine completes_of_next rfl ?_
    cases s.wharf.up <;> rfl

end Sys2Proof.Machine
end
section
/-! PROOF. Accesses of the register pages: how an access that reaches its page becomes a write of the page's header or of a
register above it. -/
namespace Sys2Proof.Machine

/-- A page of the device's list begins where the page map puts it. -/
theorem pageBase_of_devPages {n : Nat} {p : Page} (h : devPages[n]? = some p) : pageBase p 0 = n * 0x1000 := by
  have hn : n < 15 := (List.getElem?_eq_some_iff.mp h).1
  have hbases : ∀ k : Fin 15, (devPages[k.val]?).map (pageBase · 0) = some (k.val * 0x1000) := by decide
  have hbase := hbases ⟨n, hn⟩
  rw [h] at hbase
  exact Option.some.inj hbase

/-- The pages of a window lie as far apart for each context. -/
theorem pageBase_of_mem_ctxWindow (c : Nat) : ∀ p ∈ ctxWindow, pageBase p c = pageBase p 0 + c * 0x10000 := by
  simp [ctxWindow, pageBase]

/-- A page of a context's window begins where the page map puts it. -/
theorem pageBase_of_ctxWindow {n c : Nat} {p : Page} (h : ctxWindow[n]? = some p) :
    pageBase p c = (0x400 + 16 * c + n) * 0x1000 := by
  have hn : n < 15 := (List.getElem?_eq_some_iff.mp h).1
  have hbases : ∀ k : Fin 15, (ctxWindow[k.val]?).map (pageBase · 0) = some ((0x400 + k.val) * 0x1000) := by decide
  have hbase := hbases ⟨n, hn⟩
  rw [h] at hbase
  have hfirst : pageBase p 0 = (0x400 + n) * 0x1000 := Option.some.inj hbase
  rw [pageBase_of_mem_ctxWindow c p (List.mem_of_getElem? h), hfirst]
  omega

/-- The value of a choice, by the branch that is taken. -/
theorem ite_eq_cases {α : Type} (b : Prop) [Decidable b] (t u v : α) :
    (if b then t else u) = v ↔ b ∧ t = v ∨ ¬ b ∧ u = v := by
  by_cases h : b <;> simp [h]

/-- A page found at an address begins where the page map puts it. -/
theorem pageBase_of_pageAt {a i : Nat} {p : Page} (h : pageAt a = some (p, i)) : pageBase p i = a / 0x1000 * 0x1000 := by
  unfold pageAt at h
  generalize a / 0x1000 = n at h ⊢
  unfold pageNumber at h
  simp only [ite_eq_cases, reduceCtorEq, and_false, or_false, false_or, Option.some.injEq, Prod.mk.injEq,
    Option.map_eq_some_iff] at h
  obtain ⟨-, q, hq, rfl, rfl⟩ | ⟨-, hn, ⟨h, rfl, rfl⟩ | ⟨-, hn, ⟨h, rfl, rfl⟩ | ⟨hn, ⟨h, rfl, rfl⟩ | ⟨hn, ⟨h, rfl, rfl⟩ |
    ⟨hn, ⟨h, rfl, rfl⟩ | ⟨-, ⟨h, rfl, rfl⟩ | ⟨-, hn, ⟨h, rfl, rfl⟩ | ⟨-, hn, h, q, hq, rfl, rfl⟩⟩⟩⟩⟩⟩⟩⟩ := h
  case inl => exact pageBase_of_devPages hq
  case inr.inr.inr.inr.inr.inr.inr.inr => rw [pageBase_of_ctxWindow hq]; omega
  all_goals simp only [pageBase]; omega

/-- The address of a page by its number is where the page map puts the page found there. -/
theorem pageAddr_eq_pageBase {page : BitVec 13} {i : Nat} {p : Page} (h : pageAt (pageAddr page) = some (p, i)) :
    pageAddr page = pageBase p i := by
  have := pageBase_of_pageAt h
  unfold pageAddr at this ⊢
  omega

/-- The page of an address is that of the page's start. -/
theorem pageAt_add {a i off : Nat} {p : Page} (h : pageAt a = some (p, i)) (ha : a % 0x1000 = 0) (hoff : off < 0x1000) :
    pageAt (a + off) = some (p, i) := by
  rwa [pageAt, show (a + off) / 0x1000 = a / 0x1000 by omega]

/-- An access that reaches its address is a write of all four bytes there. -/
theorem access_of_reached {s : State} {req : Fin 18} {a : Nat} (h : s.regReached req a = true) (v : Nat) (far : List Byte)
    (ecc : Ecc) : s.access req a v far ecc = s.busWrite req a v 15 far ecc := by
  simp only [State.regReached, Bool.and_eq_true, Bool.or_eq_true, decide_eq_true_eq] at h
  obtain ⟨hkind, hjtag⟩ := h
  have hwrite : s.writeBy req a v 15 far ecc = s.busWrite req a v 15 far ecc := by simp only [State.writeBy, hkind]
  by_cases hreq : req.val = 17
  · obtain ⟨hopen, hbar⟩ := hjtag.resolve_left (not_not_intro hreq)
    rw [hreq] at hwrite
    simp [State.access, hreq, hopen, hbar, hwrite]
  · simp [State.access, hreq, hwrite]

/-- A write of a header register whose page takes it. -/
theorem access_header {s : State} {req : Fin 18} {page : BitVec 13} {p : Page} {i off : Nat}
    (hpage : pageAt (pageAddr page) = some (p, i)) (htakes : s.takesHeader req p i off = true) (hoff : off < 0x24)
    (haligned : off % 4 = 0) (v : Nat) (far : List Byte) (ecc : Ecc) :
    s.access req (pageAddr page + off) v far ecc = s.headerWrite p i off v := by
  simp only [State.takesHeader, Bool.and_eq_true, Bool.not_eq_true'] at htakes
  obtain ⟨hreach, hreset⟩ := htakes
  rw [← pageAddr_eq_pageBase hpage] at hreach
  have hstart : pageAddr page % 0x1000 = 0 := by unfold pageAddr; omega
  have hlow : (pageAddr page + off) % 0x1000 / 4 * 4 = off := by omega
  rw [access_of_reached hreach, State.busWrite, pageAt_add hpage hstart (by omega)]
  simp only [hlow, hreset, Bool.false_eq_true, if_false, show off < 0x100 by omega, if_true, show ¬ 0x24 ≤ off by omega,
    ne_eq, not_true_eq_false]

/-- Settles O50: the write reaches the page's header, and the header's write of EVENT_FORCE is one OR into EVENT. -/
theorem eventForceSetsBitsOnly : Obligations.EventForceSetsBitsOnly := by
  intro s req page b p i hpage htakes
  refine completes_of_next rfl ?_
  rw [access_header hpage htakes (by decide) (by decide)]
  simp only [State.headerWrite, Nat.mod_eq_of_lt b.isLt]

end Sys2Proof.Machine
end
section
/-! PROOF. A PUT packet whose index its message does not have. -/
namespace Sys2Proof.Machine

/-- The module's Lock slice is 1. -/
def inSliceOne : State := State.reset.setFld R.LOCK_SELF.SLICE 0 0 1

/-- A PUT of no bytes at region 0 from node 1 of slice 1, numbered as its message's second packet (bytes 14 and 15); a
message of no bytes has one packet (R389). -/
def strayPut : Packet := ⟨0, 1, 1, 0, false, 0x10, (List.replicate 24 0#8).set 6 1#8, []⟩

/-- The use that a stray PUT opens is in progress, where the PUT itself would be refused. -/
theorem strayPut_opens : ∃ t, exec (.put strayPut ⟨.ok, .ok, [], []⟩) inSliceOne = .next t ∧
    (t.record (recordKey strayPut)).done = false := ⟨_, rfl, by decide +kernel⟩

/-- Refutes O35: its clause on refused PUT packets asks that the first packet of a use end the message with the refusal's
status. In `inSliceOne` the packet `strayPut` is the second of a message that has one: `putPacket` ignores it, and the use
stays in progress. The clause lacks the premise that the packet's index is one of its message's. -/
theorem not_messageCommands : ¬ Obligations.MessageCommands := by
  unfold Obligations.MessageCommands
  intro h
  obtain ⟨-, -, -, hput, -⟩ := h inSliceOne
  obtain ⟨t, hexec, hrecord, -⟩ := hput strayPut ⟨.ok, .ok, [], []⟩ (by decide +kernel) (by decide +kernel) (by decide +kernel)
    (by decide +kernel)
  obtain ⟨u, hopens, hdone⟩ := strayPut_opens
  obtain rfl : u = t := Host.Outcome.next.inj (hopens.symm.trans hexec)
  exact absurd (hdone.symm.trans (congrArg MsgRecord.done hrecord)) (by decide)

end Sys2Proof.Machine
end
section
/-! PROOF. A self-test whose last item is skipped while a power target waits for its end. -/
namespace Sys2Proof.Machine

/-- A self-test has one item left and one failed; the cap leaves the item no power, and P3 is held until the run ends. -/
def lastItemSkipped : State :=
  { State.reset with
    power := { Power.reset with inReset := false, running := true, heldTarget := some 3 }
    weir := { Weir.reset with lim := 1000 }
    bist := { Bist.reset with todo := [⟨1, 2, false⟩] } }.put R.BIST_STATUS.BUSY 0 1 |>.put R.BIST_STATUS.FAILED 0 1

/-- The run ends with the item, the module enters P3, and its reset clears the count of failed items. -/
theorem lastItemSkipped_failed : ∃ t, exec .bistPowerSkip lastItemSkipped = .next t ∧ t.fld R.BIST_STATUS.FAILED = 0 :=
  ⟨_, rfl, by decide +kernel⟩

/-- Refutes O36: its clause on an item skipped for power asks that BIST_STATUS.FAILED stay as it was. In `lastItemSkipped`
the item is the last of its run and a target of P3 was written during the run: the end of the run acts on the target
(R495), the main supplies go off, and the module reset returns FAILED to 0 from 1. The clause lacks the premise that items
remain, which the conjunct before it has. -/
theorem not_dutyTestAndLoopCommands : ¬ Obligations.DutyTestAndLoopCommands := by
  unfold Obligations.DutyTestAndLoopCommands
  intro h
  obtain ⟨-, -, -, -, -, hskip, -⟩ := h lastItemSkipped
  obtain ⟨t, hexec, hskip⟩ := hskip ⟨1, 2, false⟩ [] rfl
  rw [if_pos (by decide +kernel)] at hskip
  obtain ⟨-, -, -, hfailed⟩ := hskip
  obtain ⟨u, hskips, hcleared⟩ := lastItemSkipped_failed
  obtain rfl : u = t := Host.Outcome.next.inj (hskips.symm.trans hexec)
  exact absurd (hcleared.symm.trans hfailed) (by decide +kernel)

end Sys2Proof.Machine
end
section
/-! PROOF. A home agent's LOAD whose uncorrectable word fences the last core of a context with a message in flight. -/
namespace Sys2Proof.Machine

/-- A LOAD of 8 bytes at offset 0 of region 2, with its key 7, from node 1. -/
def loadOfScratch : HomeReq :=
  ⟨1, ⟨0, 1, 1, 0, false, 1, ((List.replicate 24 0#8).set 5 2#8 |>.set 8 7#8).set 13 3#8, []⟩, 0, [], false⟩

/-- A PUT in flight of core 0 of context 0, whose descriptor is at 0. -/
def putInFlight : Message := ⟨0, true, 0, 0, 0, 1, 0, 1, 1, 2, 7, 0, false, 0, [], 64, [], false, 0, 0⟩

/-- Context 0 holds core 0 alone, exports its scratchpad as region 2, has a PUT in flight and a LOAD to serve. -/
def soleCoreExports : State :=
  { State.reset with
    power := { Power.reset with inReset := false, running := true }
    rack := { Rack.reset with
      regions := [(2, ⟨1, 1, 0, 65536, 0, 0, 7, 0⟩)]
      homeQ := [loadOfScratch]
      messages := [(0, putInFlight)] } }.setFld R.MSF_CTRL.EN 0 0 1
    |>.setFld R.CTX_CORES.BITS 0 0 1 |>.setFld R.CTX_STATUS.CORES 0 0 1

/-- The word read is uncorrectable: core 0 is fenced, context 0 ends, and the PUT ends with status 11 in the descriptor. -/
theorem soleCoreExports_loses : ∃ t, exec (.homeAgentSlot 0 ⟨.uncorrectable, .ok, [], []⟩) soleCoreExports = .next t ∧
    (t.core 0).scr ≠ (soleCoreExports.core 0).scr := ⟨_, rfl, by decide +kernel⟩

/-- The LOAD is the one request at the head of line 0. -/
theorem soleCoreExports_lineHeads : soleCoreExports.lineHeads 0 = [loadOfScratch] := by decide +kernel

/-- Refutes O34: its clause on a LOAD of a scratchpad asks that the scratchpad stay as it was. In `soleCoreExports` the
word read is uncorrectable, so the home agent fences core 0 (R171), the last core of context 0, and the context ends
(R507): its PUT in flight ends ABANDONED (R390), which writes the status into its descriptor in that scratchpad. The
clause lacks the premise that the word is not uncorrectable, which the clause on atomics has. -/
theorem not_nodeRequestCommands : ¬ Obligations.NodeRequestCommands := by
  unfold Obligations.NodeRequestCommands
  intro h
  obtain ⟨-, -, -, -, -, -, -, -, hload, -⟩ := h soleCoreExports
  obtain ⟨t, hexec, hscr, -⟩ := hload 0 ⟨.uncorrectable, .ok, [], []⟩ loadOfScratch soleCoreExports_lineHeads
    (by decide +kernel) (by decide +kernel) (by decide +kernel) (by decide +kernel) (by decide +kernel) (by decide +kernel)
  obtain ⟨u, hloses, hchanged⟩ := soleCoreExports_loses
  obtain rfl : u = t := Host.Outcome.next.inj (hloses.symm.trans hexec)
  exact hchanged hscr

end Sys2Proof.Machine
end
section
/-! PROOF. The operations of accepted tokens: what each leaves of the fuses, of the clearing in progress and of HBM. -/
namespace Sys2Proof.Machine

/-! ### Parts of the operations -/

/-- Steps that each leave the security state leave it together. -/
theorem foldl_sec {α : Type} {f : State → α → State} (h : ∀ s a, (f s a).sec = s.sec) (l : List α) (s : State) :
    (l.foldl f s).sec = s.sec := foldl_keeps (p := State.sec) h l s

/-- Steps that each leave HBM leave it together. -/
theorem foldl_hbm {α : Type} {f : State → α → State} (h : ∀ s a, (f s a).hbm = s.hbm) (l : List α) (s : State) :
    (l.foldl f s).hbm = s.hbm := foldl_keeps (p := State.hbm) h l s

@[simp] theorem evqPush_sec (s : State) (ld : Nat) (r : List Byte) (now : Bool) : (s.evqPush ld r now).sec = s.sec := by
  obtain ⟨r, w, o, h⟩ := evqPush_port s ld r now; rw [h]
@[simp] theorem evqPush_hbm (s : State) (ld : Nat) (r : List Byte) (now : Bool) : (s.evqPush ld r now).hbm = s.hbm := by
  obtain ⟨r, w, o, h⟩ := evqPush_port s ld r now; rw [h]

@[simp] theorem modSec_sec (s : State) (f : Security → Security) : (s.modSec f).sec = f s.sec := rfl
@[simp] theorem modSec_hbm (s : State) (f : Security → Security) : (s.modSec f).hbm = s.hbm := rfl

@[simp] theorem tokenDone_sec (s : State) : s.tokenDone.sec = { s.sec with token := [] } := by simp [State.tokenDone]
@[simp] theorem tokenDone_hbm (s : State) : s.tokenDone.hbm = s.hbm := by simp [State.tokenDone]

@[simp] theorem wake_sec (s : State) : s.wake.sec = s.sec := by
  simp only [State.wake]
  split <;> simp

@[simp] theorem showSlots_sec (s : State) : s.showSlots.sec = s.sec := by simp [State.showSlots]

@[simp] theorem setOwner_fuses (s : State) (k : Nat) (o : OwnerSlot) :
    (s.setOwner k o).sec.fuses = { s.sec.fuses with owners := s.sec.fuses.owners.set (k - 1) o } := by
  simp [State.setOwner, State.modFuses]

/-- The clears change no security state. -/
@[simp] theorem clearMemories_sec (s : State) (scr mem sram : Bool) : (s.clearMemories scr mem sram).sec = s.sec := by
  simp only [State.clearMemories]
  rw [apply_ite State.sec, foldl_sec, ite_self]
  · cases scr <;> cases mem <;> rfl
  · exact fun _ _ => rfl

/-- HBM is cleared where the clear names it. -/
@[simp] theorem clearMemories_hbm (s : State) (scr mem sram : Bool) :
    (s.clearMemories scr mem sram).hbm = if mem then [] else s.hbm := by
  simp only [State.clearMemories]
  rw [apply_ite State.hbm, foldl_hbm, ite_self]
  · cases scr <;> cases mem <;> rfl
  · exact fun _ _ => rfl

@[simp] theorem coolantCondition_sec (s : State) (b : Nat) (on : Bool) : (s.coolantCondition b on).sec = s.sec := by
  simp only [State.coolantCondition, apply_ite State.sec, put_eq, setFld_sec, raise_sec, ite_self]

@[simp] theorem maybeStartSequence_sec (s : State) : s.maybeStartSequence.sec = s.sec := by
  simp only [State.maybeStartSequence, State.startSequence]
  split
  · split
    case isTrue => exact coolantCondition_sec ..
    case isFalse => rfl
  · rfl

/-- A module reset leaves the fuses (R62). -/
@[simp] theorem moduleReset_fuses (s : State) : s.moduleReset.sec.fuses = s.sec.fuses := by
  simp only [State.moduleReset]
  split <;> simp

/-! ### Scopes (R484, R486) -/

/-- Opening scopes ends the token, and changes nothing else of the security state. -/
@[simp] theorem openScopes_sec (s : State) (scopes mask : Nat) :
    (s.openScopes scopes mask).sec = { s.sec with token := [] } := by
  cases h : bit scopes 5 <;> simp [State.openScopes, h, foldl_sec, apply_ite State.sec]

@[simp] theorem openScopes_hbm (s : State) (scopes mask : Nat) : (s.openScopes scopes mask).hbm = s.hbm := by
  cases h : bit scopes 5 <;> simp [State.openScopes, h, foldl_hbm, apply_ite State.hbm]

/-- Closing the scopes leaves the fuses, also where it resets the module. -/
@[simp] theorem closeScopes_fuses (s : State) : s.closeScopes.sec.fuses = s.sec.fuses := by
  unfold State.closeScopes
  split
  case isTrue => rfl
  case isFalse =>
    split
    · simp
    · rw [raise_sec, foldl_sec]
      · simp
      · intro t n
        split <;> simp

/-- Blowing lifecycle fuses never lowers the state, and leaves the other fuses (R469). -/
@[simp] theorem blowLife_fuses (s : State) (target : Nat) :
    (s.blowLife target).sec.fuses = { s.sec.fuses with life := max s.sec.fuses.life target } := by
  simp [State.blowLife, State.modFuses]

/-! ### Tokens -/

/-- An OPEN that clears first begins the clearing; one that does not leaves none in progress where none was. -/
theorem openToken_opening (s : State) : s.openToken.sec.opening =
    if clearsFirst (tokScopes s.sec.token % 128) then some (tokScopes s.sec.token % 128, tokArg s.sec.token % 65536)
    else s.sec.opening := by
  simp only [State.openToken]
  split <;> simp

/-- An ENROLL writes the slot that it names. -/
theorem enrollToken_owners (s : State) : s.enrollToken.sec.fuses.owners = s.sec.fuses.owners.set (tokSlot s.sec.token - 1)
    ⟨(s.sec.token.drop 0x40).take 64, true, bit (tokArg s.sec.token) 8, bit (tokArg s.sec.token) 9, false⟩ := by
  simp only [State.enrollToken]
  split <;> simp

/-- A REVOKE marks the slot that it names. -/
theorem revokeToken_owners (s : State) : s.revokeToken.sec.fuses.owners = s.sec.fuses.owners.set (tokSlot s.sec.token - 1)
    { s.sec.fuses.owner (tokSlot s.sec.token) with revoked := true } := by
  simp [State.revokeToken]

/-- A PROVISION writes the secret. -/
theorem provisionToken_fuses (s : State) : s.provisionToken.sec.fuses =
    { s.sec.fuses with secret := freeBytes s.free 32, secretWritten := true, life := max s.sec.fuses.life 1 } := by
  simp [State.provisionToken, State.modFuses]

/-- The clearing of an OPEN ends, with HBM clear where SCAN or MEM opens (R484). -/
theorem clearedOpen_keeps (s : State) : s.clearedOpen.sec.opening = none ∧
    s.clearedOpen.hbm = if s.sec.opening.any fun o => bit o.1 6 || bit o.1 1 then [] else s.hbm := by
  unfold State.clearedOpen
  cases h : s.sec.opening
  case none => exact ⟨h, rfl⟩
  case some o => simp

/-- Settles O8: each clause is what the token's operation does to the fuses or to the clearing in progress. -/
theorem tokenCommands : Obligations.TokenCommands := by
  intro s
  refine ⟨?opens, ?transition, ?enroll, ?revoke, ?provision, completes_of_next rfl (clearedOpen_keeps s)⟩
  case opens =>
    refine completes_of_next rfl ?_
    cases h : s.tokenWaits 0 <;> simp [openToken_opening]
  case transition =>
    refine completes_of_next rfl ?_
    cases h : s.tokenWaits 1 <;> simp
  case enroll =>
    refine completes_of_next rfl ?_
    cases h : s.tokenWaits 2 <;> simp [enrollToken_owners]
  case revoke =>
    refine completes_of_next rfl ?_
    cases h : s.tokenWaits 3 <;> simp [revokeToken_owners]
  case provision =>
    refine completes_of_next rfl ?_
    cases h : s.tokenWaits 4 <;> simp [provisionToken_fuses]

end Sys2Proof.Machine
end
section
/-! PROOF. Writes of 32-bit registers above the header, as a requester's command makes them. -/
namespace Sys2Proof.Machine

/-- A write of a register that takes it acts as R533 says on the register found at the offset. -/
theorem command_of_takes {s : State} {req : Fin 18} {p : Page} {i off : Nat} {r : RegRef}
    (htakes : s.takesWrite req p i off = true) (hreg : regAt p i (off / 4 * 4) = some r)
    (hpage : pageAt (pageBase p i + off) = some (p, i)) (habove : 0x100 ≤ off) (v : Nat) (far : List Byte) (ecc : Ecc) :
    s.command req p i off v far ecc = s.regWrite p i r req ((pageBase p i + off) / 4 * 4) v far ecc := by
  simp only [State.takesWrite, Bool.and_eq_true, Bool.not_eq_true'] at htakes
  obtain ⟨⟨hreach, hreset⟩, -⟩ := htakes
  have hbase := pageBase_of_pageAt hpage
  have hlow : (pageBase p i + off) % 0x1000 / 4 * 4 = off / 4 * 4 := by omega
  rw [State.command, access_of_reached hreach, State.busWrite, hpage]
  simp only [hlow, hreset, hreg, Bool.false_eq_true, if_false, show ¬ off / 4 * 4 < 0x100 by omega, ne_eq, not_true_eq_false]

/-- Nothing stands against a write that a register takes. -/
theorem writeBarred_of_takes {s : State} {req : Fin 18} {p : Page} {i off : Nat} {r : RegRef}
    (htakes : s.takesWrite req p i off = true) (hreg : regAt p i (off / 4 * 4) = some r) :
    s.writeBarred p i r.reg req = false := by
  simp only [State.takesWrite, hreg, Bool.and_eq_true, Bool.not_eq_true'] at htakes
  exact htakes.2

/-- A 32-bit register that takes a write takes its whole value. -/
theorem command_eq_regSet {s : State} {req : Fin 18} {p : Page} {i off : Nat} {r : RegRef}
    (htakes : s.takesWrite req p i off = true) (hreg : regAt p i (off / 4 * 4) = some r)
    (hpage : pageAt (pageBase p i + off) = some (p, i)) (habove : 0x100 ≤ off) (hword : r.reg.b64 = false)
    (v : Nat) (far : List Byte) (ecc : Ecc) : s.command req p i off v far ecc = s.regSet p i r req v far ecc := by
  rw [command_of_takes htakes hreg hpage habove, State.regWrite, writeBarred_of_takes htakes hreg, hword]
  rfl

/-! ### Words with a bit set -/

theorem field_one (v k : Nat) : field v k 1 = b2n (bit v k) := by
  have h := Nat.testBit_eq_decide_div_mod_eq (x := v) (i := k)
  have hlt : v / 2 ^ k % 2 < 2 := Nat.mod_lt _ (by decide)
  rw [field, bit, h, b2n, Nat.pow_one]
  split <;> simp_all

/-- The bit that a word's last change set is the one asked for. -/
theorem bit_withBit (w k : Nat) (b : Bool) : bit (withBit w k b) k = b := by
  cases b
  case true => simp [withBit, setBit, bit, Nat.testBit_or, Nat.testBit_two_pow_self]
  case false =>
    simp only [withBit, clrBit, bit, Bool.false_eq_true, if_false]
    split
    case isTrue hset =>
      have hodd := Nat.testBit_eq_decide_div_mod_eq (x := w) (i := k) ▸ hset
      have hdiv : (w - 2 ^ k) / 2 ^ k = w / 2 ^ k - 1 := by simpa using Nat.sub_mul_div w (2 ^ k) 1
      simp only [decide_eq_true_eq] at hodd
      rw [Nat.testBit_eq_decide_div_mod_eq, hdiv, decide_eq_false_iff_not]
      omega
    case isFalse hclear => exact eq_false_of_ne_true hclear

theorem field_withBit (w k : Nat) (b : Bool) : field (withBit w k b) k 1 = b2n b := by rw [field_one, bit_withBit]

end Sys2Proof.Machine
end

section
/-! PROOF. The Gauge pages: their writes, snapshots, clears and counts. -/
namespace Sys2Proof.Machine

/-! ### The pages' places in the map and their registers -/

theorem pageAt_gauge (d : Fin 8) {off : Nat} (hoff : off < 0x1000) :
    pageAt (pageBase .gauge d + off) = some (.gauge, d.val) := by
  have hn : (pageBase .gauge d + off) / 0x1000 = 56 + d.val := by simp only [pageBase]; omega
  rw [pageAt, hn]
  have hnumber : ∀ d : Fin 8, pageNumber (56 + d.val) = some (.gauge, d.val) := by decide
  exact hnumber d

theorem pageAt_gaugeM {off : Nat} (hoff : off < 0x1000) : pageAt (pageBase .gaugeM 0 + off) = some (.gaugeM, 0) := by
  have hn : (pageBase .gaugeM 0 + off) / 0x1000 = 64 := by simp only [pageBase]; omega
  rw [pageAt, hn]
  rfl

/-! The registers that the commands write, as the field map gives them. -/

def gaugeCtrl : RegRef := (regAt .gauge 0 0x100).get (by decide +kernel)
def gaugeSelAll : RegRef := (regAt .gauge 0 0x10C).get (by decide +kernel)
def gaugeClr : RegRef := (regAt .gauge 0 0x184).get (by decide +kernel)
def gaugeMctrl : RegRef := (regAt .gaugeM 0 0x100).get (by decide +kernel)
def gaugeMclrLow : RegRef := (regAt .gaugeM 0 0x118).get (by decide +kernel)
def gaugeMclrHigh : RegRef := (regAt .gaugeM 0 0x11C).get (by decide +kernel)

/-- The RW fields of `GAUGE_CTRL` as a write sets them. -/
def State.gaugeCtrlFields (s : State) (d w : Nat) : State :=
  (s.put R.GAUGE_CTRL.FREEZE d (field w 0 1)).put R.GAUGE_CTRL.OVF_EVT_EN d (field w 2 1)

/-- A write of `GAUGE_CTRL` sets its RW fields, and takes a snapshot where SNAP is written. -/
theorem regSet_gaugeCtrl (s : State) (d req w : Nat) (far : List Byte) (ecc : Ecc) :
    s.regSet .gauge d gaugeCtrl req w far ecc =
      if bit w 1 then (s.gaugeCtrlFields d w).snapDie d else s.gaugeCtrlFields d w := by
  have hafter (t : State) : t.deviceAfter s .gauge d 0x100 w req far ecc = if bit w 1 then t.snapDie d else t := by
    simp [State.deviceAfter]
  exact hafter _

/-- The RW fields of `GAUGE_MCTRL` as a write sets them. -/
def State.mctrlFields (s : State) (w : Nat) : State :=
  (((((s.put R.GAUGE_MCTRL.FREEZE 0 (field w 0 1)).put R.GAUGE_MCTRL.FREEZE_ALL 0 (field w 2 1)).put
    R.GAUGE_MCTRL.OVF_EVT_EN 0 (field w 4 1)).put R.GAUGE_MCTRL.STEP_SNAP 0 (field w 5 1)).put
    R.GAUGE_MCTRL.STEP_CTX 0 (field w 8 4))

theorem regSet_gaugeMctrl (s : State) (req w : Nat) (far : List Byte) (ecc : Ecc) :
    s.regSet .gaugeM 0 gaugeMctrl req w far ecc = (s.mctrlFields w).onMctrl w := rfl

theorem regSet_gaugeMclrLow (s : State) (req w : Nat) (far : List Byte) (ecc : Ecc) :
    s.regSet .gaugeM 0 gaugeMclrLow req w far ecc = s.mclr w := rfl

theorem regSet_gaugeMclrHigh (s : State) (req w : Nat) (far : List Byte) (ecc : Ecc) :
    s.regSet .gaugeM 0 gaugeMclrHigh req w far ecc = s.mclr w := rfl

theorem regSet_gaugeSelAll (s : State) (d req w : Nat) (far : List Byte) (ecc : Ecc) :
    s.regSet .gauge d gaugeSelAll req w far ecc = if coreEventOk (field w 0 8) then
      (List.range 64).foldl (fun (s : State) c => s.gaugeSelect (64 * d + c) (field w 8 3) (field w 0 8)) s
    else s.kind1 .gauge d 0x10C 0 req := rfl

theorem regSet_gaugeClr (s : State) (d req w : Nat) (far : List Byte) (ecc : Ecc) :
    s.regSet .gauge d gaugeClr req w far ecc = if bit w 16 then
      (List.range 64).foldl (fun (s : State) c => s.modCore (64 * d + c) fun k => k.clearGauges (w % 2 ^ 16)) s
    else s.modCore (s.gaugeCore d) fun k => k.clearGauges (w % 2 ^ 16) := rfl

/-! ### Snapshots (R461) -/

/-- What a snapshot of a die's Gauges leaves of a register: all but that die's tick. -/
theorem snapDie_fld {f : Fd} {i j d : Nat} (h : f.key i j ≠ R.GAUGE_SNAP_TICK.TICK.key d 0) (s : State) :
    (s.snapDie d).fld f i j = s.fld f i j := fld_setFld_ne (h := h) ..

@[simp] theorem snapDie_tick (s : State) (d : Nat) : (s.snapDie d).tick = s.tick := rfl

/-- One module Gauge goes into its shadow. -/
def State.snapOne (s : State) (k : Nat) : State :=
  (s.setFld R.GAUGE_MSNAP.COUNT 0 k (s.fld R.GAUGE_MVAL.COUNT 0 k)).setFld R.GAUGE_MSNAP.OVF 0 k
    (b2n (bit (s.fld R.GAUGE_MOVF.OVF) k))

/-- What the snapshot of a module Gauge leaves of a register: all but its shadow. -/
theorem snapOne_fld {f : Fd} {i j k : Nat} (hcount : f.key i j ≠ R.GAUGE_MSNAP.COUNT.key 0 k)
    (hovf : f.key i j ≠ R.GAUGE_MSNAP.OVF.key 0 k) (s : State) : (s.snapOne k).fld f i j = s.fld f i j :=
  (fld_setFld_ne (h := hovf) ..).trans (fld_setFld_ne (h := hcount) ..)

/-- Taking the snapshots one after another passes no time. -/
theorem foldl_snapOne_tick (s : State) (l : List Nat) : (l.foldl State.snapOne s).tick = s.tick :=
  foldl_keeps (f := State.snapOne) (p := State.tick) (fun _ _ => rfl) l s

/-- The module Gauges go into their shadows, and then the tick is noted. -/
theorem snapModule_eq (s : State) :
    s.snapModule = ((List.range 64).foldl State.snapOne s).put R.GAUGE_MSNAP_TICK.TICK 0 s.tick := by
  rw [← foldl_snapOne_tick s (List.range 64)]
  rfl

theorem snapModule_tick (s : State) : s.snapModule.tick = s.tick := by
  rw [snapModule_eq, put_eq, setFld_tick, foldl_snapOne_tick]

/-- The registers that a module snapshot writes. -/
def snapKey (key : Nat) : Prop :=
  key = R.GAUGE_MSNAP_TICK.TICK.key 0 0 ∨ ∃ k < 64, key = R.GAUGE_MSNAP.COUNT.key 0 k ∨ key = R.GAUGE_MSNAP.OVF.key 0 k

/-- What a module snapshot leaves of a register. -/
theorem snapModule_fld_ne {f : Fd} {i j : Nat} (h : ¬ snapKey (f.key i j)) (s : State) :
    s.snapModule.fld f i j = s.fld f i j := by
  have hall (l : List Nat) (hl : ∀ k ∈ l, k < 64) (t : State) : (l.foldl State.snapOne t).fld f i j = t.fld f i j := by
    induction l generalizing t with
    | nil => rfl
    | cons k l ih =>
      have hk := hl k (List.mem_cons_self ..)
      rw [List.foldl_cons, ih fun n hn => hl n (List.mem_cons_of_mem k hn)]
      exact snapOne_fld (fun heq => h (.inr ⟨k, hk, .inl heq⟩)) (fun heq => h (.inr ⟨k, hk, .inr heq⟩)) t
  rw [snapModule_eq, put_eq, fld_setFld_ne (h := fun heq => h (.inl heq))]
  exact hall (List.range 64) (fun k hk => List.mem_range.mp hk) s

/-- A module snapshot copies every count. -/
theorem snapModule_count (s : State) (k : Fin 64) :
    s.snapModule.fld R.GAUGE_MSNAP.COUNT 0 k = s.fld R.GAUGE_MVAL.COUNT 0 k % 2 ^ 48 := by
  have hother (t : State) (a j : Nat) (hne : j ≠ a) :
      (t.snapOne a).fld R.GAUGE_MSNAP.COUNT 0 j = t.fld R.GAUGE_MSNAP.COUNT 0 j := by
    apply snapOne_fld <;> simp only [Fd.key, pageBase, R.GAUGE_MSNAP.COUNT, R.GAUGE_MSNAP.OVF] <;> omega
  have hsource (t : State) (a j : Nat) (hj : j < 64) :
      (t.snapOne a).fld R.GAUGE_MVAL.COUNT 0 j = t.fld R.GAUGE_MVAL.COUNT 0 j := by
    apply snapOne_fld <;> simp only [Fd.key, R.GAUGE_MSNAP.COUNT, R.GAUGE_MSNAP.OVF, R.GAUGE_MVAL.COUNT] <;> omega
  have hkept (l : List Nat) (j : Nat) (hj : j ∉ l) (t : State) :
      (l.foldl State.snapOne t).fld R.GAUGE_MSNAP.COUNT 0 j = t.fld R.GAUGE_MSNAP.COUNT 0 j := by
    induction l generalizing t with
    | nil => rfl
    | cons a l ih =>
      rw [List.foldl_cons, ih fun h => hj (List.mem_cons_of_mem a h), hother t a j fun h => hj (h ▸ List.mem_cons_self ..)]
  have hcopied (l : List Nat) (hl : l.Nodup) (j : Nat) (hj : j ∈ l) (hlt : j < 64) (t : State) :
      (l.foldl State.snapOne t).fld R.GAUGE_MSNAP.COUNT 0 j = t.fld R.GAUGE_MVAL.COUNT 0 j % 2 ^ 48 := by
    induction l generalizing t with
    | nil => exact absurd hj List.not_mem_nil
    | cons a l ih =>
      obtain ⟨ha, hl⟩ := List.nodup_cons.mp hl
      obtain rfl | hj := List.mem_cons.mp hj
      · rw [List.foldl_cons, hkept l j ha, State.snapOne,
          fld_setFld_ne (h := by simp [Fd.key, R.GAUGE_MSNAP.COUNT, R.GAUGE_MSNAP.OVF]), fld_setFld_self]
        rfl
      · rw [List.foldl_cons, ih hl hj, hsource t a j hlt]
  rw [snapModule_eq, put_eq, fld_setFld_ne (h := by simp only [Fd.key, R.GAUGE_MSNAP.COUNT, R.GAUGE_MSNAP_TICK.TICK]; omega)]
  exact hcopied (List.range 64) List.nodup_range _ (List.mem_range.mpr k.isLt) k.isLt s

theorem snapModule_tick_fld (s : State) : s.snapModule.fld R.GAUGE_MSNAP_TICK.TICK = s.tick % 2 ^ 64 := by
  rw [snapModule_eq]
  exact fld_setFld_self ..

/-- A snapshot of every Gauge notes the tick of each die's Gauges. -/
theorem snapEvery_tick_fld (s : State) (d : Fin 8) : s.snapEvery.fld R.GAUGE_SNAP_TICK.TICK d = s.tick % 2 ^ 64 := by
  have hkept (l : List Nat) (i : Nat) (hi : i ∉ l) (t : State) :
      (l.foldl State.snapDie t).fld R.GAUGE_SNAP_TICK.TICK i = t.fld R.GAUGE_SNAP_TICK.TICK i := by
    induction l generalizing t with
    | nil => rfl
    | cons a l ih =>
      rw [List.foldl_cons, ih fun h => hi (List.mem_cons_of_mem a h), snapDie_fld]
      have hne : i ≠ a := fun h => hi (h ▸ List.mem_cons_self ..)
      simp only [Fd.key, pageBase, R.GAUGE_SNAP_TICK.TICK]
      omega
  have hnoted (l : List Nat) (hl : l.Nodup) (i : Nat) (hi : i ∈ l) (t : State) :
      (l.foldl State.snapDie t).fld R.GAUGE_SNAP_TICK.TICK i = t.tick % 2 ^ 64 := by
    induction l generalizing t with
    | nil => exact absurd hi List.not_mem_nil
    | cons a l ih =>
      obtain ⟨ha, hl⟩ := List.nodup_cons.mp hl
      obtain rfl | hi := List.mem_cons.mp hi
      · rw [List.foldl_cons, hkept l i ha]
        exact fld_setFld_self ..
      · rw [List.foldl_cons, ih hl hi, snapDie_tick]
  have hout : ¬ snapKey (R.GAUGE_SNAP_TICK.TICK.key d 0) := by
    simp only [snapKey, Fd.key, pageBase, R.GAUGE_SNAP_TICK.TICK, R.GAUGE_MSNAP_TICK.TICK, R.GAUGE_MSNAP.COUNT,
      R.GAUGE_MSNAP.OVF]
    omega
  rw [State.snapEvery, snapModule_fld_ne hout]
  exact hnoted (List.range 8) List.nodup_range d (List.mem_range.mpr d.isLt) s

/-- Taking a snapshot of every die leaves the registers of the module's Gauges, and the tick. -/
theorem snapDies_fld {f : Fd} {i j : Nat} (h : 0x40000 * 64 ≤ f.key i j) (s : State) :
    ((List.range 8).foldl State.snapDie s).fld f i j = s.fld f i j := by
  have hall (l : List Nat) (hl : ∀ d ∈ l, d < 8) (t : State) : (l.foldl State.snapDie t).fld f i j = t.fld f i j := by
    induction l generalizing t with
    | nil => rfl
    | cons d l ih =>
      have hd := hl d (List.mem_cons_self ..)
      rw [List.foldl_cons, ih fun n hn => hl n (List.mem_cons_of_mem d hn), snapDie_fld]
      intro heq
      rw [heq] at h
      simp only [Fd.key, pageBase, R.GAUGE_SNAP_TICK.TICK] at h
      omega
  exact hall (List.range 8) (fun d hd => List.mem_range.mp hd) s

theorem snapDies_tick (s : State) : ((List.range 8).foldl State.snapDie s).tick = s.tick :=
  foldl_keeps (f := State.snapDie) (p := State.tick) (fun _ _ => rfl) (List.range 8) s

/-! ### `GAUGE_MCTRL` -/

@[simp] theorem mctrlFields_tick (s : State) (w : Nat) : (s.mctrlFields w).tick = s.tick := rfl

/-- The fields of `GAUGE_MCTRL` lie in one word; a write of them leaves every other one. -/
theorem mctrlFields_fld {f : Fd} {i j : Nat} (h : f.key i j / 64 ≠ 0x40100) (s : State) (w : Nat) :
    (s.mctrlFields w).fld f i j = s.fld f i j := by
  have hword {g : Fd} (hg : g.key 0 0 / 64 = 0x40100) : f.key i j ≠ g.key 0 0 := fun heq => h (heq ▸ hg)
  simp only [State.mctrlFields, put_eq]
  rw [fld_setFld_ne (h := hword (by decide)), fld_setFld_ne (h := hword (by decide)), fld_setFld_ne (h := hword (by decide)),
    fld_setFld_ne (h := hword (by decide)), fld_setFld_ne (h := hword (by decide))]

theorem mctrlFields_freeze (s : State) (w : Nat) : (s.mctrlFields w).fld R.GAUGE_MCTRL.FREEZE = field w 0 1 := by
  simp only [State.mctrlFields, put_eq]
  rw [fld_setFld_ne (h := by decide), fld_setFld_ne (h := by decide), fld_setFld_ne (h := by decide),
    fld_setFld_ne (h := by decide), fld_setFld_self]
  exact Nat.mod_mod ..

theorem mctrlFields_freezeAll (s : State) (w : Nat) : (s.mctrlFields w).fld R.GAUGE_MCTRL.FREEZE_ALL = field w 2 1 := by
  simp only [State.mctrlFields, put_eq]
  rw [fld_setFld_ne (h := by decide), fld_setFld_ne (h := by decide), fld_setFld_ne (h := by decide), fld_setFld_self]
  exact Nat.mod_mod ..

/-- A field of `GAUGE_MCTRL` holds what the write gave it, whatever snapshots the write took as well. -/
theorem onMctrl_fld {f : Fd} (h : f.key 0 0 / 64 = 0x40100) (s : State) (w : Nat) : (s.onMctrl w).fld f = s.fld f := by
  have hout : ¬ snapKey (f.key 0 0) := by
    simp only [snapKey, Fd.key, pageBase, R.GAUGE_MSNAP_TICK.TICK, R.GAUGE_MSNAP.COUNT, R.GAUGE_MSNAP.OVF] at h ⊢
    omega
  have hmodule (t : State) : t.snapModule.fld f = t.fld f := snapModule_fld_ne hout t
  have hevery (t : State) : t.snapEvery.fld f = t.fld f :=
    (hmodule _).trans (snapDies_fld (by omega) t)
  have hfirst : (if bit w 1 then s.snapModule else s).fld f = s.fld f := by
    split
    · exact hmodule s
    · rfl
  simp only [State.onMctrl]
  split
  · exact (hevery _).trans hfirst
  · exact hfirst

/-- `GAUGE_CTRL.FREEZE` holds what the write gave it, also where the write took a snapshot. -/
theorem regSet_gaugeCtrl_freeze (s : State) (d : Fin 8) (req w : Nat) (far : List Byte) (ecc : Ecc) :
    (s.regSet .gauge d gaugeCtrl req w far ecc).fld R.GAUGE_CTRL.FREEZE d = field w 0 1 := by
  have hset : (s.gaugeCtrlFields d w).fld R.GAUGE_CTRL.FREEZE d = field w 0 1 := by
    have hne : R.GAUGE_CTRL.FREEZE.key d 0 ≠ R.GAUGE_CTRL.OVF_EVT_EN.key d 0 := by
      simp only [Fd.key, pageBase, R.GAUGE_CTRL.FREEZE, R.GAUGE_CTRL.OVF_EVT_EN]
      omega
    rw [State.gaugeCtrlFields, put_eq, put_eq, fld_setFld_ne (h := hne), fld_setFld_self]
    exact Nat.mod_mod ..
  rw [regSet_gaugeCtrl]
  split
  case isTrue =>
    refine (snapDie_fld ?_ _).trans hset
    simp only [Fd.key, pageBase, R.GAUGE_CTRL.FREEZE, R.GAUGE_SNAP_TICK.TICK]
    omega
  case isFalse => exact hset

/-- SNAP copies the module's counts and notes the tick, also where SNAP_ALL does it again. -/
theorem onMctrl_snap {w : Nat} (h : bit w 1 = true) (s : State) :
    (s.onMctrl w).fld R.GAUGE_MSNAP_TICK.TICK = s.tick % 2 ^ 64 ∧
      ∀ k : Fin 64, (s.onMctrl w).fld R.GAUGE_MSNAP.COUNT 0 k = s.fld R.GAUGE_MVAL.COUNT 0 k % 2 ^ 48 := by
  have hsource (t : State) (k : Fin 64) : t.snapModule.fld R.GAUGE_MVAL.COUNT 0 k = t.fld R.GAUGE_MVAL.COUNT 0 k := by
    refine snapModule_fld_ne ?_ t
    simp only [snapKey, Fd.key, pageBase, R.GAUGE_MVAL.COUNT, R.GAUGE_MSNAP_TICK.TICK, R.GAUGE_MSNAP.COUNT, R.GAUGE_MSNAP.OVF]
    omega
  have hkept (t : State) (k : Fin 64) :
      ((List.range 8).foldl State.snapDie t).fld R.GAUGE_MVAL.COUNT 0 k = t.fld R.GAUGE_MVAL.COUNT 0 k :=
    snapDies_fld (by simp only [Fd.key, pageBase, R.GAUGE_MVAL.COUNT]; omega) t
  simp only [State.onMctrl, h, if_true]
  split
  case isTrue =>
    refine ⟨?_, fun k => ?_⟩
    · rw [State.snapEvery, snapModule_tick_fld, snapDies_tick, snapModule_tick]
    · rw [State.snapEvery, snapModule_count, hkept, hsource]
  case isFalse => exact ⟨snapModule_tick_fld s, snapModule_count s⟩

/-- SNAP_ALL notes the tick of every snapshot, also where SNAP is written too. -/
theorem onMctrl_snapAll {w : Nat} (h : bit w 3 = true) (s : State) :
    (s.onMctrl w).fld R.GAUGE_MSNAP_TICK.TICK = s.tick % 2 ^ 64 ∧
      ∀ d : Fin 8, (s.onMctrl w).fld R.GAUGE_SNAP_TICK.TICK d = s.tick % 2 ^ 64 := by
  have hevery (t : State) : t.snapEvery.fld R.GAUGE_MSNAP_TICK.TICK = t.tick % 2 ^ 64 ∧
      ∀ d : Fin 8, t.snapEvery.fld R.GAUGE_SNAP_TICK.TICK d = t.tick % 2 ^ 64 :=
    ⟨by rw [State.snapEvery, snapModule_tick_fld, snapDies_tick], snapEvery_tick_fld t⟩
  simp only [State.onMctrl, h, if_true]
  split
  case isTrue => simpa only [snapModule_tick] using hevery s.snapModule
  case isFalse => exact hevery s

/-! ### `GAUGE_MCLR` (R462) -/

/-- One module Gauge is cleared. -/
def State.mclrOne (s : State) (k : Nat) : State :=
  (s.setFld R.GAUGE_MVAL.COUNT 0 k 0).put R.GAUGE_MOVF.OVF 0 (clrBit (s.fld R.GAUGE_MOVF.OVF) k)

/-- A clear of one module Gauge leaves every register but its count and the overflow bits. -/
theorem mclrOne_fld {f : Fd} {i j k : Nat} (hcount : f.key i j ≠ R.GAUGE_MVAL.COUNT.key 0 k)
    (hovf : f.key i j ≠ R.GAUGE_MOVF.OVF.key 0 0) (s : State) : (s.mclrOne k).fld f i j = s.fld f i j :=
  (fld_setFld_ne (h := hovf) ..).trans (fld_setFld_ne (h := hcount) ..)

theorem mclrOne_count (s : State) (k j : Nat) :
    (s.mclrOne k).fld R.GAUGE_MVAL.COUNT 0 j = if j = k then 0 else s.fld R.GAUGE_MVAL.COUNT 0 j := by
  have hovf : R.GAUGE_MVAL.COUNT.key 0 j ≠ R.GAUGE_MOVF.OVF.key 0 0 := by
    simp only [Fd.key, pageBase, R.GAUGE_MVAL.COUNT, R.GAUGE_MOVF.OVF]
    omega
  split
  case isTrue heq =>
    subst heq
    exact (fld_setFld_ne (h := hovf) ..).trans (fld_setFld_self ..)
  case isFalse hne =>
    refine mclrOne_fld ?_ hovf s
    simp only [Fd.key, pageBase, R.GAUGE_MVAL.COUNT]
    omega

/-- A write of `GAUGE_MCLR` clears the counts that it names. -/
theorem mclr_count (s : State) (bits : Nat) (k : Fin 64) :
    (s.mclr bits).fld R.GAUGE_MVAL.COUNT 0 k = if bit bits k then 0 else s.fld R.GAUGE_MVAL.COUNT 0 k := by
  have hlist (l : List Nat) (t : State) : (l.foldl State.mclrOne t).fld R.GAUGE_MVAL.COUNT 0 k =
      if k.val ∈ l then 0 else t.fld R.GAUGE_MVAL.COUNT 0 k := by
    induction l generalizing t with
    | nil => simp
    | cons a l ih =>
      rw [List.foldl_cons, ih, mclrOne_count]
      by_cases hmem : k.val ∈ l <;> simp [hmem]
  have hmem : k.val ∈ bitsSet bits 64 ↔ bit bits k = true := by simp [bitsSet, bit]
  exact (hlist (bitsSet bits 64) s).trans (by simp only [hmem])

/-- A write of `GAUGE_MCLR` leaves every register before the module's Gauges. -/
theorem mclr_fld {f : Fd} {i j : Nat} (h : f.key i j < 0x40100 * 64) (s : State) (bits : Nat) :
    (s.mclr bits).fld f i j = s.fld f i j := by
  refine foldl_keeps (f := State.mclrOne) (p := fun t : State => t.fld f i j) (fun t k => mclrOne_fld ?_ ?_ t)
    (bitsSet bits 64) s
  all_goals intro heq; rw [heq] at h; simp only [Fd.key, pageBase, R.GAUGE_MVAL.COUNT, R.GAUGE_MOVF.OVF] at h; omega

/-- A write of `GAUGE_MCLR` changes registers alone. -/
theorem mclr_regs (s : State) (bits : Nat) : ∃ r, s.mclr bits = { s with regs := r } :=
  foldl_setFld_shape (bitsSet bits 64) State.mclrOne (fun _ _ => ⟨_, rfl⟩) s

/-- Whether a requester reaches an address depends on the module's state and on three registers. -/
theorem regReached_congr {s : State} {r : Table Nat}
    (hld : State.fld { s with regs := r } R.WHARF_LD_EN.EN = s.fld R.WHARF_LD_EN.EN)
    (hscopes : State.fld { s with regs := r } R.DBG_SCOPE.SCOPES = s.fld R.DBG_SCOPE.SCOPES)
    (hmask : State.fld { s with regs := r } R.DBG_SCOPE.MASK = s.fld R.DBG_SCOPE.MASK) (req : Fin 18) (a : Nat) :
    State.regReached { s with regs := r } req a = s.regReached req a := by
  have hscope (b : Nat) : State.scope { s with regs := r } b = s.scope b := by rw [State.scope, hscopes, State.scope]
  have hserves (n : Nat) : State.ldServes { s with regs := r } n = s.ldServes n := by
    simp only [State.ldServes, State.ldEnabled, hld]
    rfl
  have hkind : State.accessKind { s with regs := r } req a = s.accessKind req a := by
    simp only [State.accessKind, hserves]
    rfl
  have hbar : State.jtagBar { s with regs := r } a = s.jtagBar a := by simp only [State.jtagBar, hscope, hmask]
  simp only [State.regReached, State.jtagOpen, hkind, hbar, hscope]

/-- The halves of `GAUGE_MCLR` take a write together, and a write of one leaves the other as open to the requester. -/
theorem takesWrite_mclrHigh (s : State) (req : Fin 18) (bits : Nat) (h : s.takesWrite req .gaugeM 0 0x118 = true) :
    (s.mclr bits).takesWrite req .gaugeM 0 0x11C = true := by
  have hlock : (s.mclr bits).fld (hdrCfgLock .gaugeM) = s.fld (hdrCfgLock .gaugeM) := mclr_fld (by decide) s bits
  have hld : (s.mclr bits).fld R.WHARF_LD_EN.EN = s.fld R.WHARF_LD_EN.EN := mclr_fld (by decide) s bits
  have hscopes : (s.mclr bits).fld R.DBG_SCOPE.SCOPES = s.fld R.DBG_SCOPE.SCOPES := mclr_fld (by decide) s bits
  have hmask : (s.mclr bits).fld R.DBG_SCOPE.MASK = s.fld R.DBG_SCOPE.MASK := mclr_fld (by decide) s bits
  obtain ⟨r, hr⟩ := mclr_regs s bits
  rw [hr] at hlock hld hscopes hmask ⊢
  have hhigh : State.takesWrite { s with regs := r } req .gaugeM 0 0x11C =
      State.takesWrite { s with regs := r } req .gaugeM 0 0x118 := rfl
  rw [hhigh, State.takesWrite, regReached_congr hld hscopes hmask]
  exact h

/-- A half of `GAUGE_MCLR` that nothing bars acts alone, its bits at their places. -/
theorem regWrite_mclr {s : State} {req : Nat} {r : RegRef} (hr : r = gaugeMclrLow ∨ r = gaugeMclrHigh)
    (h : s.writeBarred .gaugeM 0 r.reg req = false) (a v : Nat) (far : List Byte) (ecc : Ecc) :
    s.regWrite .gaugeM 0 r req a v far ecc = s.mclr (if r.high then v * 2 ^ 32 else v) := by
  rw [State.regWrite, h]
  obtain rfl | rfl := hr <;> rfl

/-- The two writes that carry a value of `GAUGE_MCLR` clear its halves in turn. -/
theorem exec_gaugeMclr {s : State} {req : Fin 18} (h : s.takesWrite req .gaugeM 0 0x118 = true) (bits : BitVec 64) :
    exec (.gaugeMclr req bits) s = .next ((s.mclr (bits.toNat % 2 ^ 32)).mclr (bits.toNat / 2 ^ 32 * 2 ^ 32)) := by
  have hlow : s.command req .gaugeM 0 0x118 (bits.toNat % 2 ^ 32) = s.mclr (bits.toNat % 2 ^ 32) := by
    rw [command_of_takes (r := gaugeMclrLow) h rfl (pageAt_gaugeM (by decide)) (by decide)]
    exact regWrite_mclr (.inl rfl) (writeBarred_of_takes h rfl) ..
  have hopen := takesWrite_mclrHigh s req (bits.toNat % 2 ^ 32) h
  have hhigh : (s.mclr (bits.toNat % 2 ^ 32)).command req .gaugeM 0 0x11C (bits.toNat / 2 ^ 32) =
      (s.mclr (bits.toNat % 2 ^ 32)).mclr (bits.toNat / 2 ^ 32 * 2 ^ 32) := by
    rw [command_of_takes (r := gaugeMclrHigh) hopen rfl (pageAt_gaugeM (by decide)) (by decide)]
    exact regWrite_mclr (.inr rfl) (writeBarred_of_takes hopen rfl) ..
  exact congrArg Host.Outcome.next
    ((congrArg (fun t : State => t.command req .gaugeM 0 0x11C (bits.toNat / 2 ^ 32)) hlow).trans hhigh)

/-- A bit of a word stands in one of its halves. -/
theorem bit_halves (v k : Nat) : (bit (v / 2 ^ 32 * 2 ^ 32) k || bit (v % 2 ^ 32) k) = bit v k := by
  simp only [bit, Nat.testBit_mul_two_pow, Nat.testBit_div_two_pow, Nat.testBit_mod_two_pow]
  by_cases hk : 32 ≤ k
  · simp [hk, Nat.not_lt.mpr hk]
  · simp [hk, Nat.lt_of_not_le hk]

theorem ite_zero_or (a b : Bool) (x : Nat) : (if a then 0 else if b then 0 else x) = if (a || b) then 0 else x := by
  cases a <;> rfl

/-! ### Counts (R459) -/

/-- A count of a module Gauge wraps at 2^48. -/
theorem countModule_count (s : State) (g : Fin 64) (n : Nat) :
    (s.countModule g n).fld R.GAUGE_MVAL.COUNT 0 g = (s.fld R.GAUGE_MVAL.COUNT 0 g + n) % 2 ^ 48 := by
  have hovf : R.GAUGE_MVAL.COUNT.key 0 g ≠ R.GAUGE_MOVF.OVF.key 0 0 := by
    simp only [Fd.key, pageBase, R.GAUGE_MVAL.COUNT, R.GAUGE_MOVF.OVF]
    omega
  have hraise (t : State) : (t.raise (.page .gaugeM 0) none 0x1701 (w4 [8, 0, g])).fld R.GAUGE_MVAL.COUNT 0 g =
      t.fld R.GAUGE_MVAL.COUNT 0 g := by
    apply raise_page_fld <;>
      simp only [Fd.key, pageBase, R.GAUGE_MVAL.COUNT, R.FAULT_COUNT.COUNT, hdrEvent] <;> omega
  have hcount (v : Nat) : (s.setFld R.GAUGE_MVAL.COUNT 0 g (v % 2 ^ 48)).fld R.GAUGE_MVAL.COUNT 0 g = v % 2 ^ 48 :=
    (fld_setFld_self ..).trans (Nat.mod_mod ..)
  have hmark (t : State) (v : Nat) : (t.put R.GAUGE_MOVF.OVF 0 v).fld R.GAUGE_MVAL.COUNT 0 g = t.fld R.GAUGE_MVAL.COUNT 0 g :=
    fld_setFld_ne (h := hovf) ..
  simp only [State.countModule]
  split
  case isTrue =>
    split
    · rw [hraise, hmark, hcount]
    · rw [hmark, hcount]
  case isFalse => exact hcount _

/-- A count of a core Gauge wraps at 2^48. -/
theorem countCore_count (s : State) (n g a : Nat) :
    tget 0 ((s.countCore n g a).core n).gauge g = (tget 0 (s.core n).gauge g + a) % 2 ^ 48 := by
  have hraise (t : State) (b : Bool) (u : Raiser) (info : List Byte) :
      (if b then t.raise u none 0x1701 info else t).core n = t.core n := by
    split
    · rw [State.core, raise_cores, State.core]
    · rfl
  refine (congrArg (fun k : Core => tget 0 k.gauge g) (hraise ..)).trans ?_
  rw [modCore_eq, core_setCore_self]
  exact tget_tset_self ..

/-- Settles O41: the writes set the fields of their registers and carry out their commands, and a count wraps at 2^48. -/
theorem gaugeCommands : Obligations.GaugeCommands := by
  intro s
  refine ⟨?freeze, ?snap, ?mfreeze, ?msnap, ?freezeAll, ?snapAll, ?clr, ?mclr, ?selAll, ?module, ?core⟩
  case freeze =>
    refine fun req d b htakes => completes_of_next rfl ?_
    rw [command_eq_regSet htakes rfl (pageAt_gauge d (by decide)) (by decide) rfl (r := gaugeCtrl),
      regSet_gaugeCtrl_freeze, field_withBit]
  case snap =>
    refine fun req d htakes => completes_of_next rfl ?_
    rw [command_eq_regSet htakes rfl (pageAt_gauge d (by decide)) (by decide) rfl (r := gaugeCtrl), regSet_gaugeCtrl,
      bit_withBit]
    exact ⟨fld_setFld_self .., rfl⟩
  case mfreeze =>
    refine fun req b htakes => completes_of_next rfl ?_
    rw [command_eq_regSet htakes rfl (pageAt_gaugeM (by decide)) (by decide) rfl (r := gaugeMctrl), regSet_gaugeMctrl,
      onMctrl_fld (by decide), mctrlFields_freeze, field_withBit]
  case msnap =>
    refine fun req htakes => completes_of_next rfl ?_
    rw [command_eq_regSet htakes rfl (pageAt_gaugeM (by decide)) (by decide) rfl (r := gaugeMctrl), regSet_gaugeMctrl]
    obtain ⟨htick, hcounts⟩ := onMctrl_snap (bit_withBit (s.kept .gaugeM 0 0x100) 1 true) (s.mctrlFields _)
    refine ⟨htick, fun k => (hcounts k).trans (congrArg (· % 2 ^ 48) (mctrlFields_fld ?_ s _))⟩
    simp only [Fd.key, pageBase, R.GAUGE_MVAL.COUNT]
    omega
  case freezeAll =>
    refine fun req b htakes => completes_of_next rfl ?_
    rw [command_eq_regSet htakes rfl (pageAt_gaugeM (by decide)) (by decide) rfl (r := gaugeMctrl), regSet_gaugeMctrl,
      onMctrl_fld (by decide), mctrlFields_freezeAll, field_withBit]
  case snapAll =>
    refine fun req htakes => completes_of_next rfl ?_
    rw [command_eq_regSet htakes rfl (pageAt_gaugeM (by decide)) (by decide) rfl (r := gaugeMctrl), regSet_gaugeMctrl]
    exact onMctrl_snapAll (bit_withBit (s.kept .gaugeM 0 0x100) 3 true) (s.mctrlFields _)
  case clr =>
    refine fun req d bits all htakes => completes_of_next rfl ?_
    rw [command_eq_regSet htakes rfl (pageAt_gauge d (by decide)) (by decide) rfl (r := gaugeClr), regSet_gaugeClr]
    have hbits : (bits.toNat + 2 ^ 16 * b2n all) % 2 ^ 16 = bits.toNat := by omega
    have hall : bit (bits.toNat + 2 ^ 16 * b2n all) 16 = all := by
      have hdiv : (bits.toNat + 2 ^ 16 * b2n all) / 2 ^ 16 = b2n all := by omega
      rw [bit, Nat.testBit_eq_decide_div_mod_eq, hdiv]
      cases all <;> rfl
    rw [hbits, hall]
  case mclr =>
    refine fun req bits htakes => completes_of_next (exec_gaugeMclr htakes bits) fun k => ?_
    rw [mclr_count, mclr_count, ite_zero_or, bit_halves]
    rfl
  case selAll =>
    refine fun req d ev idx htakes => completes_of_next rfl ?_
    have hev : field (ev.toNat + 2 ^ 8 * idx.val) 0 8 = ev.toNat := by rw [field]; omega
    have hidx : field (ev.toNat + 2 ^ 8 * idx.val) 8 3 = idx.val := by rw [field]; omega
    rw [command_eq_regSet htakes rfl (pageAt_gauge d (by decide)) (by decide) rfl (r := gaugeSelAll), regSet_gaugeSelAll,
      hev, hidx]
  case module =>
    refine fun g n => completes_of_next (congrArg Host.Outcome.next (if_pos rfl)) ?_
    simp only [State.moduleGaugeCounts]
    split
    case isTrue => rfl
    case isFalse => exact countModule_count s g n.toNat
  case core =>
    refine fun d c g n hd => completes_of_next (congrArg Host.Outcome.next (if_neg (Nat.ne_of_lt hd))) ?_
    have hdie : (64 * d.val + c.val) / 64 = d.val := by omega
    simp only [State.coreGaugeCounts, hdie]
    split
    case isTrue => rfl
    case isFalse => exact countCore_count s (64 * d + c) (g % 16) n.toNat

end Sys2Proof.Machine
end
section
/-! PROOF. What the building and the sending of a step leave: the power state, the Weir, and the registers that the power
control, the self-test and the context commands work on. -/
namespace Sys2Proof.Machine

/-- Keys of the registers above the header of the pages from WEIR to LOOP. -/
def deviceKey (k : Nat) : Prop := 0x8000 * 64 ≤ k ∧ k < 0xD000 * 64 ∧ 0x100 ≤ k / 64 % 0x1000

/-- Keys of `CTX_CMD_RESULT` and of STATE and BUSY in `CTX_STATUS`, of any context. -/
def statusKey (k : Nat) : Prop :=
  0x400000 * 64 ≤ k ∧ (k / 64 % 0x10000 = 0x108 ∨ (k / 64 % 0x10000 = 0x104 ∧ k % 64 < 16))

def calmKey (k : Nat) : Prop := deviceKey k ∨ statusKey k

/-- `t` has the power state, the Weir and the registers of the keys in `K` as `s` has them. -/
structure State.keeps (K : Nat → Prop) (s t : State) : Prop where
  reg : ∀ k, K k → s.sameReg k t
  power : t.power = s.power
  weir : t.weir = s.weir

section
variable {K : Nat → Prop}

theorem State.keeps.refl (s : State) : s.keeps K s := ⟨fun _ _ => .refl s, rfl, rfl⟩

theorem State.keeps.trans {s t u : State} (h : s.keeps K t) (h' : t.keeps K u) : s.keeps K u :=
  ⟨fun k hk => (h.reg k hk).trans (h'.reg k hk), h'.power.trans h.power, h'.weir.trans h.weir⟩

/-- What a last step keeps is kept of what the steps before it keep. -/
theorem State.keeps.after {s t u : State} (h' : t.keeps K u) (h : s.keeps K t) : s.keeps K u := h.trans h'

theorem State.keeps.mono {K' : Nat → Prop} {s t : State} (h : s.keeps K t) (hK : ∀ k, K' k → K k) : s.keeps K' t :=
  ⟨fun k hk => h.reg k (hK k hk), h.power, h.weir⟩

theorem State.keeps.of_regs {s t : State} (hregs : t.regs = s.regs) (hpower : t.power = s.power) (hweir : t.weir = s.weir) :
    s.keeps K t := ⟨fun _ _ => .of_regs hregs, hpower, hweir⟩

/-- What is kept from a state that differs elsewhere only is kept from the state itself. -/
theorem State.keeps.from_eq {s s' t : State} (h : s'.keeps K t) (hregs : s'.regs = s.regs) (hpower : s'.power = s.power)
    (hweir : s'.weir = s.weir) : s.keeps K t := (State.keeps.of_regs hregs hpower hweir).trans h

theorem State.keeps.fld {s t : State} {f : Fd} {i j : Nat} (h : s.keeps K t) (hk : K (f.key i j)) :
    t.fld f i j = s.fld f i j := (h.reg _ hk).fld

theorem setFld_keeps {f : Fd} {i j : Nat} (h : ¬ K (f.key i j)) (s : State) (v : Nat) : s.keeps K (s.setFld f i j v) :=
  ⟨fun _ hk => setFld_reg s f i j v fun heq => h (heq ▸ hk), rfl, rfl⟩

theorem emit_keeps (s : State) (o : Out) : s.keeps K (s.emit o) := .of_regs rfl rfl rfl

theorem setCtx_keeps (s : State) (c : Nat) (x : Ctx) : s.keeps K (s.setCtx c x) := .of_regs rfl rfl rfl

theorem modCtx_keeps (s : State) (c : Nat) (f : Ctx → Ctx) : s.keeps K (s.modCtx c f) := setCtx_keeps ..

theorem setCore_keeps (s : State) (n : Nat) (x : Core) : s.keeps K (s.setCore n x) := .of_regs rfl rfl rfl

/-- Steps that each keep what `K` names keep it together. -/
theorem foldl_keeps_all {α : Type} {f : State → α → State} {l : List α} (h : ∀ s : State, ∀ a ∈ l, s.keeps K (f s a)) (s : State) :
    s.keeps K (l.foldl f s) := by
  induction l generalizing s with
  | nil => exact .refl s
  | cons a l ih =>
    exact (h s a (List.mem_cons_self ..)).trans (ih (fun s b hb => h s b (List.mem_cons_of_mem a hb)) _)

theorem ite_keeps {s t u : State} (b : Prop) [Decidable b] (ht : s.keeps K t) (hu : s.keeps K u) :
    s.keeps K (if b then t else u) := by
  split
  · exact ht
  · exact hu

end

/-! ### Events and duty requests -/

theorem pageBase_aligned (p : Page) (i : Nat) : pageBase p i % 0x1000 = 0 := by
  cases p <;> simp only [pageBase] <;> omega

/-- No event of a class changes a calm register (R409, R523). -/
theorem eventQuiet_of_calmKey {k code : Nat} (hk : calmKey k) (hcode : code < 0x8000) (u : Raiser) : eventQuiet u code k := by
  have hring : ringQuiet k := by
    refine ⟨?_, fun ld => ⟨?_, ?_, ?_, ?_⟩⟩ <;> intro heq <;>
      simp only [heq, calmKey, deviceKey, statusKey, Fd.key, pageBase, hdrEvent, R.FAULT_COUNT.COUNT, R.LD_EVQ_TAIL.INDEX,
        R.LD_EVQ_DROPPED.COUNT, R.LD_STATUS.EVQ_OVF] at hk <;> omega
  refine ⟨hring, ?_, ?_⟩
  · intro heq
    simp only [heq, calmKey, deviceKey, statusKey, Fd.key, pageBase, R.FAULT_COUNT.COUNT] at hk
    omega
  · cases u with
    | page p i =>
      intro heq
      have halign := pageBase_aligned p i
      simp only [heq, calmKey, deviceKey, statusKey, Fd.key, hdrEvent] at hk
      omega
    | other a i => exact trivial

theorem raise_keeps {code : Nat} (hcode : code < 0x8000) (s : State) (u : Raiser) (c : Option Nat) (info : List Byte) :
    s.keeps calmKey (s.raise u c code info) :=
  ⟨fun _ hk => raise_reg (eventQuiet_of_calmKey hk hcode u) s c info, raise_power .., raise_weir ..⟩

theorem raiseOnce_keeps {code : Nat} (hcode : code < 0x8000) (s : State) (key ticks : Nat) (u : Raiser) (c : Option Nat)
    (info : List Byte) : s.keeps calmKey (s.raiseOnce key ticks u c code info) := by
  simp only [State.raiseOnce]
  exact ite_keeps _ (.refl s) ((raise_keeps hcode ..).from_eq rfl rfl rfl)

theorem dutyQuiet_of_calmKey {c k : Nat} (hk : calmKey k) : dutyQuiet c k := by
  refine ⟨?_, ?_, ?_, ?_, ?_⟩ <;> intro heq <;>
    simp only [heq, calmKey, deviceKey, statusKey, Fd.key, pageBase, R.DUTY_STATUS.OUTSTANDING, R.DUTY_STATUS.RING_FULL,
      R.DUTY_REQ_TAIL.INDEX, R.DUTY_POSTED.COUNT, R.DUTY_RING_FULL.COUNT] at hk <;> omega

theorem dutyRequest_keeps (s : State) (c kind note : Nat) (p : List Byte) :
    s.keeps calmKey (s.dutyRequest c kind note p) :=
  ⟨fun _ hk => dutyRequest_reg (dutyQuiet_of_calmKey hk) s kind note p, dutyRequest_power .., dutyRequest_weir ..⟩

theorem dutySync_keeps (s : State) (c : Nat) : s.keeps calmKey (s.dutySync c) :=
  ⟨fun _ hk => dutySync_reg (dutyQuiet_of_calmKey hk) s, rfl, rfl⟩

/-! ### Messages -/

theorem sendPort_keeps {K : Nat → Prop} (s : State) (k : Nat) (p : Packet) : s.keeps K (s.sendPort k p) := by
  simp only [State.sendPort]
  exact ite_keeps _ (.of_regs rfl rfl rfl) (.of_regs rfl rfl rfl)

theorem forward_keeps (s : State) (p : Packet) : s.keeps calmKey (s.forward p) := by
  have hcount {f : Fd} (hf : ¬ calmKey (f.key 0 0)) (t : State) : t.keeps calmKey (t.bump f 0) := setFld_keeps hf ..
  simp only [State.forward]
  refine ite_keeps _ (.trans (hcount ?_ s) (raiseOnce_keeps (by decide) ..))
    (.trans (ite_keeps _ (hcount ?_ s) (.refl s)) (sendPort_keeps ..)) <;>
    simp only [calmKey, deviceKey, statusKey, Fd.key, pageBase, R.ROUTE_UNREACHABLE.COUNT, R.ROUTE_ALT_USED.COUNT] <;> omega

theorem injectOwn_keeps (s : State) (p : Packet) : s.keeps calmKey (s.injectOwn p).2 := by
  simp only [State.injectOwn]
  split
  · refine setFld_keeps ?_ ..
    simp only [calmKey, deviceKey, statusKey, Fd.key, pageBase, R.ROUTE_REFUSED.COUNT]
    omega
  · split
    · exact emit_keeps ..
    · exact forward_keeps ..

theorem fabricBytes_keeps (s : State) (c n : Nat) : s.keeps calmKey (s.fabricBytes c n) := by
  refine .trans (setCtx_keeps s c _) (setFld_keeps ?_ ..)
  simp only [calmKey, deviceKey, statusKey, Fd.key, pageBase, R.CTX_ACCT_FABRIC.COUNT]
  omega

theorem inject_keeps (s : State) (c : Nat) (p : Packet) : s.keeps calmKey (s.inject c p).2 := by
  simp only [State.inject]
  split
  · exact (injectOwn_keeps s p).trans (fabricBytes_keeps ..)
  · exact injectOwn_keeps s p

theorem sendPackets_keeps (s : State) (id : Nat) (m : Message) : s.keeps calmKey (s.sendPackets id m).2 := by
  have h (l : List Packet) (acc : Bool × State) : acc.2.keeps calmKey
      (l.foldl (fun acc p => let r := acc.2.inject m.ctx p; (acc.1 && r.1, r.2)) acc).2 := by
    induction l generalizing acc with
    | nil => exact .refl _
    | cons p l ih => exact (inject_keeps acc.2 m.ctx p).trans (ih (acc.1 && (acc.2.inject m.ctx p).1, (acc.2.inject m.ctx p).2))
  exact h _ (true, s)

theorem issueMsg_keeps (s : State) (m : Message) : s.keeps calmKey (s.issueMsg m).2 := by
  have hwait (t : State) : t.keeps calmKey (({ t with rack := { t.rack with waiting := t.rack.waiting ++ [m] } } : State).bump
      R.MSG_ID_WAITS.COUNT m.ctx) := by
    refine (setFld_keeps ?_ ..).from_eq rfl rfl rfl
    simp only [calmKey, deviceKey, statusKey, Fd.key, pageBase, R.MSG_ID_WAITS.COUNT]
    omega
  unfold State.issueMsg
  generalize (List.range 4096).map (fun i => (s.rack.msgPtr + i) % 4096) = ids
  simp only
  split
  · split
    · split
      · exact (sendPackets_keeps ..).from_eq rfl rfl rfl
      · exact .of_regs rfl rfl rfl
    · exact hwait s
  · exact hwait s

theorem sendStep_keeps (s : State) (c kind node count1 count2 : Nat) (body : List Byte) :
    s.keeps calmKey (s.sendStep c kind node count1 count2 body).2 := by
  rw [State.sendStep, State.sendOwn]
  exact issueMsg_keeps s _

/-! ### Steps -/

theorem markReady_keeps (s : State) (c : Nat) : s.keeps calmKey (s.markReady c) := by
  refine foldl_keeps_all (fun t l hl => setFld_keeps ?_ ..) s
  have := List.mem_range.mp hl
  simp only [calmKey, deviceKey, statusKey, Fd.key, pageBase, R.ASSAY_LSTATE.REF_READY]
  omega

theorem broadcast_keeps (s : State) (c : Nat) : s.keeps calmKey (s.broadcast c) := by
  simp only [State.broadcast]
  refine .trans (markReady_keeps s c) (.trans (setFld_keeps ?_ ..) (.trans (setFld_keeps ?_ ..) (.trans (setCtx_keeps ..)
    (foldl_keeps_all (fun t n _ => sendStep_keeps ..) _)))) <;>
    simp only [calmKey, deviceKey, statusKey, Fd.key, pageBase, R.STEP_STATUS.PHASE, R.STEP_STATUS.ENTRIES] <;> omega

theorem newStep_keeps (s : State) (c : Nat) (list : List Work) : s.keeps calmKey (s.newStep c list) := by
  simp only [State.newStep]
  refine .trans (setFld_keeps ?_ s _) (.trans (setFld_keeps ?_ ..) (.trans (setCtx_keeps ..) (broadcast_keeps ..))) <;>
    simp only [calmKey, deviceKey, statusKey, Fd.key, pageBase, R.STEP_NUMBER.STEP, R.STEP_STATUS.INSTANCE] <;> omega

theorem emptyStep_keeps (s : State) (c : Nat) : s.keeps calmKey (s.emptyStep c) :=
  ite_keeps _ (newStep_keeps ..) (.refl s)

theorem useList_keeps (s : State) (c : Nat) (list : List Work) : s.keeps calmKey (s.useList c list) :=
  ite_keeps _ (emptyStep_keeps ..) (newStep_keeps ..)

theorem runBuilder_keeps (s : State) (c : Nat) : s.keeps calmKey (s.runBuilder c) := by
  simp only [State.runBuilder]
  exact (foldl_keeps_all (fun t n _ => modCtx_keeps ..) s).trans ((modCtx_keeps ..).trans (useList_keeps ..))

/-- Building the next step leaves the calm registers, whether the host or the hardware builds it (R292, R293). -/
theorem nextStep_keeps (s : State) (c : Nat) : s.keeps calmKey (s.nextStep c) := by
  simp only [State.nextStep]
  refine ite_keeps _ (.refl s) (ite_keeps _ (ite_keeps _ ?_ (emptyStep_keeps ..)) (runBuilder_keeps ..))
  exact (dutyRequest_keeps ..).from_eq rfl rfl rfl

end Sys2Proof.Machine
end
section
/-! PROOF. The context commands: their refusals in the order of R418, and the cores that join and leave a set (R417). -/
namespace Sys2Proof.Machine

/-! ### Bits of a core set -/

theorem bit_setBit (v k j : Nat) : bit (setBit v k) j = (bit v j || decide (j = k)) := by
  simp [bit, setBit, Nat.testBit_or, Nat.testBit_two_pow, eq_comm]

theorem bit_clrBit_ne (v : Nat) {k j : Nat} (h : j ≠ k) : bit (clrBit v k) j = bit v j := by
  unfold bit clrBit
  split
  case isFalse => rfl
  case isTrue hset =>
    have hle : 2 ^ k ≤ v := Nat.ge_two_pow_of_testBit hset
    obtain hlt | hgt := Nat.lt_or_gt_of_ne h
    · have hmod : (v - 2 ^ k) % 2 ^ k = v % 2 ^ k := (Nat.mod_eq_sub_mod hle).symm
      have hlow (x : Nat) : x.testBit j = (x % 2 ^ k).testBit j := by simp [Nat.testBit_mod_two_pow, hlt]
      rw [hlow, hmod, ← hlow]
    · have hodd : v / 2 ^ k % 2 = 1 := by simpa [Nat.testBit_eq_decide_div_mod_eq] using hset
      have hdiv : (v - 2 ^ k) / 2 ^ k = v / 2 ^ k - 1 := by simpa using Nat.sub_mul_div v (2 ^ k) 1
      have hhigh (x : Nat) : x.testBit j = (x / 2 ^ k / 2).testBit (j - k - 1) := by
        rw [Nat.div_div_eq_div_mul, ← Nat.pow_succ, Nat.testBit_div_two_pow]
        congr 1
        omega
      have hhalf (q : Nat) (hq : q % 2 = 1) : (q - 1) / 2 = q / 2 := by omega
      rw [hhigh, hdiv, hhalf _ hodd, ← hhigh]

theorem bit_clrBit (v k j : Nat) : bit (clrBit v k) j = (bit v j && decide (j ≠ k)) := by
  by_cases h : j = k
  · subst h
    simpa [withBit] using bit_withBit v j false
  · simp [bit_clrBit_ne v h, h]

theorem bit_mod (v : Nat) {j w : Nat} (h : j < w) : bit (v % 2 ^ w) j = bit v j := by
  simp [bit, Nat.testBit_mod_two_pow, h]

/-! ### A core joins or leaves a set (R417) -/

/-- A core joins a set: the calm registers stay. -/
theorem joinSet_keeps (s : State) (c : Nat) {n : Nat} (hn : n < 512) : s.keeps calmKey (s.joinSet c n) := by
  simp only [State.joinSet]
  refine (setFld_keeps ?_ ..).after ((setFld_keeps ?_ ..).after ((setFld_keeps ?_ ..).after ((setFld_keeps ?_ ..).after
    (setCore_keeps ..)))) <;>
    simp only [calmKey, deviceKey, statusKey, Fd.key, pageBase, R.CTX_CORES.BITS, R.CTX_STATUS.CORES, R.CORE_STATE.CTX,
      R.CORE_STATE.STATE] <;> omega

/-- The bit of a core in a set, after another register than that word of the set is written. -/
theorem inSet_setFld_ne {f : Fd} {i j c n : Nat} (h : R.CTX_CORES.BITS.key c (n / 32) ≠ f.key i j) (s : State) (v : Nat) :
    (s.setFld f i j v).inSet c n = s.inSet c n := by
  rw [State.inSet, fld_setFld_ne (h := h), State.inSet]

/-- Writing a word of a set leaves the words of the other sets, and the other words. -/
theorem inSet_bits_ne {c d n m : Nat} (hn : n < 512) (hm : m < 512)
    (h : d ≠ c ∨ m / 32 ≠ n / 32) (s : State) (v : Nat) :
    (s.setFld R.CTX_CORES.BITS c (n / 32) v).inSet d m = s.inSet d m := by
  refine inSet_setFld_ne ?_ s v
  simp only [Fd.key, pageBase, R.CTX_CORES.BITS]
  omega

/-- A written word of a set holds its 32 cores. -/
theorem inSet_bits_self {d n m : Nat} (h : m / 32 = n / 32) (s : State) (v : Nat) :
    (s.setFld R.CTX_CORES.BITS d (n / 32) v).inSet d m = bit v (m % 32) := by
  rw [State.inSet, h, fld_setFld_self]
  exact bit_mod v (Nat.mod_lt m (by decide))

/-- Who is in a set after a core has joined it. -/
theorem joinSet_inSet (s : State) {c d n m : Nat} (hn : n < 512) (hm : m < 512) :
    (s.joinSet c n).inSet d m = (s.inSet d m || (decide (d = c) && decide (m = n))) := by
  have hother {f : Fd} {i : Nat} (h : R.CTX_CORES.BITS.key d (m / 32) ≠ f.key i 0) (t : State) (v : Nat) :
      (t.put f i v).inSet d m = t.inSet d m := inSet_setFld_ne h t v
  have hset : (s.joinSet c n).inSet d m = ((s.modCore n Core.freshGauges).setFld R.CTX_CORES.BITS c (n / 32)
      (setBit (s.fld R.CTX_CORES.BITS c (n / 32)) (n % 32))).inSet d m := by
    refine (hother ?_ _ _).trans ((hother ?_ _ _).trans (hother ?_ _ _)) <;>
      simp only [Fd.key, pageBase, R.CTX_CORES.BITS, R.CTX_STATUS.CORES, R.CORE_STATE.CTX, R.CORE_STATE.STATE] <;> omega
  rw [hset]
  by_cases hword : d = c ∧ m / 32 = n / 32
  · obtain ⟨rfl, hword⟩ := hword
    rw [inSet_bits_self hword, bit_setBit, State.inSet, hword]
    have hiff : m % 32 = n % 32 ↔ m = n := by omega
    simp [hiff]
  · rw [inSet_bits_ne hn hm (by omega)]
    have hne : ¬ (d = c ∧ m = n) := fun ⟨hdc, hmn⟩ => hword ⟨hdc, hmn ▸ rfl⟩
    have hmod : (s.modCore n Core.freshGauges).inSet d m = s.inSet d m := rfl
    rw [hmod]
    simp [← Bool.decide_and, hne]

/-- The state of a core after a core has joined a set: the one that joined is READY. -/
theorem joinSet_coreState (s : State) {c n m : Nat} (hn : n < 512) :
    (s.joinSet c n).coreState m = if m = n then coreReady else s.coreState m := by
  simp only [State.joinSet, setCoreState_eq, coreState_eq, put_eq]
  split
  case isTrue heq =>
    subst heq
    exact fld_setFld_self ..
  case isFalse hne =>
    rw [fld_setFld_ne, fld_setFld_ne, fld_setFld_ne, fld_setFld_ne]
    · rfl
    all_goals
      simp only [Fd.key, pageBase, R.CTX_CORES.BITS, R.CTX_STATUS.CORES, R.CORE_STATE.CTX, R.CORE_STATE.STATE]
      omega

/-- Cores join a set one after another. -/
def State.joinAll (s : State) (c : Nat) (l : List Nat) : State := l.foldl (fun s n => s.joinSet c n) s

theorem joinAll_keeps (s : State) (c : Nat) {l : List Nat} (hl : ∀ n ∈ l, n < 512) : s.keeps calmKey (s.joinAll c l) :=
  foldl_keeps_all (fun t n hn => joinSet_keeps t c (hl n hn)) s

theorem joinAll_inSet {c m : Nat} (hm : m < 512) {l : List Nat} (hl : ∀ n ∈ l, n < 512) (s : State) :
    (s.joinAll c l).inSet c m = (s.inSet c m || decide (m ∈ l)) := by
  induction l generalizing s with
  | nil => simp [State.joinAll]
  | cons n l ih =>
    have hrest := ih (fun k hk => hl k (List.mem_cons_of_mem n hk)) (s.joinSet c n)
    rw [State.joinAll, List.foldl_cons, ← State.joinAll, hrest, joinSet_inSet s (hl n (List.mem_cons_self ..)) hm]
    by_cases hmn : m = n <;> simp [hmn]

theorem joinAll_coreState {c m : Nat} {l : List Nat} (hl : ∀ n ∈ l, n < 512) (s : State)
    (hmem : m ∈ l ∨ s.coreState m = coreReady) : (s.joinAll c l).coreState m = coreReady := by
  induction l generalizing s with
  | nil => exact hmem.resolve_left List.not_mem_nil
  | cons n l ih =>
    rw [State.joinAll, List.foldl_cons, ← State.joinAll]
    refine ih (fun k hk => hl k (List.mem_cons_of_mem n hk)) (s.joinSet c n) ?_
    rw [joinSet_coreState s (hl n (List.mem_cons_self ..))]
    by_cases hmn : m = n
    · exact .inr (if_pos hmn)
    · rw [if_neg hmn]
      exact hmem.imp_left fun h => (List.mem_cons.mp h).resolve_left hmn

/-- A core that leaves its set: the calm registers stay. -/
theorem partSet_keeps (s : State) {n : Nat} (hn : n < 512) : s.keeps calmKey (s.partSet n) := by
  have hleave : s.keeps calmKey (s.leaveSet n) := by
    unfold State.leaveSet
    split
    · refine (setFld_keeps ?_ ..).after (setFld_keeps ?_ ..) <;>
        simp only [calmKey, deviceKey, statusKey, Fd.key, pageBase, R.CTX_CORES.BITS, R.CTX_STATUS.CORES] <;> omega
    · exact .refl s
  simp only [State.partSet]
  refine (setFld_keeps ?_ ..).after ((setFld_keeps ?_ ..).after ((setCore_keeps ..).after ((setCore_keeps ..).after hleave))) <;>
    simp only [calmKey, deviceKey, statusKey, Fd.key, pageBase, R.CORE_STATE.CTX, R.CORE_STATE.STATE] <;> omega

theorem ownerOf_lt {s : State} {n c : Nat} (h : s.ownerOf n = some c) : c < 16 :=
  List.mem_range.mp (List.mem_of_find?_eq_some h)

/-- Who is in a set after a core has left its own. -/
theorem partSet_inSet (s : State) {d n m : Nat} (hn : n < 512) (hm : m < 512) :
    (s.partSet n).inSet d m = (s.inSet d m && !(decide (m = n) && decide (s.ownerOf n = some d))) := by
  have hother {f : Fd} {i : Nat} (h : R.CTX_CORES.BITS.key d (m / 32) ≠ f.key i 0) (t : State) (v : Nat) :
      (t.put f i v).inSet d m = t.inSet d m := inSet_setFld_ne h t v
  have hleft : (s.partSet n).inSet d m = (s.leaveSet n).inSet d m := by
    refine (hother ?_ _ _).trans (hother ?_ _ _) <;>
      simp only [Fd.key, pageBase, R.CTX_CORES.BITS, R.CORE_STATE.CTX, R.CORE_STATE.STATE] <;> omega
  rw [hleft, State.leaveSet]
  split
  case h_1 c howner =>
    have hc := ownerOf_lt howner
    rw [howner]
    refine (hother ?_ _ _).trans ?_
    · simp only [Fd.key, pageBase, R.CTX_CORES.BITS, R.CTX_STATUS.CORES]
      omega
    by_cases hword : d = c ∧ m / 32 = n / 32
    · obtain ⟨rfl, hword⟩ := hword
      rw [inSet_bits_self hword, bit_clrBit, State.inSet, hword]
      have hiff : m % 32 = n % 32 ↔ m = n := by omega
      simp [hiff]
    · rw [inSet_bits_ne hn hm (by omega)]
      have hne : ¬ (m = n ∧ c = d) := fun ⟨hmn, hcd⟩ => hword ⟨hcd.symm, hmn ▸ rfl⟩
      simp [← Bool.decide_and, hne]
  case h_2 howner => simp [howner]

/-- The owner of a core depends on the sets alone. -/
theorem ownerOf_congr {s t : State} {n : Nat} (h : ∀ d, d < 16 → t.inSet d n = s.inSet d n) : t.ownerOf n = s.ownerOf n := by
  have hsets := List.filter_congr fun d hd => h d (List.mem_range.mp hd)
  rw [State.ownerOf, State.ownerOf, ← List.head?_filter, hsets, List.head?_filter]

/-- A core that leaves its set leaves the owner of every other core. -/
theorem partSet_ownerOf (s : State) {n m : Nat} (hn : n < 512) (hm : m < 512) (hne : m ≠ n) :
    (s.partSet n).ownerOf m = s.ownerOf m := by
  refine ownerOf_congr fun d _ => ?_
  rw [partSet_inSet s hn hm]
  simp [hne]

theorem partAll_keeps (s : State) {l : List Nat} (hl : ∀ n ∈ l, n < 512) : s.keeps calmKey (l.foldl State.partSet s) :=
  foldl_keeps_all (fun t n hn => partSet_keeps t (hl n hn)) s

theorem partAll_inSet_of_notMem {c m : Nat} (hm : m < 512) {l : List Nat} (hl : ∀ n ∈ l, n < 512) (hmem : m ∉ l)
    (s : State) : (l.foldl State.partSet s).inSet c m = s.inSet c m := by
  induction l generalizing s with
  | nil => rfl
  | cons n l ih =>
    obtain ⟨hmn, hml⟩ := not_or.mp (mt List.mem_cons.mpr hmem)
    rw [List.foldl_cons, ih (fun k hk => hl k (List.mem_cons_of_mem n hk)) hml,
      partSet_inSet s (hl n (List.mem_cons_self ..)) hm]
    simp [hmn]

/-- Cores only leave. -/
theorem partAll_inSet_false {c m : Nat} (hm : m < 512) {l : List Nat} (hl : ∀ n ∈ l, n < 512) (s : State)
    (hout : s.inSet c m = false) : (l.foldl State.partSet s).inSet c m = false := by
  induction l generalizing s with
  | nil => exact hout
  | cons n l ih =>
    refine ih (fun k hk => hl k (List.mem_cons_of_mem n hk)) (s.partSet n) ?_
    rw [partSet_inSet s (hl n (List.mem_cons_self ..)) hm, hout, Bool.false_and]

/-- A core that its set's context sends away is out of the set. -/
theorem partAll_inSet_of_mem {c m : Nat} (hm : m < 512) {l : List Nat} (hl : ∀ n ∈ l, n < 512) (hmem : m ∈ l)
    (s : State) (howner : s.ownerOf m = some c) : (l.foldl State.partSet s).inSet c m = false := by
  induction l generalizing s with
  | nil => exact absurd hmem List.not_mem_nil
  | cons n l ih =>
    have hn := hl n (List.mem_cons_self ..)
    have hrest : ∀ k ∈ l, k < 512 := fun k hk => hl k (List.mem_cons_of_mem n hk)
    rw [List.foldl_cons]
    by_cases hmn : m = n
    · subst hmn
      refine partAll_inSet_false hm hrest _ ?_
      rw [partSet_inSet s hn hm, howner]
      simp
    · exact ih hrest ((List.mem_cons.mp hmem).resolve_left hmn) _ ((partSet_ownerOf s hn hm hmn).trans howner)

end Sys2Proof.Machine
end
section
/-! PROOF. What becomes of a context command: the first refusal of R418, or the state of R417. -/
namespace Sys2Proof.Machine

/-! ### The write of `CTX_CMD` -/

theorem pageAt_ctx (c : Fin 16) {off : Nat} (hoff : off < 0x1000) : pageAt (pageBase .ctx c + off) = some (.ctx, c.val) := by
  have hn : (pageBase .ctx c + off) / 0x1000 = 0x400 + 16 * c.val := by simp only [pageBase]; omega
  rw [pageAt, hn]
  have hnumber : ∀ c : Fin 16, pageNumber (0x400 + 16 * c.val) = some (.ctx, c.val) := by decide
  exact hnumber c

/-- `CTX_CMD`, as the field map gives it. -/
def ctxCmdReg : RegRef := (regAt .ctx 0 0x100).get (by decide +kernel)

theorem regSet_ctxCmd (s : State) (c req w : Nat) (far : List Byte) (ecc : Ecc) :
    s.regSet .ctx c ctxCmdReg req w far ecc = s.onCtx c 0x100 w req := rfl

/-- An operation of LD0's that an LD asks for is recorded before it is judged (R531). -/
def State.cmdSeen (s : State) (req c op : Nat) : State :=
  if !asLd0 req && decide (op ≠ 2 ∧ op ≠ 3) then s.kind2 .ctx c 0x100 req else s

/-- A command that is written to `CTX_CMD` is judged once it has been recorded where it must be. -/
theorem command_ctxCmd {s : State} {req : Fin 18} {c : Fin 16} (h : s.takesWrite req .ctx c 0x100 = true) {op : Nat}
    (hop : 1 ≤ op ∧ op ≤ 5) : s.command req .ctx c 0x100 op = (s.cmdSeen req c op).ctxCmd req c op := by
  have hfield : field op 0 3 = op := by rw [field]; omega
  have hlegal : ¬ (op = 0 ∨ 5 < op) := by omega
  rw [command_eq_regSet h rfl (pageAt_ctx c (by decide)) (by decide) rfl (r := ctxCmdReg), regSet_ctxCmd, State.onCtx, hfield]
  simp only [if_true, hlegal, if_false]
  rfl

/-- A record in an error log leaves every register above the header. -/
theorem errlog_fld {f : Fd} {i j : Nat} (h : 0x100 ≤ f.key i j / 64 % 0x1000) (s : State) (p : Page) (n kind addr b d : Nat) :
    (s.errlog p n kind addr b d).fld f i j = s.fld f i j := by
  have hput {off lo w r : Nat} (hoff : off < 0x100) (hlo : lo < 64) (t : State) (v : Nat) :
      (t.put ⟨p, off, 0, lo, w, r⟩ n v).fld f i j = t.fld f i j := by
    refine fld_setFld_ne (h := fun heq => ?_) ..
    have halign := pageBase_aligned p n
    rw [heq] at h
    simp only [Fd.key] at h
    omega
  have hregs {t : State} {e : Table Nat} : State.fld { t with errSeq := e } f i j = t.fld f i j := rfl
  simp only [State.errlog]
  split
  · exact hput (by decide) (by decide) ..
  · exact hregs.trans ((hput (by decide) (by decide) ..).trans ((hput (by decide) (by decide) ..).trans
      ((hput (by decide) (by decide) ..).trans ((hput (by decide) (by decide) ..).trans (hput (by decide) (by decide) ..)))))

section
variable (s : State) (req c op : Nat)

theorem cmdSeen_fld {f : Fd} {i j : Nat} (h : 0x100 ≤ f.key i j / 64 % 0x1000) :
    (s.cmdSeen req c op).fld f i j = s.fld f i j := by
  unfold State.cmdSeen
  split
  · exact errlog_fld h ..
  · rfl

theorem cmdSeen_coresReq : (s.cmdSeen req c op).coresReq c = s.coresReq c := by
  refine List.filter_congr fun n hn => ?_
  have hn := List.mem_range.mp hn
  rw [cmdSeen_fld]
  simp only [Fd.key, pageBase, R.CTX_CORES_REQ.BITS]
  omega

theorem cmdSeen_inSet {n : Nat} (hn : n < 512) : (s.cmdSeen req c op).inSet c n = s.inSet c n := by
  rw [State.inSet, cmdSeen_fld, State.inSet]
  simp only [Fd.key, pageBase, R.CTX_CORES.BITS]
  omega

theorem cmdSeen_coreState (n : Nat) : (s.cmdSeen req c op).coreState n = s.coreState n := by
  refine cmdSeen_fld s req c op ?_
  simp only [Fd.key, pageBase, R.CORE_STATE.STATE]
  omega

theorem cmdSeen_ownerOf {n : Nat} (hn : n < 512) : (s.cmdSeen req c op).ownerOf n = s.ownerOf n := by
  refine ownerOf_congr fun d hd => ?_
  rw [State.inSet, cmdSeen_fld, State.inSet]
  simp only [Fd.key, pageBase, R.CTX_CORES.BITS]
  omega

theorem cmdSeen_cores : (s.cmdSeen req c op).cores = s.cores := by
  unfold State.cmdSeen State.kind2
  split <;> simp

theorem cmdSeen_ctxs : (s.cmdSeen req c op).ctxs = s.ctxs := by
  unfold State.cmdSeen State.kind2
  split <;> simp

theorem cmdSeen_resets : (s.cmdSeen req c op).resets = s.resets := by
  unfold State.cmdSeen State.kind2
  split <;> simp

theorem cmdSeen_wharf : (s.cmdSeen req c op).wharf = s.wharf := by
  unfold State.cmdSeen State.kind2
  split <;> simp

/-- The record does not change the judgement. -/
theorem cmdSeen_ctxRefusal (hc : c < 16) : (s.cmdSeen req c op).ctxRefusal req c op = s.ctxRefusal req c op := by
  have hstate : (s.cmdSeen req c op).fld R.CTX_STATUS.STATE c = s.fld R.CTX_STATUS.STATE c := by
    refine cmdSeen_fld s req c op ?_
    simp only [Fd.key, pageBase, R.CTX_STATUS.STATE]
    omega
  have hended : (s.cmdSeen req c op).ended c = s.ended c := by
    rw [State.ended, on_eq, cmdSeen_fld, State.ended, on_eq]
    simp only [Fd.key, pageBase, R.FAULT_CTX.ENDED]
    omega
  have hld : (s.cmdSeen req c op).ldEnabled c = s.ldEnabled c := by
    rw [State.ldEnabled, cmdSeen_wharf, cmdSeen_fld _ _ _ _ (by decide), State.ldEnabled]
  have hadded : ((s.cmdSeen req c op).coresReq c).filter (fun n => !(s.cmdSeen req c op).inSet c n) =
      (s.coresReq c).filter fun n => !s.inSet c n := by
    rw [cmdSeen_coresReq s req c op]
    refine List.filter_congr fun n hn => ?_
    rw [cmdSeen_inSet s req c op (List.mem_range.mp (List.mem_filter.mp hn).1)]
  simp only [State.ctxRefusal, hadded, hstate, hended, hld, State.ctxInReset, State.ldInReset, cmdSeen_resets,
    cmdSeen_coreState]
  rfl

end

/-- The code with which a context command ends, where no self-test runs: 6 while another one is under way, then the first
refusal, and 0 where it acts. -/
def State.ctxCode (s : State) (req c op : Nat) : Nat := if s.on R.CTX_STATUS.BUSY c then 6 else s.ctxRefusal req c op

theorem ctxRefusal_le (s : State) (req c op : Nat) : s.ctxRefusal req c op ≤ 5 := by
  have hle (b : Prop) [Decidable b] {x y : Nat} (hx : x ≤ 5) (hy : y ≤ 5) : (if b then x else y) ≤ 5 := by
    split
    · exact hx
    · exact hy
  exact hle _ (by decide) (hle _ (by decide) (hle _ (by decide) (hle _ (by decide) (hle _ (by decide) (by decide)))))

/-- A context command ends with its code; one that acts does so after the code is written, and one that is refused
changes no state of a context or a core. -/
theorem ctxCommand {s : State} {req : Fin 18} {c : Fin 16} {op : Nat} {i : Instr} {P : State → Prop}
    (hexec : exec i s = .next (s.command req .ctx c 0x100 op)) (h : s.takesWrite req .ctx c 0x100 = true)
    (hbist : s.on R.BIST_STATUS.BUSY = false) (hop : 1 ≤ op ∧ op ≤ 5)
    (hacts : s.ctxCode req c op = 0 →
      (((s.cmdSeen req c op).put R.CTX_CMD_RESULT.RESULT c 0).ctxAct c op).fld R.CTX_CMD_RESULT.RESULT c = 0 ∧
        P (((s.cmdSeen req c op).put R.CTX_CMD_RESULT.RESULT c 0).ctxAct c op)) :
    Completes i s fun t => t.fld R.CTX_CMD_RESULT.RESULT c = s.ctxCode req c op ∧
      (t.fld R.CTX_CMD_RESULT.RESULT c = 0 → P t) ∧
      (t.fld R.CTX_CMD_RESULT.RESULT c ≠ 0 →
        t.fld R.CTX_STATUS.STATE c = s.fld R.CTX_STATUS.STATE c ∧ t.cores = s.cores ∧ t.ctxs = s.ctxs) := by
  refine completes_of_next hexec ?_
  have hbusy : (s.cmdSeen req c op).on R.CTX_STATUS.BUSY c = s.on R.CTX_STATUS.BUSY c := by
    rw [on_eq, on_eq, cmdSeen_fld]
    simp only [Fd.key, pageBase, R.CTX_STATUS.BUSY]
    omega
  have htest : (s.cmdSeen req c op).on R.BIST_STATUS.BUSY = false := by
    rw [on_eq, cmdSeen_fld _ _ _ _ (by decide), ← on_eq, hbist]
  have hrefused {r : Nat} (hr : r < 16) (hne : r ≠ 0) :
      let t := (s.cmdSeen req c op).put R.CTX_CMD_RESULT.RESULT c r
      t.fld R.CTX_CMD_RESULT.RESULT c = r ∧ (t.fld R.CTX_CMD_RESULT.RESULT c = 0 → P t) ∧
        (t.fld R.CTX_CMD_RESULT.RESULT c ≠ 0 →
          t.fld R.CTX_STATUS.STATE c = s.fld R.CTX_STATUS.STATE c ∧ t.cores = s.cores ∧ t.ctxs = s.ctxs) := by
    have hcode : ((s.cmdSeen req c op).put R.CTX_CMD_RESULT.RESULT c r).fld R.CTX_CMD_RESULT.RESULT c = r :=
      (fld_setFld_self ..).trans (Nat.mod_eq_of_lt hr)
    refine ⟨hcode, fun h0 => absurd (hcode.symm.trans h0) hne, fun _ => ⟨?_, cmdSeen_cores .., cmdSeen_ctxs ..⟩⟩
    refine (fld_setFld_ne (h := ?_) ..).trans (cmdSeen_fld _ _ _ _ ?_) <;>
      simp only [Fd.key, pageBase, R.CTX_STATUS.STATE, R.CTX_CMD_RESULT.RESULT] <;> omega
  rw [command_ctxCmd h hop, State.ctxCmd, hbusy, htest]
  simp only [Bool.false_eq_true, if_false]
  by_cases hwait : s.on R.CTX_STATUS.BUSY c = true
  · rw [if_pos hwait, State.ctxCode, if_pos hwait]
    exact hrefused (by decide) (by decide)
  · rw [if_neg hwait]
    rw [State.ctxCode, if_neg hwait] at hacts ⊢
    simp only [State.ctxDo, cmdSeen_ctxRefusal s req c op c.isLt]
    by_cases hr : s.ctxRefusal req c op = 0
    · rw [if_pos hr, hr]
      obtain ⟨hcode, hP⟩ := hacts hr
      exact ⟨hcode, fun _ => hP, fun hne => absurd hcode hne⟩
    · rw [if_neg hr]
      exact hrefused (Nat.lt_of_le_of_lt (ctxRefusal_le ..) (by decide)) hr

/-! ### What the commands keep -/

/-- LAUNCH commands that end write rings and counters of the LD page (R416). -/
theorem endLaunches_keeps (s : State) (c : Nat) : s.keeps calmKey (s.endLaunches c) := by
  have hpush (t : State) (b : List Byte) : t.keeps calmKey (t.cqPush c b) := by
    unfold State.cqPush
    split
    · refine setFld_keeps ?_ ..
      simp only [calmKey, deviceKey, statusKey, Fd.key, pageBase, R.LD_CQ_DROPPED.COUNT]
      omega
    · have hring (u : State) : u.keeps calmKey ((u.statusLine c).ringIrq c 0 false) := by
        obtain ⟨r, w, o, hport⟩ := ringIrq_port (u.statusLine c) c 0 false
        refine .of_regs (ringIrq_regs ..) ?_ ?_ <;> rw [hport] <;> rfl
      refine (hring _).after ((setFld_keeps ?_ ..).after (emit_keeps ..))
      simp only [calmKey, deviceKey, statusKey, Fd.key, pageBase, ringTail, R.LD_CQ_TAIL.INDEX]
      omega
  refine (foldl_keeps_all (fun t q _ => (setFld_keeps ?_ ..).after (hpush t _)) _).from_eq rfl rfl rfl
  simp only [calmKey, deviceKey, statusKey, Fd.key, pageBase, R.LD_CMDS.COUNT]
  omega

/-- Calm registers other than `CTX_STATUS.STATE`. -/
def settledKey (k : Nat) : Prop := calmKey k ∧ ∀ c, k ≠ R.CTX_STATUS.STATE.key c 0

theorem stopCore_keeps (s : State) {n : Nat} (hn : n < 512) (v : Nat) : s.keeps calmKey (s.stopCore n v) := by
  refine (setFld_keeps ?_ ..).after ((setFld_keeps ?_ ..).after (setCore_keeps ..)) <;>
    simp only [calmKey, deviceKey, statusKey, Fd.key, pageBase, R.CORE_STATE.RA_ACTIVE, R.CORE_STATE.STATE] <;> omega

theorem coresOf_lt {s : State} {c n : Nat} (h : n ∈ s.coresOf c) : n < 512 := List.mem_range.mp (List.mem_filter.mp h).1

theorem nextCoreGen_keeps {K : Nat → Prop} (s : State) (n : Nat) : s.keeps K (s.nextCoreGen n) := .of_regs rfl rfl rfl

theorem resetCores_keeps (s : State) (c : Nat) : s.keeps calmKey (s.resetCores c) := by
  refine foldl_keeps_all (fun t n hn => ?_) s
  refine (setCore_keeps ..).after ((nextCoreGen_keeps ..).after ?_)
  split
  · exact stopCore_keeps t (coresOf_lt hn) _
  · exact .refl t

theorem abandonBarges_keeps (s : State) (c : Nat) : s.keeps calmKey (s.abandonBarges c) :=
  (foldl_keeps_all (fun t _ _ => setCore_keeps t _ _) _).after (setCtx_keeps s c _)

/-- The start of a context reset writes no settled register of the context pages' status. -/
theorem beginCtxReset_keeps (s : State) (c : Nat) : s.keeps settledKey (s.beginCtxReset c) := by
  have hcalm {t u : State} (h : t.keeps calmKey u) : t.keeps settledKey u := h.mono fun _ hk => hk.1
  have hrake (t : State) : t.keeps calmKey (if t.fld R.RAKE_CMD_RESULT.BUSY c = 1 then
      (t.put R.RAKE_CMD_RESULT.BUSY c 0).put R.RAKE_CMD_RESULT.RESULT c 6 else t) := by
    refine ite_keeps _ ((setFld_keeps ?_ ..).after (setFld_keeps ?_ ..)) (.refl t) <;>
      simp only [calmKey, deviceKey, statusKey, Fd.key, pageBase, R.RAKE_CMD_RESULT.BUSY, R.RAKE_CMD_RESULT.RESULT] <;> omega
  have hphase (t : State) : t.keeps calmKey (t.put R.STEP_STATUS.PHASE c 0) := by
    refine setFld_keeps ?_ ..
    simp only [calmKey, deviceKey, statusKey, Fd.key, pageBase, R.STEP_STATUS.PHASE]
    omega
  have hstate (t : State) : t.keeps settledKey (if t.fld R.CTX_STATUS.STATE c = ctxActive then
      t.put R.CTX_STATUS.STATE c ctxQuiescing else t) :=
    ite_keeps _ (setFld_keeps (fun h => h.2 c rfl) ..) (.refl t)
  have hbegun : s.keeps calmKey (((s.resetCores c).abandonBarges c).modCtx c Ctx.beginReset) :=
    (resetCores_keeps s c).trans ((abandonBarges_keeps ..).trans (modCtx_keeps ..))
  simp only [State.beginCtxReset]
  generalize ((s.resetCores c).abandonBarges c).modCtx c Ctx.beginReset = t at hbegun ⊢
  refine (hcalm (dutySync_keeps ..)).after ((hstate _).after (hcalm ((hrake _).after ((hphase _).after ?_))))
  exact hbegun.trans (.of_regs rfl rfl rfl)

/-- A context reset that is asked for leaves the settled registers (R411). -/
theorem requestReset_keeps (s : State) (c : Nat) : s.keeps settledKey (s.requestReset 4 c) := by
  simp only [State.requestReset]
  refine ite_keeps _ (.refl s) (ite_keeps _ (.refl s) (ite_keeps _ (.refl s) ?_))
  exact (beginCtxReset_keeps ..).from_eq rfl rfl rfl

theorem resetCores_ctxs (s : State) (c : Nat) : (s.resetCores c).ctxs = s.ctxs := by
  unfold State.resetCores
  generalize s.coresOf c = l
  refine foldl_keeps (p := State.ctxs) (fun t n => ?_) l s
  simp only [modCore_eq, setCore_ctxs, State.nextCoreGen]
  split <;> simp [State.stopCore]

theorem abandonBarges_disabling (s : State) (c : Nat) : ((s.abandonBarges c).ctx c).disabling = (s.ctx c).disabling := by
  simp only [State.abandonBarges]
  generalize State.coresOf _ c = l
  rw [State.ctx, foldl_keeps (p := State.ctxs), ← State.ctx, modCtx_eq, ctx_setCtx_self]
  exact fun _ _ => rfl

theorem beginCtxReset_disabling (s : State) (c : Nat) : ((s.beginCtxReset c).ctx c).disabling = (s.ctx c).disabling := by
  have hbegun : ((((s.resetCores c).abandonBarges c).modCtx c Ctx.beginReset).ctx c).disabling = (s.ctx c).disabling := by
    have hmark (x : Ctx) : x.beginReset.disabling = x.disabling := rfl
    rw [modCtx_eq, ctx_setCtx_self, hmark, abandonBarges_disabling, State.ctx, resetCores_ctxs, State.ctx]
  simp only [State.beginCtxReset]
  generalize ((s.resetCores c).abandonBarges c).modCtx c Ctx.beginReset = t at hbegun ⊢
  have hsync (u : State) : (u.dutySync c).ctx c = u.ctx c := rfl
  rw [hsync]
  split <;> split <;> exact hbegun

/-- A context reset leaves the mark of the DISABLE that asked for it. -/
theorem requestReset_disabling (s : State) (c : Nat) : ((s.requestReset 4 c).ctx c).disabling = (s.ctx c).disabling := by
  simp only [State.requestReset]
  split
  · rfl
  split
  · rfl
  split
  · rfl
  exact beginCtxReset_disabling ..

/-- Some core that would join the set is not IDLE. -/
theorem added_any (s : State) (c : Nat) : (((s.coresReq c).filter fun n => !s.inSet c n).any fun n =>
    decide (s.coreState n ≠ coreIdle)) = true ↔
      ∃ n : Fin 512, n.val ∈ s.coresReq c ∧ s.inSet c n = false ∧ s.coreState n ≠ coreIdle := by
  have hlt {n : Nat} (h : n ∈ s.coresReq c) : n < 512 := List.mem_range.mp (List.mem_filter.mp h).1
  simp only [List.any_eq_true, List.mem_filter, Bool.not_eq_true', decide_eq_true_eq]
  constructor
  · rintro ⟨n, ⟨hreq, hset⟩, hstate⟩
    exact ⟨⟨n, hlt hreq⟩, hreq, hset, hstate⟩
  · rintro ⟨n, hreq, hset, hstate⟩
    exact ⟨n, ⟨hreq, hset⟩, hstate⟩

section
variable (s : State) (req c : Nat)

theorem ctxCode_enable : s.ctxCode req c 1 = if s.on R.CTX_STATUS.BUSY c = true then 6 else if asLd0 req = false then 4
    else if ¬ (s.fld R.CTX_STATUS.STATE c = 0) ∨ (s.ctxInReset c = true ∨ s.ldInReset c = true) then 1
    else if s.ldEnabled c = false then 3
    else if (∃ n : Fin 512, n.val ∈ s.coresReq c ∧ s.inSet c n = false ∧ s.coreState n ≠ coreIdle) then 2 else 0 := by
  simp only [State.ctxCode, State.ctxRefusal, added_any]
  simp [ctxFrom, ctxDisabled, or_assoc]
  congr

theorem ctxCode_quiesce : s.ctxCode req c 2 = if s.on R.CTX_STATUS.BUSY c = true then 6
    else if ¬ (s.fld R.CTX_STATUS.STATE c = 1) ∨ (s.ctxInReset c = true ∨ s.ldInReset c = true) then 1 else 0 := by
  simp [State.ctxCode, State.ctxRefusal, ctxFrom, ctxActive, or_assoc]

theorem ctxCode_resume : s.ctxCode req c 3 = if s.on R.CTX_STATUS.BUSY c = true then 6
    else if ¬ (s.fld R.CTX_STATUS.STATE c = 2 ∨ s.fld R.CTX_STATUS.STATE c = 3) ∨
      (s.ctxInReset c = true ∨ s.ldInReset c = true) ∨ s.ended c = true then 1 else 0 := by
  simp [State.ctxCode, State.ctxRefusal, ctxFrom, ctxQuiescing, ctxQuiescedCode, or_assoc]

theorem ctxCode_disable : s.ctxCode req c 4 = if s.on R.CTX_STATUS.BUSY c = true then 6 else if asLd0 req = false then 4
    else if ¬ (s.fld R.CTX_STATUS.STATE c = 3) ∨ (s.ctxInReset c = true ∨ s.ldInReset c = true) then 1 else 0 := by
  simp [State.ctxCode, State.ctxRefusal, ctxFrom, ctxQuiescedCode, or_assoc]

theorem ctxCode_setCores : s.ctxCode req c 5 = if s.on R.CTX_STATUS.BUSY c = true then 6 else if asLd0 req = false then 4
    else if ¬ (s.fld R.CTX_STATUS.STATE c = 3) ∨ (s.ctxInReset c = true ∨ s.ldInReset c = true) then 1
    else if (∃ n : Fin 512, n.val ∈ s.coresReq c ∧ s.inSet c n = false ∧ s.coreState n ≠ coreIdle) then 2 else 0 := by
  simp only [State.ctxCode, State.ctxRefusal, added_any]
  simp [ctxFrom, ctxQuiescedCode, or_assoc]
  congr

end

/-! ### The commands that act (R417) -/

section
variable (s : State) (req : Nat) (c : Fin 16)

/-- The state in which a command acts: its code is written. -/
def State.cmdActs (s : State) (req c op : Nat) : State := (s.cmdSeen req c op).put R.CTX_CMD_RESULT.RESULT c 0

theorem cmdActs_code (op : Nat) : (s.cmdActs req c op).fld R.CTX_CMD_RESULT.RESULT c = 0 := fld_setFld_self ..

theorem cmdActs_fld {f : Fd} {i j : Nat} (h : 0x100 ≤ f.key i j / 64 % 0x1000)
    (hne : f.key i j ≠ R.CTX_CMD_RESULT.RESULT.key c 0) (op : Nat) : (s.cmdActs req c op).fld f i j = s.fld f i j :=
  (fld_setFld_ne (h := hne) ..).trans (cmdSeen_fld s req c op h)

theorem cmdActs_inSet {d n : Nat} (hn : n < 512) (op : Nat) : (s.cmdActs req c op).inSet d n = s.inSet d n := by
  rw [State.inSet, cmdActs_fld, State.inSet] <;>
    simp only [Fd.key, pageBase, R.CTX_CORES.BITS, R.CTX_CMD_RESULT.RESULT] <;> omega

theorem cmdActs_coresReq (op : Nat) : (s.cmdActs req c op).coresReq c = s.coresReq c := by
  refine List.filter_congr fun n hn => ?_
  have hn := List.mem_range.mp hn
  rw [cmdActs_fld] <;> simp only [Fd.key, pageBase, R.CTX_CORES_REQ.BITS, R.CTX_CMD_RESULT.RESULT] <;> omega

theorem cmdActs_ownerOf {n : Nat} (hn : n < 512) (op : Nat) : (s.cmdActs req c op).ownerOf n = s.ownerOf n :=
  ownerOf_congr fun _ _ => cmdActs_inSet s req c hn op

end

theorem coresReq_lt {s : State} {c n : Nat} (h : n ∈ s.coresReq c) : n < 512 := List.mem_range.mp (List.mem_filter.mp h).1

theorem status_calm (c : Fin 16) : calmKey (R.CTX_STATUS.STATE.key c 0) ∧ settledKey (R.CTX_STATUS.BUSY.key c 0) ∧
    settledKey (R.CTX_CMD_RESULT.RESULT.key c 0) := by
  refine ⟨?_, ⟨?_, fun d => ?_⟩, ⟨?_, fun d => ?_⟩⟩ <;>
    simp only [calmKey, deviceKey, statusKey, Fd.key, pageBase, R.CTX_STATUS.STATE, R.CTX_STATUS.BUSY,
      R.CTX_CMD_RESULT.RESULT] <;> omega

theorem result_ne_status (c : Fin 16) : R.CTX_CMD_RESULT.RESULT.key c 0 ≠ R.CTX_STATUS.STATE.key c 0 ∧
    R.CTX_CMD_RESULT.RESULT.key c 0 ≠ R.CTX_STATUS.BUSY.key c 0 := by
  simp only [Fd.key, pageBase, R.CTX_STATUS.STATE, R.CTX_STATUS.BUSY, R.CTX_CMD_RESULT.RESULT]
  omega

/-- ENABLE: the requested cores are READY in the set, and the context is ACTIVE. -/
theorem ctxAct_enable (s : State) (c : Fin 16) : (s.ctxAct c 1).fld R.CTX_CMD_RESULT.RESULT c = s.fld R.CTX_CMD_RESULT.RESULT c ∧
    (s.ctxAct c 1).fld R.CTX_STATUS.STATE c = 1 ∧
    ∀ n : Fin 512, n.val ∈ s.coresReq c → (s.ctxAct c 1).coreState n = coreReady ∧ (s.ctxAct c 1).inSet c n = true := by
  have hact : s.ctxAct c 1 = (s.joinAll c (s.coresReq c)).put R.CTX_STATUS.STATE c ctxActive := rfl
  have hkept : s.keeps calmKey (s.joinAll c (s.coresReq c)) := joinAll_keeps s c fun _ h => coresReq_lt h
  rw [hact, put_eq]
  refine ⟨?_, fld_setFld_self .., fun n hn => ⟨?_, ?_⟩⟩
  · rw [fld_setFld_ne (h := (result_ne_status c).1), hkept.fld (status_calm c).2.2.1]
  · rw [coreState_eq, fld_setFld_ne, ← coreState_eq]
    · exact joinAll_coreState (fun _ h => coresReq_lt h) s (.inl hn)
    · simp only [Fd.key, pageBase, R.CORE_STATE.STATE, R.CTX_STATUS.STATE]
      omega
  · rw [inSet_setFld_ne, joinAll_inSet n.isLt (fun _ h => coresReq_lt h), decide_eq_true hn, Bool.or_true]
    simp only [Fd.key, pageBase, R.CTX_CORES.BITS, R.CTX_STATUS.STATE]
    omega

/-- QUIESCE: the context is QUIESCING. -/
theorem ctxAct_quiesce (s : State) (c : Fin 16) :
    (s.ctxAct c 2).fld R.CTX_CMD_RESULT.RESULT c = s.fld R.CTX_CMD_RESULT.RESULT c ∧ (s.ctxAct c 2).fld R.CTX_STATUS.STATE c = 2 :=
  ⟨(fld_setFld_ne (h := (result_ne_status c).1) ..).trans ((endLaunches_keeps s c).fld (status_calm c).2.2.1), fld_setFld_self ..⟩

/-- RESUME: the context is ACTIVE, also where its next step is built at once. -/
theorem ctxAct_resume (s : State) (c : Fin 16) :
    (s.ctxAct c 3).fld R.CTX_CMD_RESULT.RESULT c = s.fld R.CTX_CMD_RESULT.RESULT c ∧ (s.ctxAct c 3).fld R.CTX_STATUS.STATE c = 1 := by
  have hkept : (s.put R.CTX_STATUS.STATE c ctxActive).keeps calmKey (s.ctxAct c 3) := nextStep_keeps ..
  exact ⟨(hkept.fld (status_calm c).2.2.1).trans (fld_setFld_ne (h := (result_ne_status c).1) ..),
    (hkept.fld (status_calm c).1).trans (fld_setFld_self ..)⟩

/-- DISABLE: the context is being disabled, and its commands wait. -/
theorem ctxAct_disable (s : State) (c : Fin 16) :
    (s.ctxAct c 4).fld R.CTX_CMD_RESULT.RESULT c = s.fld R.CTX_CMD_RESULT.RESULT c ∧ ((s.ctxAct c 4).ctx c).disabling = true ∧
      (s.ctxAct c 4).on R.CTX_STATUS.BUSY c = true := by
  have hkept : ((s.put R.CTX_STATUS.BUSY c 1).modCtx c fun x => { x with disabling := true }).keeps settledKey (s.ctxAct c 4) :=
    requestReset_keeps ..
  refine ⟨(hkept.fld (status_calm c).2.2).trans (fld_setFld_ne (h := (result_ne_status c).2) ..), ?_, ?_⟩
  · refine (requestReset_disabling ..).trans ?_
    rw [modCtx_eq, ctx_setCtx_self]
  · have hbusy : (s.ctxAct c 4).fld R.CTX_STATUS.BUSY c = 1 := (hkept.fld (status_calm c).2.1).trans (fld_setFld_self ..)
    rw [on_eq, hbusy]
    rfl

/-- SET_CORES: the state stays, the requested cores are in the set, and the others that were the context's are not. -/
theorem ctxAct_setCores (s : State) (c : Fin 16) :
    (s.ctxAct c 5).fld R.CTX_CMD_RESULT.RESULT c = s.fld R.CTX_CMD_RESULT.RESULT c ∧
      (s.ctxAct c 5).fld R.CTX_STATUS.STATE c = s.fld R.CTX_STATUS.STATE c ∧
      ∀ n : Fin 512, (n.val ∈ s.coresReq c → (s.ctxAct c 5).inSet c n = true) ∧
        (n.val ∉ s.coresReq c → (s.ownerOf n = some c.val ∨ s.inSet c n = false) → (s.ctxAct c 5).inSet c n = false) := by
  have hact : s.ctxAct c 5 = State.joinAll (((s.coresOf c).filter fun n => !(s.coresReq c).contains n).foldl State.partSet s) c
      ((s.coresReq c).filter fun n => !s.inSet c n) := rfl
  have hpart : ∀ n ∈ (s.coresOf c).filter fun n => !(s.coresReq c).contains n, n < 512 :=
    fun n hn => coresOf_lt (List.mem_filter.mp hn).1
  have hjoin : ∀ n ∈ (s.coresReq c).filter fun n => !s.inSet c n, n < 512 := fun n hn => coresReq_lt (List.mem_filter.mp hn).1
  have hmemPart (n : Nat) : n ∈ ((s.coresOf c).filter fun n => !(s.coresReq c).contains n) ↔
      n ∈ s.coresOf c ∧ n ∉ s.coresReq c := by simp
  have hmemJoin (n : Nat) : n ∈ ((s.coresReq c).filter fun n => !s.inSet c n) ↔ n ∈ s.coresReq c ∧ s.inSet c n = false := by simp
  have hmemOf (n : Fin 512) : n.val ∈ s.coresOf c ↔ s.inSet c n = true := by simp [State.coresOf]
  rw [hact]
  generalize (s.coresOf c).filter (fun n => !(s.coresReq c).contains n) = parted at hpart hmemPart
  generalize (s.coresReq c).filter (fun n => !s.inSet c n) = joined at hjoin hmemJoin
  have hkept := (partAll_keeps s hpart).trans (joinAll_keeps (parted.foldl State.partSet s) c hjoin)
  refine ⟨hkept.fld (status_calm c).2.2.1, hkept.fld (status_calm c).1, fun n => ⟨fun hreq => ?_, fun hreq hout => ?_⟩⟩
  · rw [joinAll_inSet n.isLt hjoin, partAll_inSet_of_notMem n.isLt hpart (fun h => ((hmemPart n).mp h).2 hreq)]
    cases hset : s.inSet c n
    · simp [(hmemJoin n).mpr ⟨hreq, hset⟩]
    · rfl
  · have hnew : n.val ∉ joined := fun h => hreq ((hmemJoin n).mp h).1
    rw [joinAll_inSet n.isLt hjoin, decide_eq_false hnew, Bool.or_false]
    obtain howner | hset := hout
    · by_cases hset : s.inSet c n = true
      · exact partAll_inSet_of_mem n.isLt hpart ((hmemPart n).mpr ⟨(hmemOf n).mpr hset, hreq⟩) s howner
      · exact partAll_inSet_false n.isLt hpart s (Bool.eq_false_iff.mpr hset)
    · exact partAll_inSet_false n.isLt hpart s hset

/-- Settles O44: a command that is refused ends with the first refusal, and one that acts reaches the state of R417. -/
theorem contextCommandResults : Obligations.ContextCommandResults := by
  intro s
  refine ⟨?enable, ?quiesce, ?resume, ?disable, ?setCores⟩
  case enable =>
    intro req c htakes hbist
    rw [← ctxCode_enable]
    refine ctxCommand rfl htakes hbist (by decide) fun _ => ?_
    obtain ⟨hcode, hstate, hcores⟩ := ctxAct_enable (s.cmdActs req c 1) c
    rw [cmdActs_coresReq] at hcores
    exact ⟨hcode.trans (cmdActs_code ..), hstate, hcores⟩
  case quiesce =>
    intro req c htakes hbist
    rw [← ctxCode_quiesce s req]
    refine ctxCommand rfl htakes hbist (by decide) fun _ => ?_
    obtain ⟨hcode, hstate⟩ := ctxAct_quiesce (s.cmdActs req c 2) c
    exact ⟨hcode.trans (cmdActs_code ..), hstate⟩
  case resume =>
    intro req c htakes hbist
    rw [← ctxCode_resume s req]
    refine ctxCommand rfl htakes hbist (by decide) fun _ => ?_
    obtain ⟨hcode, hstate⟩ := ctxAct_resume (s.cmdActs req c 3) c
    exact ⟨hcode.trans (cmdActs_code ..), hstate⟩
  case disable =>
    intro req c htakes hbist
    rw [← ctxCode_disable]
    refine ctxCommand rfl htakes hbist (by decide) fun _ => ?_
    obtain ⟨hcode, hmark, hbusy⟩ := ctxAct_disable (s.cmdActs req c 4) c
    exact ⟨hcode.trans (cmdActs_code ..), .inl ⟨hmark, hbusy⟩⟩
  case setCores =>
    intro req c htakes hbist
    rw [← ctxCode_setCores]
    refine ctxCommand rfl htakes hbist (by decide) fun hacts => ?_
    obtain ⟨hcode, hstate, hcores⟩ := ctxAct_setCores (s.cmdActs req c 5) c
    have hquiesced : s.fld R.CTX_STATUS.STATE c = 3 := by
      rw [ctxCode_setCores] at hacts
      refine Decidable.byContradiction fun hne => ?_
      rw [if_pos (c := ¬ s.fld R.CTX_STATUS.STATE c = 3 ∨ s.ctxInReset c = true ∨ s.ldInReset c = true) (.inl hne)] at hacts
      split at hacts
      · exact absurd hacts (by decide)
      · split at hacts <;> exact absurd hacts (by decide)
    rw [cmdActs_coresReq] at hcores
    refine ⟨hcode.trans (cmdActs_code ..), hstate.trans ((cmdActs_fld s req c ?_ ?_ 5).trans hquiesced), fun n => ?_⟩
    · simp only [Fd.key, pageBase, R.CTX_STATUS.STATE]
      omega
    · exact (result_ne_status c).1.symm
    · have hn := hcores n
      rwa [cmdActs_ownerOf s req c n.isLt, cmdActs_inSet s req c n.isLt] at hn

end Sys2Proof.Machine
end
section
/-! PROOF. What the end of a self-test's items and runs leaves: the power state, the Weir, and the registers of the
power, thermal and Weir pages. -/
namespace Sys2Proof.Machine

/-- Keys of the registers above the header of the WEIR, PWR and THERM pages. -/
def powerKey (k : Nat) : Prop := 0x8000 * 64 ≤ k ∧ k < 0xB000 * 64 ∧ 0x100 ≤ k / 64 % 0x1000

/-- The power keys, and the key of `BIST_STATUS.BUSY`. -/
def runKey (k : Nat) : Prop := powerKey k ∨ k = R.BIST_STATUS.BUSY.key 0 0

theorem deviceKey_of_powerKey {k : Nat} (h : powerKey k) : deviceKey k := by
  simp only [powerKey, deviceKey] at *
  omega

theorem calmKey_of_runKey {k : Nat} (h : runKey k) : calmKey k := by
  simp only [runKey, powerKey, calmKey, deviceKey, Fd.key, pageBase, R.BIST_STATUS.BUSY] at *
  omega

theorem State.keeps.run {s t : State} (h : s.keeps calmKey t) : s.keeps runKey t := h.mono fun _ hk => calmKey_of_runKey hk

theorem State.keeps.device {s t : State} (h : s.keeps calmKey t) : s.keeps deviceKey t := h.mono fun _ hk => .inl hk

theorem State.keeps.powerRegs {s t : State} (h : s.keeps deviceKey t) : s.keeps powerKey t :=
  h.mono fun _ hk => deviceKey_of_powerKey hk

/-! ### Links -/

theorem setLinkLayer_keeps {K : Nat → Prop} (s : State) (k : Nat) (l : LinkLayer) : s.keeps K (s.setLinkLayer k l) :=
  .of_regs rfl rfl rfl

theorem releasePins_keeps {K : Nat → Prop} (s : State) (k : Nat) : s.keeps K (s.releasePins k) := .of_regs rfl rfl rfl

theorem setLink_keeps (s : State) (k v : Nat) : s.keeps calmKey (s.setLink k v) := by
  refine setFld_keeps ?_ ..
  simp only [calmKey, deviceKey, statusKey, Fd.key, pageBase, R.LINK_STATE.STATE]
  omega

theorem trainLink_keeps (s : State) (k : Nat) : s.keeps calmKey (s.trainLink k) := by
  unfold State.trainLink
  refine ite_keeps _ ((setLinkLayer_keeps ..).after ((setFld_keeps ?_ ..).after (setLink_keeps ..))) (.refl s)
  simp only [calmKey, deviceKey, statusKey, Fd.key, pageBase, R.LINK_STATE.LIGHT]
  omega

theorem linkDown_keeps (s : State) (k cause : Nat) : s.keeps calmKey (s.linkDown k cause) := by
  simp only [State.linkDown]
  refine ite_keeps _ ((foldl_keeps_all (fun t p _ => forward_keeps t p) _).after ?_) (.refl s)
  have hheld (t : State) (b : Prop) [Decidable b] :
      t.keeps calmKey (if b then (t.setLink k 5).raise (linkUnit k) none 0x2403 (w4 [k]) else t) :=
    ite_keeps _ ((raise_keeps (by decide) ..).after (setLink_keeps ..)) (.refl t)
  refine (hheld _ _).after ((raise_keeps (by decide) ..).after ((setFld_keeps ?_ ..).after ((setLinkLayer_keeps ..).after
    ((releasePins_keeps ..).after ((setFld_keeps ?_ ..).after (setLink_keeps ..)))))) <;>
    simp only [calmKey, deviceKey, statusKey, Fd.key, pageBase, R.LINK_DOWNS.COUNT, R.LINK_STATE.DOWN_CAUSE] <;> omega

/-- A link that goes DOWN leaves the calm registers (R339-R341). -/
theorem linkLost_keeps (s : State) (k cause : Nat) : s.keeps calmKey (s.linkLost k cause) :=
  (linkDown_keeps ..).after (ite_keeps _ (emit_keeps ..) (.refl s))

/-! ### The context commands that a run held (R495) -/

theorem ctxAct_keeps (s : State) (c op : Nat) : s.keeps deviceKey (s.ctxAct c op) := by
  have hput {f : Fd} (hf : f.page = .ctx) (hplace : f.off * 64 + f.lo < 0x1000 * 64) (t : State) (v : Nat) :
      t.keeps deviceKey (t.put f c v) := by
    refine setFld_keeps ?_ ..
    simp only [deviceKey, Fd.key, hf, pageBase]
    omega
  have hreq : ∀ n ∈ s.coresReq c, n < 512 := fun n hn => coresReq_lt hn
  unfold State.ctxAct
  split
  case h_1 => exact (joinAll_keeps s c hreq).device.trans (hput rfl (by decide) ..)
  case h_2 => exact (endLaunches_keeps s c).device.trans (hput rfl (by decide) ..)
  case h_3 => exact (hput rfl (by decide) ..).trans (nextStep_keeps ..).device
  case h_4 =>
    refine (hput rfl (by decide) s _).trans ((modCtx_keeps ..).trans ((requestReset_keeps ..).mono ?_))
    refine fun k hk => ⟨.inl hk, fun d heq => ?_⟩
    simp only [heq, deviceKey, Fd.key, pageBase, R.CTX_STATUS.STATE] at hk
    omega
  case h_5 =>
    have hpart := partAll_keeps s (l := (s.coresOf c).filter fun n => !(s.coresReq c).contains n)
      fun n hn => coresOf_lt (List.mem_filter.mp hn).1
    have hjoin (t : State) := joinAll_keeps t c (l := (s.coresReq c).filter fun n => !s.inSet c n)
      fun n hn => hreq n (List.mem_filter.mp hn).1
    exact (hpart.trans (hjoin _)).device

/-- A context command leaves the power state, the Weir, and the registers of the pages from WEIR to LOOP. -/
theorem ctxDo_keeps (s : State) (req c op : Nat) : s.keeps deviceKey (s.ctxDo req c op) := by
  have hresult (v : Nat) : s.keeps deviceKey (s.put R.CTX_CMD_RESULT.RESULT c v) := by
    refine setFld_keeps ?_ ..
    simp only [deviceKey, Fd.key, pageBase, R.CTX_CMD_RESULT.RESULT]
    omega
  simp only [State.ctxDo]
  exact ite_keeps _ ((hresult 0).trans (ctxAct_keeps ..)) (hresult _)

/-- The commands that a run held act; with no power target held, nothing of the power state changes (R495). -/
theorem bistRelease_keeps {s : State} (h : s.power.heldTarget = none) : s.keeps deviceKey s.bistRelease := by
  have hcmds (l : List (Nat × Nat × Nat)) (t : State) : t.keeps deviceKey (l.foldl (fun (t : State) (q : Nat × Nat × Nat) =>
      (t.put R.CTX_STATUS.BUSY q.2.1 0).ctxDo q.1 q.2.1 q.2.2) t) := by
    refine foldl_keeps_all (fun t q _ => (ctxDo_keeps ..).after (setFld_keeps ?_ ..)) t
    simp only [deviceKey, Fd.key, pageBase, R.CTX_STATUS.BUSY]
    omega
  have hfold := (hcmds s.bist.heldCmds { s with bist := { s.bist with heldCmds := [] } }).from_eq (s := s) rfl rfl rfl
  have hnone (t : State) (ht : t.power.heldTarget = none) : t.heldTarget = t := by rw [State.heldTarget, ht]
  simp only [State.bistRelease]
  rw [hnone _ (by rw [hfold.power, h])]
  exact hfold

/-! ### The items and the end of a run -/

theorem not_runKey {f : Fd} {i j : Nat} (h : 0xB000 * 64 ≤ f.key i j) (hbusy : f.key i j ≠ R.BIST_STATUS.BUSY.key 0 0) :
    ¬ runKey (f.key i j) := by
  simp only [runKey, powerKey]
  omega

theorem clearScr_keeps {K : Nat → Prop} (s : State) (n : Nat) : s.keeps K (s.clearScr n) := setCore_keeps ..

theorem bistLeave_keeps (s : State) (it : BistItem) : s.keeps calmKey (s.bistLeave it) := by
  simp only [State.bistLeave]
  exact ite_keeps _ (foldl_keeps_all (fun t n _ => clearScr_keeps t _) s) (ite_keeps _
    ((ite_keeps _ (.refl _) (trainLink_keeps ..)).after (setLink_keeps ..)) (.refl s))

theorem bistUnrun_keeps (s : State) (it : BistItem) : s.keeps runKey (s.bistUnrun it) :=
  (bistLeave_keeps ..).run.after ((setFld_keeps (not_runKey (by decide) (by decide)) ..).from_eq rfl rfl rfl)

theorem bistRecord_keeps (s : State) (it : BistItem) (result cause mask sig stored : Nat) :
    s.keeps runKey (s.bistRecord it result cause mask sig stored) := by
  have hcount {f : Fd} (h : 0xB000 * 64 ≤ f.key 0 0) (hbusy : f.key 0 0 ≠ R.BIST_STATUS.BUSY.key 0 0) (t : State) :
      t.keeps runKey (t.bump f 0) := setFld_keeps (not_runKey h hbusy) ..
  simp only [State.bistRecord]
  refine State.keeps.trans (t := (s.emit _).bump R.BIST_STATUS.DONE 0)
    ((hcount (by decide) (by decide) _).after (emit_keeps ..)) (ite_keeps _ ?_ (.refl _))
  exact (raise_keeps (by decide) ..).run.after ((hcount (by decide) (by decide) _).after (hcount (by decide) (by decide) _))

/-- An item that is stopped for the cap leaves the power state, the Weir and BUSY (R497). -/
theorem bistYield_keeps (s : State) (it : BistItem) : s.keeps runKey (s.bistYield it) := by
  simp only [State.bistYield, State.bistAbortItem]
  exact ite_keeps _ ((bistRecord_keeps ..).after (bistUnrun_keeps ..)) ((bistUnrun_keeps s it).trans (.of_regs rfl rfl rfl))

theorem bistStop_keeps (s : State) : s.keeps powerKey s.bistStop := by
  refine State.keeps.trans (t := ((s.put R.BIST_STATUS.BUSY 0 0).put R.BIST_STATUS.RUNNING 0 0).bump R.BIST_RUNS.COUNT 0)
    ((setFld_keeps ?_ ..).after ((setFld_keeps ?_ ..).after (setFld_keeps ?_ ..))) (.of_regs rfl rfl rfl) <;>
    simp only [powerKey, Fd.key, pageBase, R.BIST_STATUS.BUSY, R.BIST_STATUS.RUNNING, R.BIST_RUNS.COUNT] <;> omega

theorem bistClear_keeps (s : State) : s.keeps calmKey s.bistClear :=
  (foldl_keeps_all (fun t k _ => (trainLink_keeps ..).after (linkLost_keeps t k 7)) _).from_eq rfl rfl rfl

/-- A run that ends with no power target held leaves the power state, the Weir and the power registers. -/
theorem bistOver_keeps {s : State} (h : s.on R.BIST_STATUS.BUSY = false ∨ s.power.heldTarget = none) :
    s.keeps powerKey s.bistOver := by
  simp only [State.bistOver]
  split
  case isFalse => exact .refl s
  case isTrue hover =>
    have hheld : s.power.heldTarget = none := by
      refine h.resolve_left fun hidle => ?_
      rw [hidle] at hover
      simp at hover
    have hended : s.keeps powerKey ((if s.bist.full then s.bistClear else s).bistStop.raise bistUnit none 0x0721
        (w4 [(if s.bist.full then s.bistClear else s).fld R.BIST_STATUS.DONE,
          (if s.bist.full then s.bistClear else s).fld R.BIST_STATUS.FAILED])) :=
      (raise_keeps (by decide) ..).device.powerRegs.after ((bistStop_keeps _).after
        (ite_keeps _ (bistClear_keeps s).device.powerRegs (.refl s)))
    exact hended.trans (bistRelease_keeps (by rw [hended.power, hheld])).powerRegs

/-- What keeps BUSY and the power state keeps that no power target is held behind a run. -/
theorem State.keeps.noneHeld {K : Nat → Prop} {s t : State} (hk : s.keeps K t) (hbusy : K (R.BIST_STATUS.BUSY.key 0 0))
    (h : s.on R.BIST_STATUS.BUSY = false ∨ s.power.heldTarget = none) :
    t.on R.BIST_STATUS.BUSY = false ∨ t.power.heldTarget = none := by
  rwa [State.on, hk.fld (f := R.BIST_STATUS.BUSY) hbusy, hk.power]

/-- The end of a tick's items, with no power target held behind a run (R497). -/
theorem bistCap_keeps {s : State} (h : s.on R.BIST_STATUS.BUSY = false ∨ s.power.heldTarget = none) :
    s.keeps powerKey s.bistCap := by
  have hyield := foldl_keeps_all (fun t it _ => bistYield_keeps t it) (K := runKey)
    (l := bistOver' (limScaled s.weir.lim) s.loopPower s.bist.running) s
  exact (hyield.mono fun _ hk => .inl hk).trans (bistOver_keeps (hyield.noneHeld (.inr rfl) h))

/-- A thermal trip ends a run; with no power target held the power state stays (R495). -/
theorem bistTrip_keeps {s : State} (h : s.on R.BIST_STATUS.BUSY = false ∨ s.power.heldTarget = none) :
    s.keeps powerKey s.bistTrip := by
  unfold State.bistTrip
  split
  case isFalse => exact .refl s
  case isTrue hbusy =>
    have hheld : s.power.heldTarget = none := h.resolve_left (by rw [hbusy]; decide)
    exact (bistStop_keeps s).trans (bistRelease_keeps (by rw [(bistStop_keeps s).power, hheld])).powerRegs

end Sys2Proof.Machine
end
section
/-! PROOF. The Weir's control tick: the limit and the estimate that it sets stay to its end (R435, R436). -/
namespace Sys2Proof.Machine

/-- What a tick sets of the limit and the estimate, and what the end of its self-test items depends on. -/
def State.tickView (s : State) : Nat × Nat × Power × Nat := (s.weir.lim, s.weir.pest, s.power, s.fld R.BIST_STATUS.BUSY)

theorem State.keeps.tickView {s t : State} (h : s.keeps calmKey t) : t.tickView = s.tickView := by
  simp only [State.tickView, h.weir, h.power, h.run.fld (f := R.BIST_STATUS.BUSY) (.inr rfl)]

theorem setFld_tickView {f : Fd} {i j : Nat} (h : f.key i j ≠ R.BIST_STATUS.BUSY.key 0 0) (s : State) (v : Nat) :
    (s.setFld f i j v).tickView = s.tickView := by
  rw [State.tickView, fld_setFld_ne (h := h.symm)]
  rfl

/-- A view that both branches leave as it was. -/
theorem view_ite {β : Type} {p : State → β} {v : β} {t u : State} (b : Prop) [Decidable b] (ht : p t = v) (hu : p u = v) :
    p (if b then t else u) = v := by
  split
  · exact ht
  · exact hu

theorem foldl_tickView {α : Type} {f : State → α → State} {l : List α}
    (h : ∀ s, ∀ a ∈ l, (f s a).tickView = s.tickView) (s : State) : (l.foldl f s).tickView = s.tickView :=
  List.foldlRecOn (motive := fun t => t.tickView = s.tickView) l f rfl fun t ht a ha => (h t a ha).trans ht

theorem tickDie_tickView {d : Nat} (hd : d < 8) (s : State) (p m l alertL i : Nat) (boost : Bool) :
    (s.tickDie p m l alertL i d boost).tickView = s.tickView := by
  have hweir (t : State) (a : Table Nat) : State.tickView { t with weir := { t.weir with alert := a } } = t.tickView := rfl
  simp only [State.tickDie]
  refine (hweir ..).trans ((setFld_tickView ?_ ..).trans (setFld_tickView ?_ ..)) <;>
    simp only [Fd.key, pageBase, R.WEIR_DIE.N, R.WEIR_DIE.I, R.BIST_STATUS.BUSY] <;> omega

theorem countFloor_tickView (s : State) (on : Bool) (l p : Nat) : (s.countFloor on l p).tickView = s.tickView := by
  have hset : ((s.put R.WEIR_STATUS.FLOOR 0 (b2n on)).put R.PWR_STATUS.FLOOR 0 (b2n on)).tickView = s.tickView :=
    (setFld_tickView (by decide) ..).trans (setFld_tickView (by decide) ..)
  have hticks (t : State) (n : Nat) : State.tickView { t with weir := { t.weir with floorTicks := n } } = t.tickView := rfl
  have htold (t : State) : (t.raiseOnce (toldKey 0x1601 0) (100 * msTicks) pwrUnit none 0x1601 (w4 [l, p])).tickView =
      t.tickView := (raiseOnce_keeps (by decide) ..).tickView
  have hcounted (n : Nat) := (hticks _ n).trans ((htold _).trans hset)
  simp only [State.countFloor]
  exact view_ite (p := State.tickView) _ hset
    (view_ite (p := State.tickView) _ ((setFld_tickView (by decide) ..).trans (hcounted _)) (hcounted _))

theorem tickReport_tickView (s : State) (pe p l governs : Nat) : (s.tickReport pe p l governs).tickView = s.tickView := by
  simp only [State.tickReport]
  exact (countFloor_tickView ..).trans ((setFld_tickView (by decide) ..).trans ((setFld_tickView (by decide) ..).trans
    (setFld_tickView (by decide) ..)))

theorem checkBoost_tickView (s : State) : s.checkBoost.tickView = s.tickView := setFld_tickView (by decide) ..

theorem tickTimes_tickView (s : State) : s.tickTimes.tickView = s.tickView := by
  simp only [State.tickTimes]
  refine view_ite (p := State.tickView) _ (foldl_tickView (fun t r hr => setFld_tickView ?_ ..) s) rfl
  have hlt : r < 5 := List.mem_range.mp (List.mem_filter.mp hr).1
  simp only [Fd.key, pageBase, R.PWR_THR_TIME.COUNT, R.BIST_STATUS.BUSY]
  omega

/-- A tick takes the next limit and the estimate it is given. -/
theorem weirTick_tickView (s : State) (pest matrix : Nat) (issued : List Nat) :
    (s.weirTick pest matrix issued).tickView = (s.nextLimit.1, pest, s.power, s.fld R.BIST_STATUS.BUSY) := by
  simp only [State.weirTick]
  refine (tickTimes_tickView _).trans ((setFld_tickView (by decide) ..).trans ((checkBoost_tickView _).trans
    ((tickReport_tickView ..).trans ((foldl_tickView (fun t d hd => tickDie_tickView (List.mem_range.mp hd) ..) _).trans ?_))))
  exact view_ite (p := State.tickView) _ (setFld_tickView (by decide) ..) rfl

/-- A tick with no power target held behind a self-test ends with the limit and the estimate it took (R497). -/
theorem weirTick_bistCap (s : State) (pest matrix : Nat) (issued : List Nat)
    (h : s.on R.BIST_STATUS.BUSY = false ∨ s.power.heldTarget = none) :
    (s.weirTick pest matrix issued).bistCap.weir.lim = s.nextLimit.1 ∧
      (s.weirTick pest matrix issued).bistCap.weir.pest = pest := by
  have hview := weirTick_tickView s pest matrix issued
  simp only [State.tickView, Prod.mk.injEq] at hview
  obtain ⟨hlim, hpest, hpower, hbusy⟩ := hview
  have hkept := bistCap_keeps (s := s.weirTick pest matrix issued) (by rwa [State.on, hbusy, hpower])
  rw [hkept.weir]
  exact ⟨hlim, hpest⟩

end Sys2Proof.Machine
end
section
/-! PROOF. The temperature sample: the coolant's readings and the trip latch (R443, R445). -/
namespace Sys2Proof.Machine

/-- Keys of the coolant's readings and of `BIST_STATUS.BUSY`. -/
def coolKey (k : Nat) : Prop :=
  k = R.THERM_COOLANT.INLET.key 0 0 ∨ k = R.THERM_COOLANT.OUTLET.key 0 0 ∨ k = R.BIST_STATUS.BUSY.key 0 0

/-- Keys of the coolant's readings, of the trip latch and of `BIST_STATUS.BUSY`. -/
def heatKey (k : Nat) : Prop := coolKey k ∨ k = R.THERM_STATUS.TRIP.key 0 0

/-- Keys of the coolant's readings and of the trip latch. -/
def trippedKey (k : Nat) : Prop := heatKey k ∧ powerKey k

theorem calmKey_of_heatKey {k : Nat} (h : heatKey k) : calmKey k := by
  simp only [heatKey, coolKey, calmKey, deviceKey, Fd.key, pageBase, R.THERM_COOLANT.INLET, R.THERM_COOLANT.OUTLET,
    R.BIST_STATUS.BUSY, R.THERM_STATUS.TRIP] at *
  omega

theorem State.keeps.heat {s t : State} (h : s.keeps calmKey t) : s.keeps heatKey t := h.mono fun _ hk => calmKey_of_heatKey hk

theorem not_heatKey_of_lt {k : Nat} (h : k < 0xA000 * 64) : ¬ heatKey k := by
  simp only [heatKey, coolKey, Fd.key, pageBase, R.THERM_COOLANT.INLET, R.THERM_COOLANT.OUTLET, R.BIST_STATUS.BUSY,
    R.THERM_STATUS.TRIP]
  omega

/-! ### The readings -/

/-- A register of the tables of readings is none of those. -/
theorem not_heatKey_of_table {k : Nat} (h : 0xA200 * 64 ≤ k) (hlt : k < 0xB000 * 64) : ¬ heatKey k := by
  simp only [heatKey, coolKey, Fd.key, pageBase, R.THERM_COOLANT.INLET, R.THERM_COOLANT.OUTLET, R.BIST_STATUS.BUSY,
    R.THERM_STATUS.TRIP]
  omega

theorem heatPeak_keeps {hot peak : Fd} {i : Nat} (hhot : ¬ heatKey (hot.key 0 i)) (hpeak : ¬ heatKey (peak.key 0 i))
    (s : State) (t : Int) : s.keeps heatKey (s.heatPeak hot peak i t) := by
  simp only [State.heatPeak]
  exact (ite_keeps _ (setFld_keeps hpeak ..) (.refl _)).after (setFld_keeps hhot s _)

/-- The readings of the dies, the I/O dies, the stacks and the optical engines, as a sample takes them. -/
def State.readTables (s : State) (on : Bool) (dies iods hbms oes : List Int) : State :=
  let s := (List.range 8).foldl (fun s d => s.heatPeak R.THERM_DIE.HOT R.THERM_DIE.PEAK d (dies[d]?.getD 0)) s
  let s := (List.range 2).foldl (fun s d => s.heatPeak R.THERM_IOD.HOT R.THERM_IOD.PEAK d (iods[d]?.getD 0)) s
  let s := (List.range 32).foldl (fun s i => s.setFld R.THERM_HBM.TEMP 0 i (if on then twos 12 (hbms[i]?.getD 0) else 0)) s
  (List.range 16).foldl (fun s i => s.setFld R.THERM_OE.TEMP 0 i (if on then twos 12 (oes[i]?.getD 0) else 0)) s

theorem readTables_keeps (s : State) (on : Bool) (dies iods hbms oes : List Int) :
    s.keeps heatKey (s.readTables on dies iods hbms oes) := by
  have hlt {n i : Nat} (hi : i ∈ List.range n) : i < n := List.mem_range.mp hi
  simp only [State.readTables]
  refine (foldl_keeps_all (fun t i hi => heatPeak_keeps ?_ ?_ ..) s).trans ((foldl_keeps_all (fun t i hi =>
    heatPeak_keeps ?_ ?_ ..) _).trans ((foldl_keeps_all (fun t i hi => setFld_keeps ?_ ..) _).trans
      (foldl_keeps_all (fun t i hi => setFld_keeps ?_ ..) _))) <;>
    have hi := hlt hi <;>
    apply not_heatKey_of_table <;>
    simp only [Fd.key, pageBase, R.THERM_DIE.HOT, R.THERM_DIE.PEAK, R.THERM_IOD.HOT, R.THERM_IOD.PEAK, R.THERM_HBM.TEMP,
      R.THERM_OE.TEMP] <;> omega

/-- The state with the tables and the coolant's readings taken. -/
def State.readCoolant (s : State) (dies iods hbms oes : List Int) (inlet outlet : Int) : State :=
  ((s.readTables s.mainRuns dies iods hbms oes).put R.THERM_COOLANT.INLET 0 (twos 12 inlet)).put R.THERM_COOLANT.OUTLET 0
    (twos 12 outlet)

/-- The state with every reading taken, and whether the dies read below 95 degrees. -/
def State.readAll (s : State) (dies iods hbms oes : List Int) (inlet outlet : Int) : State :=
  let s := s.readCoolant dies iods hbms oes inlet outlet
  { s with board := { s.board with sensorsBelow95 := (dies ++ iods).all fun t => decide (t < 760) } }

theorem twos_mod (w : Nat) (v : Int) : twos w v % 2 ^ w = twos w v := by
  have hpos : (0 : Int) < (2 ^ w : Nat) := by exact_mod_cast Nat.two_pow_pos w
  have hlt := Int.emod_lt_of_pos v hpos
  refine Nat.mod_eq_of_lt ?_
  unfold twos
  omega

section
variable (s : State) (dies iods hbms oes : List Int) (inlet outlet : Int)

theorem readAll_keeps {K : Nat → Prop} : (s.readCoolant dies iods hbms oes inlet outlet).keeps K
    (s.readAll dies iods hbms oes inlet outlet) := by
  unfold State.readAll
  generalize s.readCoolant dies iods hbms oes inlet outlet = t
  exact .of_regs rfl rfl rfl

theorem readAll_outlet : (s.readAll dies iods hbms oes inlet outlet).fld R.THERM_COOLANT.OUTLET = twos 12 outlet := by
  rw [(readAll_keeps (K := heatKey) ..).fld (.inl (.inr (.inl rfl))), State.readCoolant, put_eq, fld_setFld_self]
  exact twos_mod 12 outlet

theorem readAll_inlet : (s.readAll dies iods hbms oes inlet outlet).fld R.THERM_COOLANT.INLET = twos 12 inlet := by
  rw [(readAll_keeps (K := heatKey) ..).fld (.inl (.inl rfl)), State.readCoolant, put_eq, fld_setFld_ne (h := by decide),
    put_eq, fld_setFld_self]
  exact twos_mod 12 inlet

/-- The readings leave the trip latch, and what the end of a run depends on. -/
theorem readAll_keeps_rest : s.keeps (fun k => k = R.THERM_STATUS.TRIP.key 0 0 ∨ k = R.BIST_STATUS.BUSY.key 0 0)
    (s.readAll dies iods hbms oes inlet outlet) := by
  have htables := (readTables_keeps s s.mainRuns dies iods hbms oes).mono
    (K' := fun k => k = R.THERM_STATUS.TRIP.key 0 0 ∨ k = R.BIST_STATUS.BUSY.key 0 0)
    fun k hk => hk.elim .inr fun hbusy => .inl (.inr (.inr hbusy))
  exact (readAll_keeps ..).after ((setFld_keeps (by decide) ..).after ((setFld_keeps (by decide) ..).after htables))

end

/-! ### What follows the readings -/

theorem tripStart_keeps {K : Nat → Prop} (s : State) : s.keeps K s.tripRelease.tryStart := by
  have hrelease : s.keeps K s.tripRelease := ite_keeps _ (.of_regs rfl rfl rfl) (.refl s)
  have hstart (t : State) : t.keeps K t.tryStart := ite_keeps _ (.of_regs rfl rfl rfl)
    (ite_keeps _ (.of_regs rfl rfl rfl) (.refl t))
  exact hrelease.trans (hstart _)

/-- The coolant's conditions end, and NT of each die follows its readings (R443, R444). -/
def State.coolAndThrottle (s : State) (dies iods hbms : List Int) (inlet outlet : Int) : State :=
  let s := if inlet ≤ 8 * (s.fld R.THERM_CFG.INLET_MAX : Int) then s.put R.THERM_STATUS.INLET_HIGH 0 0 else s
  let s := if outlet ≤ 8 * (s.fld R.THERM_OUTLET_MAX.MAX : Int) then s.put R.THERM_STATUS.OUTLET_HIGH 0 0 else s
  (List.range 8).foldl (fun s d =>
    let nt := s.nextNT (dies[d]?.getD 0) ((hbms.drop (4 * d)).take 4) iods d
    let first := decide (nt < 64) && decide (s.fld R.WEIR_DIE.NT 0 d = 64)
    let s := s.setFld R.WEIR_DIE.NT 0 d nt
    if first then s.raiseOnce (toldKey 0x1611 d) (1000 * msTicks) thermUnit none 0x1611
      (w4 [d, twos 32 (dies[d]?.getD 0)]) else s) s

theorem coolAndThrottle_keeps (s : State) (dies iods hbms : List Int) (inlet outlet : Int) :
    s.keeps heatKey (s.coolAndThrottle dies iods hbms inlet outlet) := by
  have hput {f : Fd} (h : ¬ heatKey (f.key 0 0)) (b : Prop) [Decidable b] (t : State) :
      t.keeps heatKey (if b then t.put f 0 0 else t) := ite_keeps _ (setFld_keeps h ..) (.refl t)
  have hhigh : ¬ heatKey (R.THERM_STATUS.INLET_HIGH.key 0 0) ∧ ¬ heatKey (R.THERM_STATUS.OUTLET_HIGH.key 0 0) := by
    unfold heatKey coolKey
    decide
  simp only [State.coolAndThrottle]
  refine (foldl_keeps_all (fun t d hd => ?_) _).after ((hput hhigh.2 _ _).after (hput hhigh.1 _ s))
  refine (ite_keeps _ (raiseOnce_keeps (by decide) ..).heat (.refl _)).after (setFld_keeps (not_heatKey_of_lt ?_) t _)
  have hd := List.mem_range.mp hd
  simp only [Fd.key, pageBase, R.WEIR_DIE.NT]
  omega

theorem checkBoost_keeps (s : State) : s.keeps heatKey s.checkBoost := setFld_keeps (not_heatKey_of_lt (by decide)) ..

/-! ### The trip (R445) -/

theorem fatal_keeps {code : Nat} (hcode : code < 0x8000) (s : State) (u : Raiser) (info : List Byte) :
    s.keeps calmKey (s.fatal u code info) := by
  have hput {f : Fd} (hf : f.page = .fault) (hplace : f.off * 64 + f.lo < 0x1000 * 64) (t : State) (v : Nat) :
      t.keeps calmKey (t.put f 0 v) := by
    refine setFld_keeps ?_ ..
    simp only [calmKey, deviceKey, statusKey, Fd.key, hf, pageBase]
    omega
  simp only [State.fatal]
  refine (ite_keeps _ (.refl _) ?_).after ((hput rfl (by decide) ..).after ((hput rfl (by decide) ..).after
    (raise_keeps hcode s u none info)))
  exact (hput rfl (by decide) ..).after ((hput rfl (by decide) ..).after ((hput rfl (by decide) ..).after
    ((hput rfl (by decide) ..).after ((hput rfl (by decide) ..).after ((hput rfl (by decide) ..).after
      (hput rfl (by decide) ..))))))

theorem weirFloor_keeps (s : State) : s.keeps heatKey s.weirFloor := by
  refine (setFld_keeps (not_heatKey_of_lt (by decide)) ..).after
    (foldl_keeps_all (fun t d hd => setFld_keeps (not_heatKey_of_lt ?_) ..) s)
  have hd := List.mem_range.mp hd
  simp only [Fd.key, pageBase, R.WEIR_DIE.N]
  omega

theorem stopAll_keeps (s : State) : s.keeps calmKey s.stopAll :=
  foldl_keeps_all (fun t _ hn => ite_keeps _ (stopCore_keeps t (List.mem_range.mp hn) _) (.refl t)) s

theorem lightsOff_keeps (s : State) : s.keeps calmKey s.lightsOff :=
  foldl_keeps_all (fun t _ _ => ite_keeps _ (.refl t) (setLink_keeps ..)) s

theorem loopDone_keeps (s : State) (result : Nat) : s.keeps powerKey (s.loopDone result) := by
  unfold State.loopDone
  split
  case h_1 => exact .refl s
  case h_2 l _ =>
    have hraised : s.keeps powerKey (({ ((s.put R.LOOP_STATUS.BUSY 0 0).put R.LOOP_STATUS.RESULT 0 result) with
        bist := { ((s.put R.LOOP_STATUS.BUSY 0 0).put R.LOOP_STATUS.RESULT 0 result).bist with loop := none } } : State).raise
        (.page .loop 0) none 0x0731 (w4 [State.loopWord l, result])) := by
      refine (raise_keeps (by decide) ..).device.powerRegs.after (State.keeps.trans
        (t := (s.put R.LOOP_STATUS.BUSY 0 0).put R.LOOP_STATUS.RESULT 0 result)
        ((setFld_keeps ?_ ..).after (setFld_keeps ?_ ..)) (.of_regs rfl rfl rfl)) <;> unfold powerKey <;> decide
    exact hraised.trans (ite_keeps _ ((trainLink_keeps ..).after (setLink_keeps ..)).device.powerRegs
      (ite_keeps _ (.of_regs rfl rfl rfl) (.refl _)))

/-- The halt of a trip leaves the coolant's readings and the latch, where no power target is held behind a run. -/
theorem thermalTrip_keeps {s : State} (h : s.on R.BIST_STATUS.BUSY = false ∨ s.power.heldTarget = none)
    (src inst : Nat) (t : Int) : (s.put R.THERM_STATUS.TRIP 0 1).keeps trippedKey (s.thermalTrip src inst t) := by
  have hrest : ¬ heatKey (R.THERM_STATUS.TRIP_SRC.key 0 0) ∧ ¬ heatKey (R.THERM_STATUS.TRIP_INST.key 0 0) := by
    unfold heatKey coolKey
    decide
  have hlatched (i : List Byte) : (s.put R.THERM_STATUS.TRIP 0 1).keeps heatKey
      ((((s.put R.THERM_STATUS.TRIP 0 1).put R.THERM_STATUS.TRIP_SRC 0 src).put R.THERM_STATUS.TRIP_INST 0 inst).fatal
        thermUnit 0x5611 i).weirFloor.stopAll :=
    (stopAll_keeps _).heat.after ((weirFloor_keeps _).after ((fatal_keeps (by decide) ..).heat.after
      ((setFld_keeps hrest.2 ..).after (setFld_keeps hrest.1 ..))))
  have hheat {u v : State} (hu : u.keeps heatKey v) : u.keeps trippedKey v := hu.mono fun _ hk => hk.1
  have hpower {u v : State} (hu : u.keeps powerKey v) : u.keeps trippedKey v := hu.mono fun _ hk => hk.2
  simp only [State.thermalTrip]
  have hlatched := hlatched (w4 [src, inst, twos 32 t])
  generalize ((((s.put R.THERM_STATUS.TRIP 0 1).put R.THERM_STATUS.TRIP_SRC 0 src).put R.THERM_STATUS.TRIP_INST 0
    inst).fatal thermUnit 0x5611 (w4 [src, inst, twos 32 t])).weirFloor.stopAll = u at hlatched ⊢
  have hhalt (b : Board) : (s.put R.THERM_STATUS.TRIP 0 1).keeps heatKey { u with haltBegun := true, board := b } :=
    hlatched.trans (.of_regs rfl rfl rfl)
  have hstart := (setFld_keeps (K := (· = R.BIST_STATUS.BUSY.key 0 0)) (f := R.THERM_STATUS.TRIP) (i := 0) (j := 0)
    (by decide) s 1).noneHeld rfl h
  exact (hheat (lightsOff_keeps _).heat).after ((hpower (loopDone_keeps ..)).after
    ((hpower (bistTrip_keeps ((hhalt _).noneHeld (.inl (.inr (.inr rfl))) hstart))).after (hheat (hhalt _))))

theorem coolant_tripped : trippedKey (R.THERM_COOLANT.INLET.key 0 0) ∧ trippedKey (R.THERM_COOLANT.OUTLET.key 0 0) ∧
    trippedKey (R.THERM_STATUS.TRIP.key 0 0) := by
  unfold trippedKey heatKey coolKey powerKey
  decide

/-! ### The whole sample -/

/-- A sample takes its readings; with the main domain on, the conditions follow them, and a sensor may trip (R43, R445). -/
theorem execTempSample_eq (s : State) (dies iods hbms oes : List Int) (inlet outlet : Int) :
    execTempSample dies iods hbms oes inlet outlet s =
      let r := s.readAll dies iods hbms oes inlet outlet
      let u := r.coolAndThrottle dies iods hbms inlet outlet
      if !s.board.mgmtUp then .next s else if !s.mainRuns then .next r.tripRelease.tryStart else
        match tripOf dies iods hbms oes with
        | some (src, inst, t) => .next (if u.on R.THERM_STATUS.TRIP then u else u.thermalTrip src inst t)
        | none => .next u.checkBoost := rfl

/-- What a sample ends with, of the coolant's readings and the trip latch, with the readings it took. -/
theorem execTempSample_next (s : State) (dies iods hbms oes : List Int) (inlet outlet : Int)
    (h : s.on R.BIST_STATUS.BUSY = false ∨ s.power.heldTarget = none) (hup : s.board.mgmtUp = true) :
    ∃ t, execTempSample dies iods hbms oes inlet outlet s = .next t ∧
      t.fld R.THERM_COOLANT.INLET = twos 12 inlet ∧ t.fld R.THERM_COOLANT.OUTLET = twos 12 outlet ∧
      t.on R.THERM_STATUS.TRIP = (s.on R.THERM_STATUS.TRIP || (s.mainRuns && (tripOf dies iods hbms oes).isSome)) := by
  have hread := readAll_inlet s dies iods hbms oes inlet outlet
  have hread' := readAll_outlet s dies iods hbms oes inlet outlet
  have hrest := readAll_keeps_rest s dies iods hbms oes inlet outlet
  rw [execTempSample_eq, hup]
  dsimp only
  generalize s.readAll dies iods hbms oes inlet outlet = r at hread hread' hrest ⊢
  have hkept {t : State} (hk : r.keeps heatKey t) : t.fld R.THERM_COOLANT.INLET = twos 12 inlet ∧
      t.fld R.THERM_COOLANT.OUTLET = twos 12 outlet ∧ t.on R.THERM_STATUS.TRIP = s.on R.THERM_STATUS.TRIP := by
    refine ⟨(hk.fld (.inl (.inl rfl))).trans hread, (hk.fld (.inl (.inr (.inl rfl)))).trans hread', ?_⟩
    rw [State.on, hk.fld (.inr rfl), hrest.fld (.inl rfl), State.on]
  have hcool := coolAndThrottle_keeps r dies iods hbms inlet outlet
  generalize r.coolAndThrottle dies iods hbms inlet outlet = u at hcool ⊢
  cases hruns : s.mainRuns
  case false =>
    obtain ⟨hi, ho, ht⟩ := hkept (tripStart_keeps r)
    exact ⟨_, rfl, hi, ho, by simpa using ht⟩
  case true =>
    cases tripOf dies iods hbms oes with
    | none =>
      obtain ⟨hi, ho, ht⟩ := hkept (hcool.trans (checkBoost_keeps u))
      exact ⟨_, rfl, hi, ho, by simpa using ht⟩
    | some at_ =>
      obtain ⟨src, inst, temp⟩ := at_
      obtain ⟨hi, ho, ht⟩ := hkept hcool
      refine ⟨_, rfl, ?_⟩
      split
      case isTrue hon =>
        rw [← ht, hon]
        exact ⟨hi, ho, rfl⟩
      case isFalse =>
        have hu := hcool.noneHeld (.inl (.inr (.inr rfl))) (hrest.noneHeld (.inr rfl) h)
        have hend := thermalTrip_keeps hu src inst temp
        obtain ⟨hinlet, houtlet, hlatch⟩ := coolant_tripped
        refine ⟨(hend.fld hinlet).trans ((fld_setFld_ne (h := by decide) ..).trans hi),
          (hend.fld houtlet).trans ((fld_setFld_ne (h := by decide) ..).trans ho), ?_⟩
        rw [State.on, (hend.fld hlatch).trans (fld_setFld_self ..)]
        simp [R.THERM_STATUS.TRIP]

end Sys2Proof.Machine
end
section
/-! PROOF. The power samples, the guards and the conditions of the Weir, and what each of its commands leaves set. -/
namespace Sys2Proof.Machine

/-! ### The power sample (R433, R449) -/

/-- The measurement that a sample leaves, and the sum that the gain's update reads. -/
def State.meterView (s : State) : Nat × Nat := (s.fld R.PWR_MEAS.MEAS, s.weir.gainMeas)

theorem setFld_meterView {f : Fd} {i j : Nat} (h : f.key i j ≠ R.PWR_MEAS.MEAS.key 0 0) (s : State) (v : Nat) :
    (s.setFld f i j v).meterView = s.meterView := by
  rw [State.meterView, fld_setFld_ne (h := h.symm)]
  rfl

theorem raise_meterView {code : Nat} (hcode : code < 0x8000) (s : State) (u : Raiser) (c : Option Nat) (info : List Byte) :
    (s.raise u c code info).meterView = s.meterView := by
  have hkept := raise_keeps hcode s u c info
  have hmeas : calmKey (R.PWR_MEAS.MEAS.key 0 0) := by
    unfold calmKey deviceKey
    exact .inl (by decide)
  rw [State.meterView, hkept.fld hmeas, hkept.weir, State.meterView]

theorem judgeSample_meterView (s : State) (est meas : Nat) : (s.judgeSample est meas).meterView = s.meterView := by
  have hruns (t : State) (b g : Nat) :
      State.meterView { t with weir := { t.weir with bad := b, good := g } } = t.meterView := rfl
  have htold {u v : State} (h : u.meterView = v.meterView) {code : Nat} (hcode : code < 0x8000) (info : List Byte) :
      (u.raise pwrUnit none code info).meterView = v.meterView := (raise_meterView hcode ..).trans h
  simp only [State.judgeSample]
  exact view_ite (p := State.meterView) _
    (htold ((setFld_meterView (by decide) ..).trans ((setFld_meterView (by decide) ..).trans (hruns ..))) (by decide) _)
    (view_ite (p := State.meterView) _ (htold ((setFld_meterView (by decide) ..).trans (hruns ..)) (by decide) _) (hruns ..))

theorem ctxEnergy_meterView (s : State) (c uj : Nat) : (s.ctxEnergy c uj).meterView = s.meterView := by
  have hctx (t : State) (x : Ctx) : (t.setCtx c x).meterView = t.meterView := rfl
  refine (setFld_meterView ?_ ..).trans (hctx ..)
  simp only [Fd.key, pageBase, R.CTX_ACCT_ENERGY.COUNT, R.PWR_MEAS.MEAS]
  omega

/-- The energies that a sample counts: the contexts', all, and what no context gets. -/
def State.energies (s : State) (given : List (Nat × Nat)) (all rest : Nat) : State :=
  ((given.foldl (fun s e => s.ctxEnergy e.1 e.2) s).bump R.PWR_ENERGY.COUNT 0 all).bump R.PWR_ENERGY_UNATTR.COUNT 0 rest

theorem energies_meterView (s : State) (given : List (Nat × Nat)) (all rest : Nat) :
    (s.energies given all rest).meterView = s.meterView := by
  have hgiven := foldl_keeps (p := State.meterView) (fun t (e : Nat × Nat) => ctxEnergy_meterView t e.1 e.2) given s
  rw [State.energies, bump_eq, setFld_meterView (by decide), bump_eq, setFld_meterView (by decide), hgiven]

/-- What a sample ends with: the energies are counted, and what their units leave over is kept (R449). -/
def State.energyKept (s : State) (given : List (Nat × Nat)) (all rest left unleft : Nat) : State :=
  { s.energies given all rest with
    weir := { (s.energies given all rest).weir with remEnergy := left, remUnattr := unleft } }

theorem energyKept_meterView (s : State) (given : List (Nat × Nat)) (all rest left unleft : Nat) :
    (s.energyKept given all rest left unleft).meterView = s.meterView := energies_meterView s given all rest

/-- A sample of a running main domain measures, and adds what it measured to the gain's sum. -/
theorem execPowerSample_next {s : State} (hruns : s.mainRuns = true) (mv ma : Nat) (shares : List (Nat × Nat)) (other : Nat) :
    ∃ t, execPowerSample mv ma shares other s = .next t ∧
      t.meterView = (min 65535 (mv * ma / 100 / 1000), s.weir.gainMeas + 100 * (mv * ma / 100)) := by
  have hcount (b : Prop) [Decidable b] (t : State) :
      (if b then t.bump R.PWR_OVER_CAP.COUNT 0 else t).meterView = t.meterView :=
    view_ite (p := State.meterView) _ (setFld_meterView (by decide) ..) rfl
  have hjudged (est : Nat) : ((((s.put R.PWR_VIN.VIN 0 (min 65535 mv)).put R.PWR_VIN.IIN 0 (min 65535 ma)).put
      R.PWR_MEAS.MEAS 0 (min 65535 (mv * ma / 100 / 1000))).judgeSample est (mv * ma / 100)).meterView =
        (min 65535 (mv * ma / 100 / 1000), s.weir.gainMeas) := by
    have hfits : min 65535 (mv * ma / 100 / 1000) % 2 ^ 16 = min 65535 (mv * ma / 100 / 1000) := by omega
    exact (judgeSample_meterView ..).trans (Prod.ext ((fld_setFld_self ..).trans hfits) rfl)
  have hsum {t : State} {m g : Nat} (h : t.meterView = (m, g)) (n : Nat) :
      State.meterView { t with weir := { t.weir with gainMeas := t.weir.gainMeas + n } } = (m, g + n) := by
    obtain ⟨rfl, rfl⟩ := Prod.mk.inj h
    rfl
  simp only [execPowerSample, hruns, if_true]
  exact ⟨_, rfl, (energyKept_meterView _ _ _ _ _ _).trans (hsum ((hcount ..).trans (hjudged _)) _)⟩

/-! ### The gain (R433, R434) -/

/-- The gain that an update moves to: within a tenth of the gain it leaves, and within 0.5 and 2.0. -/
def State.gainMoved (s : State) : Nat :=
  max 8192 (min 32768 (max (s.fld R.PWR_GAIN.G - s.fld R.PWR_GAIN.G / 10)
    (min (s.fld R.PWR_GAIN.G + s.fld R.PWR_GAIN.G / 10) (16384 * s.weir.gainMeas / s.weir.gainRaw))))

theorem gainMoved_lt (s : State) : s.gainMoved < 2 ^ 16 := by
  unfold State.gainMoved
  omega

/-- An update of a running main domain moves G unless nothing was estimated or the meters diverge. -/
theorem execGainUpdate_next (s : State) : ∃ t, execGainUpdate s = .next t ∧ t.fld R.PWR_GAIN.G =
    if s.mainRuns && decide (s.weir.gainRaw ≠ 0) && !s.on R.PWR_STATUS.DIVERGED then s.gainMoved else s.fld R.PWR_GAIN.G := by
  unfold execGainUpdate
  cases hruns : s.mainRuns
  case false => exact ⟨s, rfl, rfl⟩
  case true =>
    refine ⟨_, rfl, ?_⟩
    by_cases hstays : s.weir.gainRaw = 0 ∨ s.on R.PWR_STATUS.DIVERGED = true
    · rw [if_pos hstays, if_neg (by simpa [Decidable.or_iff_not_imp_left] using hstays)]
      rfl
    · obtain ⟨hraw, hconverged⟩ := not_or.mp hstays
      rw [if_neg hstays, if_pos (by rw [eq_false_of_ne_true hconverged]; simp [hraw]), put_eq, fld_setFld_self]
      exact Nat.mod_eq_of_lt (gainMoved_lt s)

/-! ### The current guard (R438) -/

/-- The guard's action on a die: half its N, which is its ceiling for as long as the guard holds. -/
def State.guardDie (s : State) (d : Nat) : State :=
  let n := max 1 (s.weirN d / 2)
  let s := s.setFld R.WEIR_DIE.N 0 d n
  { s with weir := { s.weir with ceiling := tset 64 s.weir.ceiling d n } }

theorem guardDie_weirN (s : State) (d e : Nat) :
    (s.guardDie d).weirN e = if e = d then max 1 (s.weirN d / 2) % 128 else s.weirN e := by
  have hset : (s.guardDie d).weirN e = (s.setFld R.WEIR_DIE.N 0 d (max 1 (s.weirN d / 2))).weirN e := rfl
  rw [hset]
  split
  case isTrue heq =>
    rw [heq, State.weirN, fld_setFld_self]
    rfl
  case isFalse hne =>
    have hkey : R.WEIR_DIE.N.key 0 e ≠ R.WEIR_DIE.N.key 0 d := by
      simp only [Fd.key, pageBase, R.WEIR_DIE.N]
      omega
    rw [State.weirN, fld_setFld_ne (h := hkey), State.weirN]

theorem guardAll_weirN {l : List Nat} (hl : l.Nodup) (s : State) (e : Nat) :
    (l.foldl State.guardDie s).weirN e = if e ∈ l then max 1 (s.weirN e / 2) % 128 else s.weirN e := by
  induction l generalizing s with
  | nil => rfl
  | cons d l ih =>
    obtain ⟨hd, hl⟩ := List.nodup_cons.mp hl
    rw [List.foldl_cons, ih hl, guardDie_weirN]
    by_cases hed : e = d
    · subst hed
      simp [hd]
    · simp [hed]

theorem execCurrentGuardTrip_next {s : State} {avg : Nat} (h : (s.mainRuns && decide (2400 < avg)) = true) :
    ∃ t, execCurrentGuardTrip avg s = .next t ∧ t.fld R.WEIR_STATUS.CURRENT_HOLD = 1 ∧
      t.fld R.CLK_STATUS.BOOST_ACTIVE = 0 ∧ ∀ d : Fin 8, t.weirN d = max 1 (s.weirN d / 2) % 128 := by
  have hraise {f : Fd} {j : Nat} (hk : f.key 0 j < 0x401000 * 64)
      (hc : f.key 0 j ≠ R.FAULT_COUNT.COUNT.key 0 0 ∧ f.key 0 j ≠ R.FAULT_COUNT.COUNT.key 0 1)
      (hev : f.key 0 j ≠ (hdrEvent .pwr).key 0 0) (u : State) :
      (u.raiseOnce (toldKey 0x1602 0) msTicks pwrUnit none 0x1602 (w4 [avg])).fld f 0 j = u.fld f 0 j :=
    raiseOnce_fld ⟨ringQuiet_of_lt hk hc.1, hc.2, hev⟩ ..
  simp only [execCurrentGuardTrip, h, if_true]
  refine ⟨_, rfl, ?_, ?_, fun d => ?_⟩
  · rw [hraise (by decide) (by decide) (by decide), bump_eq, fld_setFld_ne (h := by decide), put_eq, fld_setFld_self]
    rfl
  · rw [hraise (by decide) (by decide) (by decide), bump_eq, fld_setFld_ne (h := by decide), put_eq,
      fld_setFld_ne (h := by decide), State.revokeBoost, put_eq, fld_setFld_self]
    rfl
  · have hall : ((List.range 8).foldl State.guardDie s).weirN d = max 1 (s.weirN d / 2) % 128 := by
      rw [guardAll_weirN List.nodup_range, if_pos (List.mem_range.mpr d.isLt)]
    rw [State.weirN, hraise, bump_eq, fld_setFld_ne, put_eq, fld_setFld_ne, State.revokeBoost, put_eq, fld_setFld_ne]
    · exact hall
    all_goals
      simp only [Fd.key, pageBase, hdrEvent, R.WEIR_DIE.N, R.CLK_STATUS.BOOST_ACTIVE, R.WEIR_STATUS.CURRENT_HOLD,
        R.PWR_CURRENT_EVENTS.COUNT, R.FAULT_COUNT.COUNT]
      omega

/-! ### The cap, and the coolant's conditions -/

/-- `PWR_CAP`, as the field map gives it. -/
def pwrCapReg : RegRef := (regAt .pwr 0 0x100).get (by decide +kernel)

theorem pageAt_pwrCap : pageAt (pageBase .pwr 0 + 0x100) = some (.pwr, 0) := rfl

theorem regSet_pwrCap (s : State) (req w : Nat) (far : List Byte) (ecc : Ecc) :
    s.regSet .pwr 0 pwrCapReg req w far ecc = s.capWrite w req := rfl

/-- A condition of the coolant that begins sets its bit, and COOLANT with it (R444). -/
theorem coolantCondition_begins (s : State) {b : Nat} (hb : b = 3 ∨ b = 4) :
    (s.coolantCondition b true).on R.THERM_STATUS.COOLANT = (s.on R.THERM_STATUS.COOLANT || s.mainRuns) ∧
      (s.coolantCondition b true).fld (coolantBit b) = if s.mainRuns then 1 else s.fld (coolantBit b) := by
  have hraised {f : Fd} (hf : f = R.THERM_STATUS.COOLANT ∨ f = R.THERM_STATUS.INLET_HIGH ∨ f = R.THERM_STATUS.OUTLET_HIGH)
      (u : State) (info : List Byte) : (u.raise thermUnit none 0x1612 info).fld f = u.fld f := by
    obtain rfl | rfl | rfl := hf <;>
      exact raise_page_fld (by decide) (by decide) (by decide) (by decide) u none info
  have hne : (coolantBit b).key 0 0 ≠ R.THERM_STATUS.COOLANT.key 0 0 ∧ (coolantBit b).width = 1 ∧
      (coolantBit b = R.THERM_STATUS.INLET_HIGH ∨ coolantBit b = R.THERM_STATUS.OUTLET_HIGH) := by
    obtain rfl | rfl := hb <;> decide
  obtain ⟨hkey, hwidth, hname⟩ := hne
  have hpin : ¬ b = 2 := by omega
  cases hruns : s.mainRuns
  case false => simp [State.coolantCondition, hpin, hruns]
  case true =>
    have hbit : (s.put (coolantBit b) 0 (b2n true)).fld (coolantBit b) = 1 := by
      rw [put_eq, fld_setFld_self, hwidth]
      rfl
    have hcool : (s.put (coolantBit b) 0 (b2n true)).fld R.THERM_STATUS.COOLANT = s.fld R.THERM_STATUS.COOLANT :=
      fld_setFld_ne (h := hkey.symm) ..
    simp only [State.coolantCondition, if_neg hpin, hruns, Bool.not_true, Bool.false_eq_true, if_false, Bool.true_and,
      Bool.or_true, if_true]
    split
    case isTrue =>
      refine ⟨?_, ?_⟩
      · rw [State.on, hraised (.inl rfl), put_eq, fld_setFld_self]
        rfl
      · rw [hraised (.inr hname), put_eq, fld_setFld_ne (h := hkey)]
        exact hbit
    case isFalse hon => exact ⟨by simpa using hon, hbit⟩

/-! ### The input sag (R446) -/

theorem alertDuty_sag (s : State) (before : Bool) : (s.alertDuty before).fld R.PWR_STATUS.SAG = s.fld R.PWR_STATUS.SAG := by
  have hquiet : dutyQuiet 0 (R.PWR_STATUS.SAG.key 0 0) := by
    unfold dutyQuiet
    decide
  exact alertDuty_fld hquiet ..

theorem execInputSag_next (s : State) (mv : Nat) : ∃ t, execInputSag mv s = .next t ∧
    t.on R.PWR_STATUS.SAG = (s.on R.PWR_STATUS.SAG || s.mainRuns) := by
  have hraised (u : State) (info : List Byte) :
      (u.raise pwrUnit none 0x1605 info).fld R.PWR_STATUS.SAG = u.fld R.PWR_STATUS.SAG :=
    raise_page_fld (by decide) (by decide) (by decide) (by decide) u none info
  simp only [execInputSag]
  split
  case isTrue henter =>
    obtain ⟨hruns, -⟩ := (Bool.and_eq_true ..).mp henter
    refine ⟨_, rfl, ?_⟩
    rw [State.on, alertDuty_sag, hraised, put_eq, fld_setFld_self, hruns, Bool.or_true]
    rfl
  case isFalse hkept =>
    refine ⟨s, rfl, ?_⟩
    cases hruns : s.mainRuns
    · rw [Bool.or_false]
    · have hon : s.on R.PWR_STATUS.SAG = true := by
        cases hsag : s.on R.PWR_STATUS.SAG
        · exact absurd (by rw [hruns, hsag]; rfl) hkept
        · rfl
      rw [hon, Bool.or_true]

theorem execOrphanTimeout_next (s : State) : ∃ t, execOrphanTimeout s = .next t ∧ t.fld R.PWR_STATUS.ORPHAN =
    if s.weir.armed && s.on R.PWR_ORPHAN.EN && !s.on R.PWR_STATUS.ORPHAN && s.board.mgmtUp then 1
    else s.fld R.PWR_STATUS.ORPHAN := by
  unfold execOrphanTimeout
  split
  · refine ⟨_, rfl, ?_⟩
    rw [pwrUnit, raise_page_fld (by decide) (by decide) (by decide) (by decide), put_eq, fld_setFld_self]
    rfl
  · exact ⟨s, rfl, rfl⟩

/-- Settles O9: each command sets what the statement names, and what it does after leaves that as it set it. -/
theorem weirCommands : Obligations.WeirCommands := by
  intro s
  refine ⟨?tick, ?sample, ?gain, ?guard, ?holdEnd, ?cap, ?orphan, ?temp, ?tripHalt, ?tripOff, ?inletHigh, ?outletHigh,
    ?coolantEnd, ?sag, ?sagClear, ?period⟩
  case tick =>
    refine fun pest matrix issued h => completes_of_next rfl ?_
    split
    case isTrue hruns => simpa [hruns] using weirTick_bistCap s pest matrix issued h
    case isFalse hstands => exact ⟨rfl, rfl⟩
  case sample =>
    refine fun mv ma shares other => ?_
    cases hruns : s.mainRuns
    case false => exact completes_of_next (congrArg (fun b => if b = true then _ else _) hruns) ⟨rfl, rfl⟩
    case true =>
      obtain ⟨t, hnext, hview⟩ := execPowerSample_next hruns mv ma shares other
      exact completes_of_next hnext ⟨congrArg Prod.fst hview, congrArg Prod.snd hview⟩
  case gain =>
    obtain ⟨t, hnext, hgain⟩ := execGainUpdate_next s
    exact completes_of_next hnext hgain
  case guard =>
    refine fun avg => ?_
    cases htrips : s.mainRuns && decide (2400 < avg)
    case false => exact completes_of_next (if_neg (by rw [htrips]; decide)) ⟨rfl, rfl, fun _ => rfl⟩
    case true =>
      obtain ⟨t, hnext, hhold, hboost, hdies⟩ := execCurrentGuardTrip_next htrips
      exact completes_of_next hnext ⟨hhold, hboost, hdies⟩
  case holdEnd => exact completes_of_next rfl ⟨fld_setFld_self .., rfl⟩
  case cap =>
    refine fun cap req htakes => completes_of_next rfl ?_
    have hcap : field cap.toNat 0 12 = cap.toNat := by rw [field]; omega
    rw [command_eq_regSet htakes rfl pageAt_pwrCap (by decide) rfl (r := pwrCapReg), regSet_pwrCap, State.capWrite, hcap]
  case orphan =>
    obtain ⟨t, hnext, horphan⟩ := execOrphanTimeout_next s
    exact completes_of_next hnext horphan
  case temp =>
    refine fun dies iods hbms oes inlet outlet h => ?_
    cases hup : s.board.mgmtUp
    case false => exact completes_of_next (if_pos (by rw [hup]; rfl)) ⟨rfl, rfl, (Bool.or_false _).symm⟩
    case true =>
      obtain ⟨t, hnext, hreadings⟩ := execTempSample_next s dies iods hbms oes inlet outlet h hup
      exact completes_of_next hnext hreadings
  case tripHalt =>
    refine completes_of_next rfl ?_
    cases hhalting : s.board.tripHalting <;> simp [hhalting]
  case tripOff =>
    refine completes_of_next rfl ?_
    cases htrip : s.board.thermTrip <;> cases hon : s.board.mainOn <;> simp [hon]
  case inletHigh => exact completes_of_next rfl (coolantCondition_begins s (.inl rfl))
  case outletHigh => exact completes_of_next rfl (coolantCondition_begins s (.inr rfl))
  case coolantEnd =>
    refine completes_of_next rfl ?_
    split
    case isTrue hclear =>
      rw [State.on, put_eq, fld_setFld_self, decide_eq_false (not_not_intro hclear), Bool.and_false]
      rfl
    case isFalse hlasts => rw [decide_eq_true hlasts, Bool.and_true]
  case sag =>
    intro mv
    obtain ⟨t, hnext, hsag⟩ := execInputSag_next s mv
    exact completes_of_next hnext hsag
  case sagClear => exact completes_of_next rfl ((alertDuty_sag ..).trans (fld_setFld_self ..))
  case period =>
    refine completes_of_next rfl ?_
    cases hruns : s.mainRuns <;> cases hassist : s.hostAssisted .weir 0 <;> simp [State.powerDuty, hassist]

end Sys2Proof.Machine
end
